-- ==== Sys2Proof/Word.lean ====
section
/-!
DEFINITION. Word.lean: the plain data every other file rests on.

`Tbl` is the one sparse table of the model: a list of (key, value) pairs with strictly rising keys in which no
entry holds the table's default. Memory bytes, stitch markers, register fields and stream contexts are all tables
of this kind, so equal contents are equal data.
-/

namespace Sys2Proof

/-- One byte (R10: bits [7:0] of a multi-byte field lie in the byte at the lowest address). -/
abbrev Byte := BitVec 8

/-- A time-base value in ns (R186) or a beat count (R41); both wrap at 2⁶⁴ where the spec gives them 64 bits. -/
abbrev Time := Nat

/-- 2⁶⁴, the modulus of the time base and the beat counter. -/
abbrev two64 : Nat := 18446744073709551616

/-- The largest value of a 48-bit counter that holds (R76, R115, ...). -/
abbrev max48 : Nat := 281474976710655

/-- A sparse table: keys strictly rising, no entry equal to the default (see `Tbl.wf`). -/
abbrev Tbl (α : Type) := List (Nat × α)

/-- What a table holds at key `k`; an unlisted key holds the default `d`. -/
def Tbl.get {α : Type} (d : α) : Tbl α → Nat → α
  | [], _ => d
  | (k', v) :: t, k => if k = k' then v else Tbl.get d t k

/-- Every entry at key `k` removed. -/
def Tbl.erase {α : Type} : Tbl α → Nat → Tbl α
  | [], _ => []
  | (k', v) :: t, k => if k = k' then Tbl.erase t k else (k', v) :: Tbl.erase t k

/-- `(k, v)` put in its place among rising keys. -/
def Tbl.insert {α : Type} (k : Nat) (v : α) : Tbl α → Tbl α
  | [] => [(k, v)]
  | (k', v') :: t => if k < k' then (k, v) :: (k', v') :: t else (k', v') :: Tbl.insert k v t

/-- The table with `v` at `k`: an entry is listed only when it differs from the default. -/
def Tbl.set {α : Type} [DecidableEq α] (d : α) (t : Tbl α) (k : Nat) (v : α) : Tbl α :=
  if v = d then Tbl.erase t k else Tbl.insert k v (Tbl.erase t k)

/-- The keys of a table, in order. -/
def Tbl.keys {α : Type} (t : Tbl α) : List Nat := t.map Prod.fst

/-- Every key of the table is above `k`. -/
def Tbl.above {α : Type} (k : Nat) : Tbl α → Bool
  | [] => true
  | (k', _) :: t => decide (k < k') && Tbl.above k t

/-- The canonical form: keys strictly rising and no entry equal to the default. -/
def Tbl.wf {α : Type} [DecidableEq α] (d : α) : Tbl α → Bool
  | [] => true
  | (k, v) :: t => Tbl.above k t && !decide (v = d) && Tbl.wf d t

/-- Replace element `i` of a list. -/
def setAt {α : Type} : List α → Nat → α → List α
  | [], _, _ => []
  | _ :: t, 0, v => v :: t
  | x :: t, i + 1, v => x :: setAt t i v

/-- A 48-bit counter one (or `n`) higher, which holds at its maximum. -/
def sat48 (c n : Nat) : Nat := min (c + n) max48

/-- A counter that holds at `m`. -/
def satAdd (m c n : Nat) : Nat := min (c + n) m

/-- ⌈a / b⌉. -/
def ceilDiv (a b : Nat) : Nat := (a + b - 1) / b

/-- Bit `i` of `w`, numbered from 0 at the least significant bit (R9). -/
def bit (w i : Nat) : Bool := w.testBit i

/-- Bits [msb:lsb] of `w` (R9). -/
def bits (w msb lsb : Nat) : Nat := (w >>> lsb) % 2 ^ (msb + 1 - lsb)

/-- The smallest multiple of `m` at or above `x`. -/
def alignUp (x m : Nat) : Nat := ceilDiv x m * m

/-- A Nat as a little-endian run of `n` bytes (R10). -/
def leBytes : Nat → Nat → List Byte
  | 0, _ => []
  | n + 1, v => BitVec.ofNat 8 v :: leBytes n (v / 256)

/-- The value of a little-endian run of bytes (R10). -/
def leVal : List Byte → Nat
  | [] => 0
  | b :: t => b.toNat + 256 * leVal t

/-- A `w`-bit two's-complement field as an integer. -/
def signed (w v : Nat) : Int := if v % 2 ^ w < 2 ^ (w - 1) then (v % 2 ^ w : Nat) else (v % 2 ^ w : Nat) - 2 ^ w

/-- An integer as a `w`-bit two's-complement field. -/
def unsign (w : Nat) (i : Int) : Nat := (i % (2 ^ w : Nat)).toNat

/-- An integer clamped to lie in `lo..hi`. -/
def clampInt (lo hi i : Int) : Int := max lo (min hi i)

end Sys2Proof
end

