-- ==== Sys2Proof/Syntax.lean ====
section
/-!
DEFINITION. Syntax.lean: the commands the block takes, one constructor of `Instr` per row of spec/opcode_table.json,
in the table's order. The table gives its rows no operands, so each constructor carries what the governing rule says
the step is about: the unit concerned, and whatever only the world outside the block decides (a packet, a reading, a
physical outcome). Hardware indices are `Fin`, so a command cannot name a unit the part does not have.
-/

namespace Sys2Proof

/-- A pose as Table 7.6 lays it out: x, y, yaw are FP32 bit patterns, t is ms, speed is a BF16 bit pattern. -/
structure Pose where
  x : Nat
  y : Nat
  yaw : Nat
  t : Nat
  speed : Nat
deriving DecidableEq, Repr

/-- A fetched descriptor, named by its function, ring and submission slot (R293). -/
structure DescRef where
  fn : Fin 32
  ring : Fin 256
  slot : Nat
deriving DecidableEq, Repr

/-- A command of an iteration of the program in a slot of a function (R42, R302). -/
structure CmdRef where
  fn : Fin 32
  slot : Fin 16
  iter : Nat
  cmd : Nat
deriving DecidableEq, Repr

/-- The operations of a bundle (R40, R79 to R114, R150 to R159, R338). Instruction encodings are not published (02,
"Patterns and the beat"), so a bundle names the operation itself. `dst`, `src`, `a`, `b`, `c` are vector registers 0-31,
`lane` a lane 0-255, `row` and `col` an accumulator of the MAC array, and offsets lie in tile SRAM. An operation of a
command that is re-run in its wider format (R63) uses that format. -/
inductive TileOp where
  /-- The status word that the command's booked read of a handover buffer delivered (R57). -/
  | readStatus (dst lane buffer : Nat)
  /-- A bank read into a register lane, 4 bytes. -/
  | loadWord (dst lane off : Nat)
  /-- The low `bytes` bytes of a lane written to the command's shadow of tile SRAM. -/
  | storeWord (src lane off bytes : Nat)
  /-- The scalar registers: 8 bytes read from, or written to the shadow of, tile SRAM. -/
  | scalarLoad (reg off : Nat)
  | scalarStore (reg off : Nat)
  /-- Bytes brought over the tile network or the ring from another tile's SRAM into the shadow of this one (R48, R49). -/
  | pull (die tile srcOff dstOff bytes : Nat)
  /-- The input conversion of element `ch` of the reduction: an FP32 lane to the code in `dst` (R85 to R87, R100, R108). -/
  | inputConvert (src dst lane ch : Nat)
  /-- The output conversion of the tile's output channel `n` (R85 to R87, R111 to R114). -/
  | outputConvert (src dst lane n : Nat)
  /-- One output element of the MAC array (R91 to R95, R101): the packed activation row at `actOff`, the packed weight row
  at `wgtOff`, the wide activation row at `wideOff`, output channel `n` of the `nLocal` of this tile; `pads` lists the reduction
  elements whose tap falls in ZERO padding (R132). -/
  | macElement (row col actOff wgtOff wideOff n nLocal : Nat) (pads : List Nat)
  /-- An accumulator read into a register lane. -/
  | accRead (dst lane row col : Nat)
  /-- FP32 fused multiply-add, single rounding (R96). -/
  | fma (dst a b c lane : Nat)
  /-- BF16 addition or multiplication computed in FP32 and rounded to BF16 (R96). -/
  | bf16Add (dst a b lane : Nat)
  | bf16Mul (dst a b lane : Nat)
  /-- BF16 fused multiply-add computed in FP32 and rounded to BF16 (R96, Table 2.1). -/
  | bf16Fma (dst a b c lane : Nat)
  /-- INT32 addition or multiplication, saturating (R96). -/
  | int32Add (dst a b lane : Nat)
  | int32Mul (dst a b lane : Nat)
  /-- A select between two vector results by the sign bit of `c` (a value may depend on data, time may not). -/
  | select (dst a b c lane : Nat)
  /-- One output element of the depthwise path over `taps` pairs (R136); `fmt` 0 INT8, 3 BF16, 5 FP32; bit i of `pads`
  is 1 when tap i falls in ZERO padding (R132). -/
  | depthwise (dst lane fmt taps srcOff wgtOff pads : Nat)
  /-- One query row of a length-table entry for a local head of an attention layer (R150 to R158). -/
  | attendRow (entry row head : Nat)
  /-- The last step of one key row's gradient: rotated back and stored (R159). -/
  | finishKey (entry key head : Nat)
  /-- The append conversion of one new token's latent (R155). -/
  | appendLatent (entry token : Nat)
  /-- A stitch-marker ADD or SET queued in shadow storage (R321). -/
  | markAdd (marker value : Nat)
  | markSet (marker value : Nat)
deriving DecidableEq, Repr

/-- What one sequencer issues in one beat (R40, R41): the operations of the bundle. -/
structure Bundle where
  ref : CmdRef
  die : Fin 6
  tile : Fin 40
  ops : List TileOp
deriving DecidableEq, Repr

/-- A sensor port: a CSI-2 port or an Ethernet MAC (R175, R177). -/
inductive SensorPort where
  | csi (p : Fin 16)
  | mac (n : Fin 6)
deriving DecidableEq, Repr

/-- A burst of an HBM read that arrives with bad symbols, which only the stack decides: the byte offset of the burst within the data read,
and which of its 36 symbols, 32 of data and 4 of check bytes, are bad (R245). -/
structure BadBurst where
  offset : Nat
  symbols : List (Fin 36)
deriving DecidableEq, Repr

/-- The bad bursts of an HBM read, in the order read. -/
abbrev EccResult := List BadBurst

/-- The bad bursts of what an engine job reads of HBM in a beat, of its source or of its auxiliary data (R247): the command, the die and the
job, an index into the program's ENGINE_PROGRAM entries. -/
structure EngineRead where
  ref : CmdRef
  die : Fin 6
  job : Nat
  aux : Bool
  ecc : EccResult
deriving DecidableEq, Repr

/-- A task watch, and the tile that its deviation is traced to, if any (R53). -/
structure TracedWatch where
  watch : Fin 64
  tile : Option (Fin 40)
deriving DecidableEq, Repr

/-- The header fields of a received flit that the receiver reads, and its CRC (Table 8.7). -/
structure FlitHdr where
  crc : Nat
  nak : Bool
  ackValid : Bool
  seq : Nat
  ack : Nat
  credits : Nat
deriving DecidableEq, Repr

/-- How a received CAN message arrived (R381): island, bus of the pair, CRC, length and counter. -/
structure CanRx where
  island : Fin 2
  bus : Fin 2
  crcOk : Bool
  lengthOk : Bool
  counter : Nat
deriving DecidableEq, Repr

/-- What a gauge unit compares (R337 to R340): the chunk or tile concerned and whether the copies' values agree. -/
structure GaugeCmp where
  ref : CmdRef
  tile : Fin 40
  agree : Bool
deriving DecidableEq, Repr

/-- A PMBus reading of one configuration-record entry (R408, R496): answered, mV, 0.01 A. -/
structure PmbusReading where
  entry : Fin 8
  answered : Bool
  vout : Nat
  iout : Nat
deriving DecidableEq, Repr

/-- A reading of an aging monitor, named as in Table 13.10 (die and monitor index): a ring-oscillator pair with its relative frequency loss
in 10⁻⁹, or an electromigration counter with its count. -/
inductive WearReading where
  | ring (monitor loss : Nat)
  | migration (monitor count : Nat)
deriving DecidableEq, Repr

/-- The swatch types of Table 12.1. -/
inductive SwatchType where
  | tileLogic | tileMem | tileFull | engine | lane | thermal | whLogic | whMem
deriving DecidableEq, Repr

/-- What a configuration request writes beside Bus Master Enable (Table 9.1, R454): none leaves a field. Sizes are 128 · 2^n bytes. -/
structure ConfigWrite where
  numVfs : Option (Fin 32)
  payload : Option (Fin 3)
  readRequest : Option (Fin 6)
  tags10 : Option Bool
  relaxed : Option Bool
  aer : Option (Fin 16)
  msixEnable : Option Bool
  functionMask : Option Bool
deriving DecidableEq, Repr

/-- A slice on a target (R382). -/
structure SliceRef where
  kind : SwatchType
  target : Nat
  slice : Nat
deriving DecidableEq, Repr

/-- A board rail of Table 13.1. -/
inductive Rail where
  | vinCore | vinHbm | vinIo | vaon | vinWha | vinWhb
deriving DecidableEq, Repr

/-- The two ways a bank of replies can come back over PCI Express (R296, R310). -/
inductive HostRead where
  | ok
  | error
deriving DecidableEq, Repr

/-- The commands of the block: one constructor per row of spec/opcode_table.json. -/
inductive Instr where
  /-- R488: a write of `value` to a register (32 bits, or 64 when `wide`). -/
  | registerWrite (fn : Fin 32) (offset : Nat) (wide : Bool) (value : Nat)
  /-- R12: an access of another width, or misaligned. -/
  | badAccessWidth (fn : Fin 32) (offset width : Nat) (isWrite : Bool)
  /-- R13: a read of a register (a 64-bit one when `wide`); a low half read latches the upper half. -/
  | latchedReadLow (fn : Fin 32) (offset : Nat) (wide : Bool)
  /-- R14. -/
  | secLockSet
  /-- R429. -/
  | modeReqPark
  | parkEntryDone
  /-- R474. -/
  | modeReqNightMarket
  | nightCloseDone
  /-- R482: a write of MODE = 1, or of MODE = 0 when `thenPark`. -/
  | modeReqDrive (thenPark : Bool)
  /-- R483, Table 15.4. -/
  | dayOpenStallsCleared
  | dayOpenScrubDone
  | dayOpenAttested (digestOk : Bool)
  | dayOpenDone
  | dayOpenLate
  /-- R41: one beat, with the bundles that the sequencers issue in it and the bad bursts that the engines read. -/
  | fabricBeat (bundles : List Bundle) (engines : List EngineRead)
  /-- R303. -/
  | iterationStart (fn : Fin 32) (slot : Fin 16)
  /-- R59. -/
  | commandStart (c : CmdRef)
  /-- R60. -/
  | commandCommit (c : CmdRef)
  /-- R63. -/
  | wideRerunDecision (c : CmdRef)
  /-- R116: the job is an index into the program's ENGINE_PROGRAM entries. -/
  | engineJobStart (c : CmdRef) (job : Nat)
  /-- R50: the window is an index into the program's bookings. -/
  | windowBookedBeat (c : CmdRef) (window : Nat) (ecc : EccResult)
  /-- R51: whether the data stands in the elastic buffer at its release beat. -/
  | purlDataRelease (c : CmdRef) (present : Bool)
  /-- R58. -/
  | outboundWriteComplete (c : CmdRef) (window : Nat)
  /-- R56. -/
  | handoverBookedRead (c : CmdRef) (buffer : Fin 1024)
  /-- R66. -/
  | commandKillBeat (fn : Fin 32) (slot : Fin 16)
  /-- R73: the watch of a die, checked at its expected commit beat. -/
  | watchDeviation (die : Fin 6) (watch : TracedWatch)
  /-- R74. -/
  | beatStepChange
  /-- R76. -/
  | tallyClear (mask : Nat)
  /-- R115, R145, R170, R168. -/
  | clrRerun (die : Fin 6)
  | clrNan (die : Fin 6)
  | clrCentreOnly (die : Fin 6)
  | clrStemClip (die : Fin 6)
  | clrStarve (die : Fin 6)
  | clrDropped (die : Fin 6)
  /-- R164. -/
  | kvAllocBeat (c : CmdRef)
  /-- R170. -/
  | victimDropDone (pool : Fin 256)
  | pageStarvedReissue (pool : Fin 256)
  /-- R148. -/
  | pageHeldOpsApply (pool : Fin 256)
  /-- R161, Table 5.9. -/
  | createPool (d : DescRef)
  | destroyPool (d : DescRef)
  | openSeq (d : DescRef)
  | closeSeq (d : DescRef)
  | truncateSeq (d : DescRef)
  | setClass (d : DescRef)
  | pin (d : DescRef)
  | unpin (d : DescRef)
  | readSeq (d : DescRef)
  | poolStatus (d : DescRef)
  /-- R194: a Frame Start short packet. -/
  | csi2FrameStart (port : Fin 16) (vc : Fin 16) (frameNumber : Nat)
  /-- R180: a long packet's payload. -/
  | csi2LongPacket (port : Fin 16) (vc : Fin 16) (dt : Nat) (payload : List Byte) (eccOk crcOk fifoOk : Bool)
  /-- R194: a Frame End packet. -/
  | csi2FrameEnd (port : Fin 16) (vc : Fin 16)
  /-- R177: a UDP packet (untagged has VLAN 0); a gPTP frame or other frame when `udp` is false. -/
  | ethPacketRx (mac : Fin 6) (udp : Bool) (vlan port : Nat) (payload : List Byte) (fcsOk fifoOk : Bool)
  /-- R201. -/
  | sensorLinkLost (port : SensorPort)
  | streamLostTimeout (ctx : Fin 128)
  /-- R184. -/
  | streamCtxEnable (ctx : Fin 128)
  | streamCtxDisable (ctx : Fin 128)
  /-- R202, R200. -/
  | clrFaults (ctx : Fin 128)
  | clrLate (ctx : Fin 128)
  /-- R191. -/
  | triggerEnable (line : Fin 32)
  | triggerDisable (line : Fin 32)
  | triggerEdge (line : Fin 32)
  | triggerPulseEnd (line : Fin 32)
  | triggerHoldEnd (line : Fin 32)
  /-- R197. -/
  | fusionEnable
  | fusionInstant
  /-- R206. -/
  | fusedResultRelease
  /-- R186 to R188: a valid Sync on a MAC with the offset measured (ns), the correction (0.01 ppm) and its 802.1CB
  sequence number. -/
  | gptpSyncRx (mac : Fin 6) (offset : Int) (freqAdj : Int) (cbSeq : Nat)
  | gptpPdelayReqRx (mac : Fin 6)
  | gptpPdelayRespRx (mac : Fin 6) (delay : Nat)
  | syncTimeout
  | holdoverLimit
  /-- R241. -/
  | planEnable
  | planDisable
  | planCycleStart
  /-- R217. -/
  | snapshotPublish
  | snapshotBuildDone
  /-- R228. -/
  | proposalTake
  /-- R227: a lane finishes the candidate it checks. -/
  | candidateCheckDone (lane : Fin 64)
  /-- R234; `finalAgrees` is the verdict of the second lane of R235 against the first. -/
  | planSelection (finalAgrees : Bool)
  /-- R239. -/
  | clrPlanStat (n : Fin 8)
  /-- R257: a request of a regulated master, for a stall when `stall` is not 0. -/
  | regulatedRequestIssue (master : Fin 12) (stall : Fin 32) (addr size : Nat) (isWrite : Bool) (deadline : Nat)
  /-- R258. -/
  | regulatorRefill
  /-- R259: a command slot of a pseudo-channel; `windowNeeds` when a window takes it. -/
  | commandSlotArbitration (pc : Fin 64) (windowNeeds : Bool)
  /-- R260: the completion of the request with this identifier. -/
  | regulatedRequestComplete (req : Nat) (ecc : EccResult)
  /-- R250. -/
  | retireGranuleCopied (pc : Fin 64) (ecc : EccResult)
  /-- R248. -/
  | scrubBurst (ecc : EccResult)
  /-- R254. -/
  | refreshSlot (pc : Fin 64) (bank : Nat)
  /-- R255: the temperatures of HS0 and HS1 in °C. -/
  | stackTempRead (t0 t1 : Int)
  | refreshRateChange (stack : Fin 2)
  /-- R262: a write of a partition, stall rate or master map register. -/
  | memRegulationWrite (offset value : Nat)
  /-- R261. -/
  | clrPartStat (n : Fin 16)
  /-- R271, R272: links 0-5 ring, 6-11 hub, 12-13 WHA and WHB. -/
  | purlCrcResend (link : Fin 14)
  | purlLinkDown (link : Fin 14)
  | clrPurlRetry (die : Fin 6) (k : Fin 2)
  | clrPurlWhRetry (k : Fin 2)
  /-- R278. -/
  | pairEnable
  | pairTrainAttempt
  | pairTrainTimeout
  | trainA
  | trainB
  | trainC (peerRole : Bool)
  /-- R275. -/
  | skip
  /-- R281: a DATA flit; `buffer` is the inbound buffer that the peer's MEM_PAIR_XFER_n names. -/
  | data (h : FlitHdr) (xfer : Fin 64) (buffer : Fin 1024) (last : Bool) (offset : Nat) (bytes : List Byte)
  /-- R277: a STATUS flit. -/
  | statusFlit (h : FlitHdr) (role : Bool) (mode step beatStep authority : Nat)
  /-- R279: a TIME flit: beat sent, sent value of the last TIME flit received, beat received, beat step. -/
  | time (h : FlitHdr) (sent echo echoRecv beatStep : Nat)
  /-- R277. -/
  | idle (h : FlitHdr)
  /-- R282. -/
  | arrive (h : FlitHdr) (barrier : Fin 64) (gen : Nat)
  | release (h : FlitHdr) (barrier : Fin 64) (gen rel : Nat)
  /-- R283. -/
  | abort (h : FlitHdr) (isBarrier : Bool) (id : Fin 64) (gen reason : Nat)
  | pairTimeSend
  | pairStatusSend
  | pairXferSend (xfer : Fin 64)
  | pairLostTimeout
  | barrierTimeout (barrier : Fin 64)
  /-- R289. -/
  | pcieLinkDown
  /-- R454. -/
  | pcieConfigRequest (fn : Fin 32) (busMaster : Option Bool) (numVfs : ConfigWrite)
  /-- R290. -/
  | pfFlr
  | vfFlr (vf : Fin 32)
  /-- R292. -/
  | ringEnable (fn : Fin 32) (ring : Fin 256)
  | ringDisable (fn : Fin 32) (ring : Fin 256)
  /-- R294. -/
  | dbSqTail (fn : Fin 32) (ring : Fin 256) (tail : Nat)
  | dbCqHead (fn : Fin 32) (ring : Fin 256) (head : Nat)
  /-- R296. -/
  | descFetch (fn : Fin 32) (ring : Fin 256) (read : HostRead)
  /-- R300 to R324: the effects of descriptors. -/
  | nop (d : DescRef)
  | knot (d : DescRef)
  | execLoad (d : DescRef)
  | execStart (d : DescRef)
  | execKill (d : DescRef) (killBeat : Nat)
  | execUnload (d : DescRef)
  | iterationEnd (fn : Fin 32) (slot : Fin 16)
  | copy (d : DescRef) (read : HostRead)
  | copyToInbound (d : DescRef) (read : HostRead)
  | copyFromOutbound (d : DescRef)
  | add (d : DescRef)
  | set (d : DescRef)
  | wait (d : DescRef)
  | take (d : DescRef)
  | read (d : DescRef)
  | markArrive (d : DescRef)
  | markerTimeout (d : DescRef)
  /-- R348, R350. -/
  | split (d : DescRef)
  | join (d : DescRef)
  | joinResyncDone (d : DescRef)
  | pairChangeBoundary (fn : Fin 32) (slot : Fin 16)
  | joinWarmupEnd (fn : Fin 32) (slot : Fin 16)
  /-- R476. -/
  | checkpoint (d : DescRef)
  | checkpointBoundary (stall : Fin 32)
  /-- R300. -/
  | descComplete (d : DescRef)
  /-- R326: a vector of a function. -/
  | msixCoalesceTimeout (fn : Fin 32) (vector : Nat)
  /-- R333: the entry of the PAIR_TABLE. -/
  | agreementDigest (c : CmdRef) (entry : Nat)
  /-- R335: whether the relay delivered both digests, and whether they are equal. -/
  | agreementVerdict (c : CmdRef) (entry : Nat) (delivered equal : Bool)
  /-- R340. -/
  | gaugeChunkVerdict (g : GaugeCmp) (window chunk : Nat)
  | gaugeSignatureVerdict (g : GaugeCmp)
  | gaugeMissingTimeout (c : CmdRef)
  | gaugeSwatchTimeout
  | clrCnt
  /-- R354 to R381: island events; island 0 is WHA, 1 is WHB. -/
  | islandSupplyFault (island : Fin 2)
  | islandClockAlign (island : Fin 2)
  | crossHeartbeat (island : Fin 2) (cross hub : Bool)
  | crossHbTimeout (island : Fin 2)
  | lockstepMismatch (island : Fin 2)
  | peerFailSignal (island : Fin 2)
  | islandSensorFrame (island : Fin 2) (input : Fin 3) (edge : Nat)
  | pilotCycleStart (island : Fin 2)
  | pilotPublish (island : Fin 2) (cont stop : List Pose) (grid : List Byte)
  | pilotDeadline (island : Fin 2)
  | hubHeartbeat
  | hubHeartbeatLost (island : Fin 2)
  | planRecordRelay (island : Fin 2)
  | mainPlanMissing (island : Fin 2)
  | authorityHeartbeat
  | hubTrajSend
  | statusSend (sender : Fin 3)
  | vehicleState (m : CanRx) (speed yawRate accel gear : Nat) (mrmActive : Bool)
  | yield (m : CanRx) (targetRole : Bool)
  | commandTake (m : CanRx) (targetRole peerYielded : Bool)
  | canBusOff (controller : Fin 8)
  | canBusOffRecovery (controller : Fin 8)
  | mainRestartStart
  | mainRestartDone
  | mainRestartFail
  | errorRecordEnqueue
  | errorHandlingDone
  | errlogEnable
  /-- R382 to R397: the gap's end is a beat for a beat-clocked slice and a time otherwise. -/
  | swatchSliceStart (r : SliceRef) (gapEnd : Nat)
  | swatchSliceEnd (r : SliceRef)
  | swatchAbort (r : SliceRef)
  | swatchVerdict (r : SliceRef) (signatureOk : Bool)
  | swatchCoverageLate (target : Nat)
  | clrSwatchCnt (n : Fin 4)
  | swatchPassDone
  | injectReportTimeout (row : Fin 16) (inst : Nat)
  /-- R402: IEEE 1149.1 instructions. -/
  | bypass
  | idcode
  | samplePreload
  | extest
  | internalScan
  | debugAccess
  /-- R404: whether every read-back is zero. -/
  | scanCleared (allZero : Bool)
  /-- R410 to R417. -/
  | budgetTick
  | budgetReply (die : Fin 8) (seq demand demandLower measured : Nat) (hottest : Int) (flags : Nat)
  | budgetMessage (die : Fin 8)
  | budgetMessageTimeout (die : Fin 8)
  | shedUndo
  | voltageRampDone
  | ivrFault (domain : Fin 44)
  | pmbusTelemetryRead (readings : List PmbusReading)
  | pwrRailLimit
  /-- R421: every channel's reading in 1/16 °C. -/
  | diodeRead (readings : List Int)
  | thermTripClear
  | thermPairSuspect (pair : Fin 60)
  | thermPairClear (pair : Fin 60)
  | thermSensorFault (pair : Fin 60)
  | coolingProjection
  /-- R423: the fast channel 1 value. -/
  | sentFrameRx (input : Fin 3) (raw : Nat) (frameOk : Bool)
  | sentInputLost (input : Fin 3)
  | coolantStopShutdown
  | coolantFlowReturned
  /-- R430, R433. -/
  | wakeInEdge (pin : Fin 4) (rising : Bool)
  | pcieWakeIn
  | wakeAlarm
  | thermInTrip
  | vaonMonitorTrip
  /-- R434: the consumed life of every monitor, in ppm, with the monitor's name (die and index). -/
  | wearLedgerMinute (monitors : List WearReading)
  | wearRecordHourly (writeOk : Bool)
  /-- R454. -/
  | whaResetRelease
  | driveReady
  | whbResetRelease
  | aonReset
  | perstAssert
  | perstRelease
  | railLoss (rail : Rail)
  | pwrSeqFail
  /-- R455, R456, R458, R459. -/
  | recoverImage
  | writeImage
  | writeConfig
  | flashWriteDone (verified : Bool)
  | quoteGo
  | quoteDone
  | submit
  | debugWindowClose
  /-- R464 to R466, R478. -/
  | stallOpen (stall : Fin 32)
  | stallOpenDone (stall : Fin 32)
  | stallClose (stall : Fin 32)
  | stallDrained (stall : Fin 32)
  | stallDrainGraceTimeout (stall : Fin 32)
  | stallCloseDone (stall : Fin 32)
  /-- R491 to R494. -/
  | netMacEnable (mac : Fin 6)
  | netMacDisable (mac : Fin 6)
  | change (mac : Fin 6)
  | qbvChangeTime (mac : Fin 6)
  | qbvGateEntry (mac : Fin 6)
  | ethFrameTx (mac : Fin 6) (tagged : Bool) (pcp : Fin 8) (bytes queuedAt : Nat)
  | qavEnable (mac : Fin 6) (cls : Fin 8)
  | clrNetCnt (mac : Fin 6) (k : Fin 5)
  | sensorLinkRestored (port : SensorPort)
  | pcieLinkUp (speed width : Nat)
  | islandSupplyRestored (island : Fin 2)
  | islandAcceleratorThermalStop (island : Fin 2)
  | pcieWakeNRelease
  | markerOwnerChange (group : Fin 128) (fn : Fin 32)
deriving DecidableEq, Repr

end Sys2Proof
end

