-- ==== Sys2Proof/Decode.lean ====
section
/-!
DEFINITION. Decode.lean: spec/opcode_table.json gives none of its rows a bit, so no word spells a command (a command reaches
the block as an event at its pins, links and registers, not as an encoded word).
-/

namespace Sys2Proof

/-- The command that a word spells by the table's bits: the table gives no row any, so there is none. -/
def decodeTableWord (_nbits _w : Nat) : Option Instr := none

end Sys2Proof
end

