-- ==== Sys2Proof/Config.lean ====
section
/-!
DEFINITION. Config.lean: what an implementation of the block fixes and the free values. An `opaque` constant has no body,
so nothing can be proved from a value of it: what it stands for is whatever the hardware does.
-/

namespace Sys2Proof.Config

/-- The n-th free value of a run, of `w` bits (taken mod 2^w): a value that the manual leaves open where the machine goes
on. DESIGN CHOICE (log 5). -/
opaque freeValue : (w n : Nat) → Nat

/-- The stitch markers a pattern ADDs or SETs (R320): the loader reads them from the PATTERN sections, whose encoding is
not published (02, "Patterns and the beat"). UNVERIFIED (log 6). -/
opaque patternMarkers : List Byte → List Nat

/-- Does the loaded Evfin accept a container of this flahili_version major number (check 4 of Table 2.7)? The manual does
not say which it accepts (log 15). -/
opaque acceptsMajor : Nat → Bool

/-- Where in tile SRAM the loader places a PATTERN or CONSTANTS section: its content fixes the place, and the encoding is
not published (02). UNVERIFIED (log 6). -/
opaque sectionOffset : List Byte → Nat

/-- The tile SRAM offset of the attention layer descriptor that a tile's pattern names for a command (05), if the command is
an attention command: the pattern's encoding is not published (02). UNVERIFIED (log 6). -/
opaque layerOffset : (pattern : List Byte) → (command : Nat) → Option Nat

/-- Where a stem or stripe job delivers element `k` of what it computes or feeds, given its entry's 128 bytes: the tiles of its command's
group on its die, as places in their ascending order, and the index of the element there, counted from dst. Element k of an output is
number (y · W_out + x) · channels + channel, and that of a feed ((y · W_out + x) · k_h · k_w + ky · k_w + kx) · in_channels + channel. Table
4.2 names dst only. UNVERIFIED (log 14). -/
opaque enginePlace : (entry : List Byte) → (k : Nat) → List (Nat × Nat)

/-- The failing rows (bank and row) that the n-th failing memory slice finds in a tile's SRAM (R386); none when the fault is not of
rows. -/
opaque failingRows : (n : Nat) → List (Nat × Nat)

/-- The reference signature of a slice of a type in the swatch table of the Evfin image with this header (R385): Evfin is not published (log
114). -/
opaque swatchReference : (evfin : List Byte) → (kind slice : Nat) → Nat

/-- How detail1 of a SWATCH_FAIL record names failing rows: the manual gives no format (log 7). -/
opaque rowsDetail : List (Nat × Nat) → Nat

/-- Bytes of the IP header of a received UDP packet; the model takes at least 20. Whether a packet is IPv4 or IPv6, with what options and
extensions, is not an operand of ETH_PACKET_RX (log 105). -/
opaque ipHeader : (vlan port : Nat) → (payload : List Byte) → Fin 4096

/-- Refresh (R254): the banks of a pseudo-channel, the beats from one refresh command of a pseudo-channel to the next at a beat step and a
refresh rate, and the beat of the first. The manual gives no figures (log 100). -/
opaque refreshBanks : Nat
opaque refreshBeats : (step : Nat) → (doubled : Bool) → Nat
opaque refreshPhase : (channel : Nat) → Nat

/-- The flits that the receive buffer of the peer of the pair link holds: a sender counts its credits down from it (R276, log 108). -/
opaque pairBuffer : Nat

/-- Is a burst with three or more bad symbols still found uncorrectable? R245 promises it for two (log 109). -/
opaque detects : (symbols : List Nat) → Bool

/-- The pulse of an island's trigger outputs in ns (R355): Table 11.2 has no WIDTH (log 113). -/
opaque islandPulse : Nat

/-- The root hash in the fuses of the part (R446). -/
opaque rootHash : List Byte

/-- The secret that the PUF yields from its helper data, or none when reconstruction fails (R453). -/
opaque pufSecret : (helper : List Byte) → Option (List Byte)

/-- The code that stands where a command without a QUANT_PARAMS entry would need a quantising conversion, which R102 says it does not perform
(log 121). -/
opaque unconverted : (fmt value : Nat) → Nat

/-- Byte `i` of the ciphertext of a 256-byte granule under AES-256-XTS (R469). -/
opaque xtsByte : (key granule : Nat) → (plain : List Byte) → (i : Nat) → Byte

/-- Falcon-1024: the public key that a seed gives, the signature of a message under a seed's key, and whether a signature
verifies under a public key. -/
opaque falconPublic : (seed : List Byte) → List Byte
opaque falconSign : (seed message : List Byte) → List Byte
opaque falconVerify : (publicKey message signature : List Byte) → Bool

/-- What the thermal forecast takes (R418): the values of the 60 pairs and the two stack temperatures, inlet and outlet in 1/16 °C, flow
in 0.001 L/min, and each die's measured power and demands in 0.1 W. -/
structure ForecastInput where
  hot : List Int
  inlet : Int
  outlet : Int
  flow : Nat
  power : List (Nat × Nat × Nat)
deriving DecidableEq, Repr

/-- The temperature in 1/16 °C that the forecast gives a hot spot 8 ms ahead at a package power in 0.1 W (R418): its coefficients come from
the Evfin image with this header, and are not published (log 112). -/
opaque hotSpotAhead : (evfin : List Byte) → ForecastInput → (spot power : Nat) → Int

/-- The end-of-life count of an electromigration counter (R434), which comes from Evfin. -/
opaque endOfLife : (monitor : Nat) → Nat

/-- The temperature in 1/16 °C that the forecast itself gives the hot spot of a pair (R422). -/
opaque hotSpotEstimate : (pair : Nat) → (hot : List Int) → Int

end Sys2Proof.Config
end

