-- ==== Sys2Proof/Machine/Arith.lean ====
section
/-!
DEFINITION. Machine/Arith.lean: the number formats and the arithmetic of 03, on exact values. A finite value is a sign, a
mantissa and a power of two, so every rounding of the manual is one call of `roundTo`; the digest functions SHAKE256 and
CRC-32 of R45, R276 and R333 stand at the end.
-/

namespace Sys2Proof.Machine

/-- An integer divided by `n`, rounded half to even (R84). -/
def divEven (a : Int) (n : Nat) : Int :=
  let q := a / (n : Int)
  let m := (a % (n : Int)) * 2
  if m > (n : Int) ∨ (m = (n : Int) ∧ q % 2 ≠ 0) then q + 1 else q

/-- A value of a floating format: NaN, an infinity, or (-1)^neg · m · 2^e with m = 0 for the signed zeros. -/
inductive FVal where
  | nan
  | inf (neg : Bool)
  | fin (neg : Bool) (m : Nat) (e : Int)
deriving DecidableEq, Repr

/-- The finite value of an integer times a power of two; zero is +0. -/
def FVal.ofInt (i : Int) (e : Int) : FVal := .fin (decide (i < 0)) i.natAbs e

/-- The signed mantissa of a finite value. -/
def signedMant (neg : Bool) (m : Nat) : Int := if neg then -(m : Int) else m

/-- m · 2^n, for n of either sign, rounded to nearest even when bits fall off (R84). -/
def shiftRne (m : Nat) (n : Int) : Nat :=
  if 0 ≤ n then m <<< n.toNat
  else
    let k := (-n).toNat
    let q := m >>> k
    let r := m % 2 ^ k
    let h := 2 ^ (k - 1)
    if r > h || (r == h && q % 2 == 1) then q + 1 else q

/-- The exponent of the last place kept when m · 2^e is rounded to `p` bits with the smallest place 2^emin. -/
def lastPlace (p : Nat) (emin : Int) (m : Nat) (e : Int) : Int :=
  max emin ((m.log2 : Int) + e - ((p : Int) - 1))

/-- m · 2^e rounded to nearest even to `p` significant bits (R84), as the exponent and mantissa fields taken together:
a value below 2^(p-1) is subnormal (R81: nothing is flushed). -/
def roundTo (p : Nat) (emin : Int) (m : Nat) (e : Int) : Nat :=
  if m = 0 then 0
  else
    let u := lastPlace p emin m e
    (u - emin).toNat * 2 ^ (p - 1) + shiftRne m (e - u)

/-- FP32 from an exact value (R82 to R84): overflow gives infinity, every NaN is 0x7FC0_0000. -/
def toF32 : FVal → Nat
  | .nan => 0x7FC00000
  | .inf neg => if neg then 0xFF800000 else 0x7F800000
  | .fin neg m e =>
    let b := min (roundTo 24 (-149) m e) 0x7F800000
    if neg then b + 0x80000000 else b

/-- The value of an FP32 pattern (Table 3.1). -/
def f32 (b : Nat) : FVal :=
  let neg := bit b 31
  let ex := bits b 30 23
  let man := bits b 22 0
  if ex = 255 then (if man = 0 then .inf neg else .nan)
  else if ex = 0 then .fin neg man (-149)
  else .fin neg (man + 0x800000) ((ex : Int) - 150)

/-- BF16 from an exact value (R82 to R84). -/
def toBf16 : FVal → Nat
  | .nan => 0x7FC0
  | .inf neg => if neg then 0xFF80 else 0x7F80
  | .fin neg m e =>
    let b := min (roundTo 8 (-133) m e) 0x7F80
    if neg then b + 0x8000 else b

/-- The value of a BF16 pattern: the upper half of an FP32 one. -/
def bf16 (b : Nat) : FVal := f32 (b % 65536 * 65536)

/-- The value of an FP8 E4M3 code (R79, R80). -/
def e4m3 (b : Nat) : FVal :=
  let neg := bit b 7
  let ex := bits b 6 3
  let man := bits b 2 0
  if ex = 15 ∧ man = 7 then .nan
  else if ex = 0 then .fin neg man (-9)
  else .fin neg (man + 8) ((ex : Int) - 10)

/-- The value of an FP8 E5M2 code (R79). -/
def e5m2 (b : Nat) : FVal :=
  let neg := bit b 7
  let ex := bits b 6 2
  let man := bits b 1 0
  if ex = 31 then (if man = 0 then .inf neg else .nan)
  else if ex = 0 then .fin neg man (-16)
  else .fin neg (man + 4) ((ex : Int) - 17)

/-- The NQ4 levels times 1,024, from code 0x8 (k = -8) upwards (Table 3.4). -/
def nq4Levels : List Int :=
  [-1024, -785, -622, -491, -379, -277, -181, -90, 0, 105, 213, 326, 450, 592, 768, 1024]

/-- The level of an NQ4 code times 1,024 (R88). -/
def nq4 (code : Nat) : Int := nq4Levels.getD ((code + 8) % 16) 0

/-- Exact comparison of a · 2^i with b · 2^j: is the first at most the second? -/
def dyLe (a : Int) (i : Int) (b : Int) (j : Int) : Bool :=
  let d := i - j
  if 0 ≤ d then decide (a * 2 ^ d.toNat ≤ b) else decide (a ≤ b * 2 ^ (-d).toNat)

/-- Exact sum (R82); a sum of finite values that is zero is +0, but for (-0) + (-0). -/
def FVal.add : FVal → FVal → FVal
  | .nan, _ => .nan
  | _, .nan => .nan
  | .inf a, .inf b => if a = b then .inf a else .nan
  | .inf a, _ => .inf a
  | _, .inf b => .inf b
  | .fin na ma ea, .fin nb mb eb =>
    let e := min ea eb
    let s := signedMant na ma * 2 ^ (ea - e).toNat + signedMant nb mb * 2 ^ (eb - e).toNat
    if s = 0 then .fin (na && nb) 0 e else .ofInt s e

/-- Exact product (R82). -/
def FVal.mul : FVal → FVal → FVal
  | .nan, _ => .nan
  | _, .nan => .nan
  | .inf a, .inf b => .inf (a != b)
  | .inf a, .fin b m _ => if m = 0 then .nan else .inf (a != b)
  | .fin a m _, .inf b => if m = 0 then .nan else .inf (a != b)
  | .fin a m e, .fin b n f => .fin (a != b) (m * n) (e + f)

/-- The quotient to 64 bits more than asked with a sticky last bit, so that one rounding of it is the correctly rounded
quotient (R84). -/
def FVal.div : FVal → FVal → FVal
  | .nan, _ => .nan
  | _, .nan => .nan
  | .inf _, .inf _ => .nan
  | .inf a, .fin b _ _ => .inf (a != b)
  | .fin a _ _, .inf b => .fin (a != b) 0 0
  | .fin a m e, .fin b n f =>
    if n = 0 then (if m = 0 then .nan else .inf (a != b))
    else
      let k := n.log2 + 66
      let q := m * 2 ^ k / n
      let r := m * 2 ^ k % n
      .fin (a != b) (2 * q + (if r = 0 then 0 else 1)) (e - f - (k : Int) - 1)

/-- Negation. -/
def FVal.neg : FVal → FVal
  | .nan => .nan
  | .inf a => .inf (!a)
  | .fin a m e => .fin (!a) m e

/-- a ≤ b for values that are not NaN; false when one is. -/
def FVal.le : FVal → FVal → Bool
  | .nan, _ => false
  | _, .nan => false
  | .inf true, _ => true
  | _, .inf false => true
  | .inf false, _ => false
  | _, .inf true => false
  | .fin a m e, .fin b n f => dyLe (signedMant a m) e (signedMant b n) f

/-- a < b. -/
def FVal.lt (a b : FVal) : Bool := a.le b && !b.le a

/-- Neither NaN nor an infinity. -/
def FVal.isFinite : FVal → Bool
  | .fin _ _ _ => true
  | _ => false

/-- FP32 addition, subtraction, multiplication, division and fused multiply-add with one rounding (R82, R84, R96). -/
def f32add (a b : Nat) : Nat := toF32 ((f32 a).add (f32 b))
def f32sub (a b : Nat) : Nat := toF32 ((f32 a).add (f32 b).neg)
def f32mul (a b : Nat) : Nat := toF32 ((f32 a).mul (f32 b))
def f32div (a b : Nat) : Nat := toF32 ((f32 a).div (f32 b))
def f32fma (a b c : Nat) : Nat := toF32 (((f32 a).mul (f32 b)).add (f32 c))

/-- BF16 addition and multiplication: computed in FP32 and rounded to BF16 (R96). -/
def bf16add (a b : Nat) : Nat := toBf16 (f32 (toF32 ((bf16 a).add (bf16 b))))
def bf16mul (a b : Nat) : Nat := toBf16 (f32 (toF32 ((bf16 a).mul (bf16 b))))

/-- BF16 fused multiply-add: one rounding to FP32, then to BF16 (R96). -/
def bf16fma (a b c : Nat) : Nat := toBf16 (f32 (toF32 (((bf16 a).mul (bf16 b)).add (bf16 c))))

/-- INT32 saturation (R96). -/
def sat32 (i : Int) : Nat := unsign 32 (clampInt (-2147483648) 2147483647 i)

/-- Rounding to the nearest integer, ties to even. -/
def roundInt (neg : Bool) (m : Nat) (e : Int) : Int := signedMant neg (shiftRne m e)

/-! ## Quantising conversions -/

/-- The outcome of a conversion: the code, counted as clipped, counted as NaN. -/
structure Conv where
  code : Nat
  clipped : Bool
  nan : Bool
deriving DecidableEq, Repr

/-- The 16 bits of the magnitude just below the place 2^u (R114), and the magnitude truncated there. -/
def truncAt (m : Nat) (e u : Int) : Nat × Nat :=
  let k := e - u
  let q := if 0 ≤ k then m <<< k.toNat else m >>> (-k).toNat
  let f := if 0 ≤ k + 16 then m <<< (k + 16).toNat else m >>> (-(k + 16)).toNat
  (q, f % 65536)

/-- Magnitude kept at the place 2^u: rounded to nearest even, or stochastically by the draw `r` (R114). -/
def keepAt (m : Nat) (e u : Int) (draw : Option Nat) : Nat :=
  match draw with
  | none => shiftRne m (e - u)
  | some r => let (q, d) := truncAt m e u; if d + r ≥ 65536 then q + 1 else q

/-- Magnitude rounded to a floating format, as its exponent and mantissa fields together. -/
def keepFloat (p : Nat) (emin : Int) (m : Nat) (e : Int) (draw : Option Nat) : Nat :=
  if m = 0 then 0
  else
    let u := lastPlace p emin m e
    (u - emin).toNat * 2 ^ (p - 1) + keepAt m e u draw

/-- To INT8 (Table 3.3, R86, R87, R114). -/
def toInt8 (t : FVal) (draw : Option Nat) : Conv :=
  match t with
  | .nan => ⟨0, false, true⟩
  | .inf neg => ⟨if neg then 0x80 else 0x7F, true, false⟩
  | .fin neg m e =>
    let i := signedMant neg (keepAt m e 0 draw)
    let tooBig := match draw with
      | none => dyLe 255 (-1) (signedMant neg m) e
      | some _ => decide (i > 127)
    let under := match draw with
      | none => !dyLe (-257) (-1) (signedMant neg m) e
      | some _ => decide (i < -128)
    if tooBig then ⟨0x7F, true, false⟩ else if under then ⟨0x80, true, false⟩
    else ⟨unsign 8 i, false, false⟩

/-- To FP8 E4M3 (Table 3.3). -/
def toE4m3 (t : FVal) (draw : Option Nat) : Conv :=
  match t with
  | .nan => ⟨0x7F, false, true⟩
  | .inf neg => ⟨if neg then 0xFE else 0x7E, true, false⟩
  | .fin neg m e =>
    let b := keepFloat 4 (-9) m e draw
    let s := if neg then 0x80 else 0
    let tooBig := match draw with
      | none => !dyLe m e 464 0
      | some _ => decide (b > 0x7E)
    if tooBig then ⟨s + 0x7E, true, false⟩ else ⟨s + b, false, false⟩

/-- To FP8 E5M2 (Table 3.3). -/
def toE5m2 (t : FVal) (draw : Option Nat) : Conv :=
  match t with
  | .nan => ⟨0x7F, false, true⟩
  | .inf neg => ⟨if neg then 0xFB else 0x7B, true, false⟩
  | .fin neg m e =>
    let b := keepFloat 3 (-16) m e draw
    let s := if neg then 0x80 else 0
    let tooBig := match draw with
      | none => dyLe 61440 0 m e
      | some _ => decide (b > 0x7B)
    if tooBig then ⟨s + 0x7B, true, false⟩ else ⟨s + b, false, false⟩

/-- To NQ4: the nearest level, a tie towards zero (R90), clipped beyond ±1.0 (Table 3.3). -/
def toNq4 (t : FVal) : Conv :=
  match t with
  | .nan => ⟨0, false, true⟩
  | .inf neg => ⟨if neg then 8 else 7, true, false⟩
  | .fin neg m e =>
    let v := signedMant neg m
    if !dyLe v e 1 0 then ⟨7, true, false⟩
    else if !dyLe (-1) 0 v e then ⟨8, true, false⟩
    else
      -- levels strictly passed on the way out from zero; a midpoint in 1/2,048ths is passed only when exceeded
      let up := ((List.range 7).filter fun j => !dyLe v e (nq4 j + nq4 (j + 1)) (-11)).length
      let down := ((List.range 8).filter fun j => !dyLe (nq4 (16 - j) + nq4 (15 - j)) (-11) v e).length
      ⟨if neg then (16 - down) % 16 else up, false, false⟩

/-- BF16 with a stochastic draw (R114): beyond the largest finite value, infinity (R82). -/
def toBf16Stoch (t : FVal) (draw : Option Nat) : Nat :=
  match t with
  | .fin neg m e =>
    let b := min (keepFloat 8 (-133) m e draw) 0x7F80
    if neg then b + 0x8000 else b
  | v => toBf16 v

/-- A conversion by the format codes of Table 3.2; BF16 and FP32 are not quantising and count nothing. -/
def convertTo (fmt : Nat) (t : FVal) (draw : Option Nat) : Conv :=
  if fmt = 0 then toInt8 t draw
  else if fmt = 1 then toE4m3 t draw
  else if fmt = 2 then toE5m2 t draw
  else if fmt = 3 then ⟨toBf16Stoch t draw, false, false⟩
  else if fmt = 4 then toNq4 t
  else ⟨toF32 t, false, false⟩

/-- The value a code of a format stands for (Table 3.1; an NQ4 level is its integer over 1,024). -/
def decodeFmt (fmt code : Nat) : FVal :=
  if fmt = 0 then .ofInt (signed 8 code) 0
  else if fmt = 1 then e4m3 code
  else if fmt = 2 then e5m2 code
  else if fmt = 3 then bf16 code
  else if fmt = 4 then .ofInt (nq4 code) (-10)
  else f32 code

/-- The bits one element of a format occupies in memory. -/
def fmtBits (fmt : Nat) : Nat :=
  if fmt = 4 then 4 else if fmt = 3 then 16 else if fmt = 5 then 32 else 8

/-- The multiplier of an input conversion (R85): the reciprocal of decode(scale) × tensor scale, rounded twice. -/
def inputMultiplier (scale : Option Nat) (tensorScale : Nat) : Nat :=
  let c := match scale with
    | none => tensorScale
    | some b => toF32 ((e4m3 b).mul (f32 tensorScale))
  f32div 0x3F800000 c

/-- The multiplier of an output conversion (R85). -/
def outputMultiplier (invScale : Nat) (scale : Option Nat) : Nat :=
  match scale with
  | none => invScale
  | some b => toF32 ((f32 invScale).div (e4m3 b))

/-- The xorshift generator of a lane (R113): next state and 16-bit draw. -/
def xorshift (x : Nat) : Nat × Nat :=
  let a := x ^^^ (x <<< 13 % two64)
  let b := a ^^^ (a >>> 7)
  let c := b ^^^ (b <<< 17 % two64)
  (c, bits c 63 48)

/-- The seed of a lane's generator at an iteration start (R112). -/
def laneSeed (seed die tile lane : Nat) : Nat :=
  let id := (die * 40 + tile) * 256 + lane + 1
  let s := (seed % two64) ^^^ (id * 0x9E3779B97F4A7C15 % two64)
  if s = 0 then 1 else s

/-! ## Accumulation -/

/-- Is the pair activation × weight one of Table 3.7? -/
def macPair (act wgt : Nat) : Bool :=
  (act == 0 && wgt == 0) || (act == 0 && wgt == 4) || (act == 4 && wgt == 4) ||
  ((act == 1 || act == 2) && (wgt == 1 || wgt == 2)) || (act == 3 && wgt == 3)

/-- The exact sum of a list of values (R92); an empty or zero sum is +0. -/
def exactSum (l : List FVal) : FVal :=
  match l.foldl FVal.add (.fin false 0 0) with
  | .fin _ 0 _ => .fin false 0 0
  | v => v

/-- rne32 of an exact value, as a value. -/
def rne32 (v : FVal) : FVal := f32 (toF32 v)

/-- A pairwise tree over rne32 additions (R94): neighbours first. -/
def treeStep : List FVal → List FVal
  | a :: b :: t => rne32 (a.add b) :: treeStep t
  | l => l

/-- The sum of 16 products by the tree of R94, absent elements counting as +0. -/
def tree16 (l : List FVal) : FVal :=
  let p := l ++ List.replicate (16 - l.length) (.fin false 0 0)
  ((treeStep (treeStep (treeStep (treeStep p)))).head?).getD (.fin false 0 0)

/-- Runs of `n` of a list; the fuel bounds their number. -/
def chunksOf {α : Type} (n : Nat) : Nat → List α → List (List α)
  | 0, _ => []
  | f + 1, l => if l.isEmpty then [] else l.take n :: chunksOf n f (l.drop n)

/-- One output element of a pair with an exact group sum (R92): `groups` holds, per group, the products and the two
scale bytes when the layer is grouped. -/
def macGroups (groups : List (List FVal × Option (Nat × Nat))) (tensor : Nat) : Nat :=
  let acc := groups.foldl (init := FVal.fin false 0 0) fun acc g =>
    let s := match g.2 with
      | none => FVal.ofInt 1 0
      | some (a, w) => (e4m3 a).mul (e4m3 w)
    rne32 (acc.add (rne32 ((rne32 (exactSum g.1)).mul s)))
  toF32 (acc.mul (f32 tensor))

/-- INT8 × INT8 ungrouped (R93). -/
def macInt8 (products : List Int) (tensor : Nat) : Nat :=
  toF32 ((rne32 (.ofInt (products.foldl (· + ·) 0) 0)).mul (f32 tensor))

/-- BF16 × BF16 (R94). -/
def macBf16 (products : List FVal) (tensor : Nat) : Nat :=
  let blocks := chunksOf 16 (products.length + 1) (products.map rne32)
  let acc := blocks.foldl (fun acc b => rne32 (acc.add (tree16 b))) (FVal.fin false 0 0)
  toF32 (acc.mul (f32 tensor))

/-- One element of a matrix product in the formats `act` × `wgt` with `group` elements per scale (0 ungrouped). -/
def macElement (act wgt group : Nat) (a w : List Nat) (scales : List (Nat × Nat)) (tensor : Nat) : Nat :=
  if act = 0 ∧ wgt = 0 ∧ group = 0 then
    macInt8 (List.zipWith (fun x y => signed 8 x * signed 8 y) a w) tensor
  else
    let products := List.zipWith (fun x y => (decodeFmt act x).mul (decodeFmt wgt y)) a w
    if act = 3 then macBf16 products tensor
    else
      let g := if group = 0 then 128 else group
      let gs := chunksOf g (products.length + 1) products
      macGroups ((List.range gs.length).map fun i =>
        (gs.getD i [], if group = 0 then none else some (scales.getD i (0, 0)))) tensor

/-! ## CRC-32 and SHAKE256 -/

/-- One bit of the reflected CRC-32 of polynomial 0x04C1_1DB7 (R276). -/
def crcStep (c : Nat) : Nat := if c % 2 = 1 then (c >>> 1) ^^^ 0xEDB88320 else c >>> 1

/-- CRC-32 over bytes (R276): initial value and final xor 0xFFFF_FFFF. -/
def crc32 (l : List Byte) : Nat :=
  (l.foldl (fun c b => (List.range 8).foldl (fun x _ => crcStep x) (c ^^^ b.toNat)) 0xFFFFFFFF) ^^^ 0xFFFFFFFF

/-- Rotation of a 64-bit lane to the left. -/
def rotl64 (x n : Nat) : Nat := (x <<< n ||| x >>> (64 - n)) % two64

/-- Lane (x, y) of a state of 1,600 bits: 64 bits, lane x + 5y counted from bit 0. -/
def lane (a x y : Nat) : Nat := a >>> (64 * (x % 5 + 5 * (y % 5))) % two64

/-- The state whose lane (x, y) is `g x y`. -/
def ofLanes (g : Nat → Nat → Nat) : Nat := (List.range 25).foldl (fun a i => a + g (i % 5) (i / 5) <<< (64 * i)) 0

/-- θ: every lane takes in the parities of the columns on both sides of it. -/
def theta (a : Nat) : Nat :=
  let parity := fun x => (List.range 5).foldl (fun v y => v ^^^ lane a x y) 0
  ofLanes fun x y => lane a x y ^^^ parity (x + 4) ^^^ rotl64 (parity (x + 1)) 1

/-- The lanes in the order in which ρ visits them: (1, 0) first, (y, 2x + 3y) after (x, y). -/
def rhoWalk : Nat → Nat × Nat
  | 0 => (1, 0)
  | t + 1 =>
    let (x, y) := rhoWalk t
    (y, (2 * x + 3 * y) % 5)

/-- The rotation of a lane: the triangular number of its place in the walk; lane (0, 0) stays. -/
def rhoBy (x y : Nat) : Nat :=
  match (List.range 24).find? fun t => rhoWalk t == (x, y) with
  | some t => (t + 1) * (t + 2) / 2 % 64
  | none => 0

/-- ρ and π: lane (x, y) is lane (x + 3y, x) rotated by its own count. -/
def rhoPi (a : Nat) : Nat :=
  ofLanes fun x y => rotl64 (lane a (x + 3 * y) x) (rhoBy ((x + 3 * y) % 5) x)

/-- χ: in each row, a lane changes where the next lane is 0 and the one after it 1. -/
def chi (a : Nat) : Nat := ofLanes fun x y => lane a x y ^^^ ((two64 - 1 - lane a (x + 1) y) &&& lane a (x + 2) y)

/-- The register of ι after `t` shifts: 8 bits with the feedback x⁸ + x⁶ + x⁵ + x⁴ + 1. -/
def iotaReg : Nat → Nat
  | 0 => 1
  | t + 1 => let r := 2 * iotaReg t; if r < 256 then r else r ^^^ 0x171

/-- ι of round `k`: bit 2^j - 1 of lane (0, 0) takes in the register's low bit after j + 7k shifts. -/
def iota (k a : Nat) : Nat := (List.range 7).foldl (fun a j => a ^^^ (iotaReg (j + 7 * k) % 2) <<< (2 ^ j - 1)) a

/-- The permutation Keccak-f[1600]: 24 rounds. -/
def keccakF (a : Nat) : Nat := (List.range 24).foldl (fun a k => iota k (chi (rhoPi (theta a)))) a

/-- The sponge of rate 136 bytes: whole blocks are taken in, and the rest with the suffix 1111 and the padding of SHAKE256; the fuel bounds
the blocks. -/
def sponge : Nat → Nat → List Byte → Nat
  | 0, a, _ => a
  | n + 1, a, m =>
    if m.length < 136 then keccakF (a ^^^ leVal m ^^^ 0x1F <<< (8 * m.length) ^^^ 0x80 <<< (8 * 135))
    else sponge n (keccakF (a ^^^ leVal (m.take 136))) (m.drop 136)

/-- SHAKE256 of a message, the first `n` ≤ 136 bytes. PRESUMED (log 3): the function is FIPS 202's, which the manual
names without defining. -/
def shake256 (m : List Byte) (n : Nat) : List Byte := leBytes n (sponge (m.length / 136 + 1) 0 m)

end Sys2Proof.Machine
end

