-- ==== Sys2Proof/Machine/Regs.lean ====
section
/-!
DEFINITION. Machine/Regs.lean: the register map (16, Tables 16.1 and 16.2) as data. `Reg` names every register, `Fld`
every named field of one; `Fld.spec` is the field's row of its register's table (place, access type, reset value) and
`Reg.spec` the register's place in BAR0. Reserved bits have no field: they read 0 and what is written to them is
ignored (R15). The doorbells of BAR2 are commands of their own.
-/

namespace Sys2Proof.Machine

/-- Access types of Table 0.2. -/
inductive Access where
  | ro | rw | rwl | w1c | wo
deriving DecidableEq, Repr

/-- The registers of BAR0. An index letter of the manual (n, m, k, ...) is an argument where the register is used. -/
inductive Reg where
  | HUB_CFG_BEAT_COUNT | HUB_CFG_TALLY_SEL | HUB_CFG_TALLY_CNT | HUB_CFG_TALLY_CLR | CD_TILE_MAP | CD_TILE_STATE
  | CD_RERUN_COUNT | CD_NAN_COUNT | CD_QCNT_CLR | CD_ENG_CENTRE_ONLY | CD_ENG_STEM_CLIP | CD_ENG_CNT_CLR
  | CD_KV_STARVE_COUNT | CD_KV_DROPPED_PAGES | CD_KV_CNT_CLR | SENS_STREAM_CTX | SENS_STREAM_PARAM
  | SENS_STREAM_DELAY | SENS_STREAM_LIMITS | SENS_STREAM_MATCH | SENS_STREAM_TSOFF | SENS_STREAM_SLOT_SIZE
  | SENS_STREAM_SLOT_BASE | SENS_STREAM_STATUS | SENS_STREAM_LATE_DROPS | SENS_STREAM_FAULTS | SENS_CNT_CLR
  | SENS_TRIG_CTRL | SENS_TRIG_TIMING | SENS_FUSION_CFG | SENS_FUSION_PERIOD | SENS_FUSION_PHASE | SENS_FUSION_GRID
  | SENS_GROUP | SENS_DEGRADE_CFG | SENS_DEGRADE_STATUS | TIME_NOW | TIME_CFG | TIME_STATUS | PLAN_CFG | PLAN_CYCLE
  | PLAN_CYCLE_PHASE | PLAN_MARKERS | PLAN_PROP_BUF | PLAN_COST_W | PLAN_STORE_BASE | PLAN_OUT_BASE | PLAN_STATUS
  | PLAN_STAT | PLAN_STAT_CLR | MEM_MASTER_MAP | MEM_ECC_CFG | MEM_SPARE_CFG | MEM_ADMIT_STATUS | MEM_PART_CFG
  | MEM_PART_RATE | MEM_STALL_RATE | MEM_PART_STAT | MEM_PART_STAT_CLR | MEM_WIN_BOOK | MEM_PC_ECC | MEM_PAIR_CFG
  | MEM_PAIR_STATUS | MEM_PAIR_XFER | RING_CFG | RING_IRQ | RING_SQ_BASE | RING_CQ_BASE | RING_HEAD_WB
  | RING_STATUS | HUB_CFG_MARKER_OWNER | HUB_CFG_MARKER_VAL | HUB_CFG_GAUGE_STATUS | HUB_CFG_GAUGE_FIRST_TIME
  | HUB_CFG_GAUGE_CNT | HUB_CFG_GAUGE_CLR | SAFE_STATUS | SAFE_ERRQ_STATUS | SAFE_RESTART | HUB_CFG_ERRLOG_BASE
  | HUB_CFG_ERRLOG_CFG | HUB_CFG_ERRLOG_COUNT | HUB_CFG_RETAIN_BASE | HUB_CFG_RETAIN_SIZE | HUB_CFG_SWATCH_CFG
  | HUB_CFG_SWATCH_STATUS | HUB_CFG_SWATCH_CNT | HUB_CFG_SWATCH_CLR | HUB_CFG_INJECT_STATUS | SEC_SCAN_STATUS
  | PWR_MODE_REQ | PWR_STATUS | PWR_DOMAINS | PWR_PKG_LIMIT | PWR_THERM_CFG | PWR_SENT_CFG | PWR_COOLANT
  | PWR_WAKE_CFG | PWR_WAKE_CAUSE | PWR_WAKE_TARGET | PWR_WEAR_STATUS | SEC_LOCK | SEC_BOOT_STATUS | SEC_VERSION
  | SEC_XFER_ADDR | SEC_XFER_CTRL | SEC_XFER_STATUS | SEC_QUOTE_NONCE | SEC_QUOTE_DEST | SEC_QUOTE_CTRL
  | SEC_DEBUG_CHALLENGE | SEC_DEBUG_CTRL | SEC_DEBUG_MAILBOX | HUB_CFG_NM_CFG | HUB_CFG_NM_STATUS
  | HUB_CFG_STALL_CFG | HUB_CFG_STALL_REGION | HUB_CFG_STALL_STATUS | HUB_CFG_STALL_CNT | HUB_CFG_ID
  | HUB_CFG_CFG_ERROR | VF_INFO | VF_MARKER_GROUPS | PCIE_LINK_STATUS | PCIE_FN_STATUS | NET_MAC_CFG | NET_MAC_ADDR
  | NET_TC_MAP | NET_MAC_CNT | NET_CNT_CLR | NET_QBV_CTRL | NET_QBV_BASE | NET_QBV_CYCLE | NET_QBV_GCL | NET_QAV
  | NET_CAN_STATUS | PWR_RAIL | CD_PURL_STATUS | CD_PURL_RETRY | CD_PURL_CLR | HUB_CFG_PURL_WH_RETRY
  | HUB_CFG_PURL_WH_STATUS | MSIX_TABLE | MSIX_PBA
deriving DecidableEq, Repr

/-- The named fields of those registers, in the order of the map. -/
inductive Fld where
  | HUB_CFG_BEAT_COUNT_BEAT | HUB_CFG_TALLY_SEL_SOURCE | HUB_CFG_TALLY_SEL_CAUSE | HUB_CFG_TALLY_CNT_COUNT
  | HUB_CFG_TALLY_CLR_CLEAR | CD_TILE_MAP_ROW_REPAIRS | CD_TILE_MAP_PHYS | CD_TILE_STATE_PENDING_PHYS
  | CD_TILE_STATE_REPAIR_PENDING | CD_TILE_STATE_SPARES_LEFT | CD_RERUN_COUNT_COUNT | CD_NAN_COUNT_COUNT
  | CD_QCNT_CLR_CLR_NAN | CD_QCNT_CLR_CLR_RERUN | CD_ENG_CENTRE_ONLY_COUNT | CD_ENG_STEM_CLIP_COUNT
  | CD_ENG_CNT_CLR_CLR_STEM_CLIP | CD_ENG_CNT_CLR_CLR_CENTRE_ONLY | CD_KV_STARVE_COUNT_COUNT
  | CD_KV_DROPPED_PAGES_COUNT | CD_KV_CNT_CLR_CLR_DROPPED | CD_KV_CNT_CLR_CLR_STARVE | SENS_STREAM_CTX_ENABLE
  | SENS_STREAM_CTX_KIND | SENS_STREAM_CTX_TS_SRC | SENS_STREAM_CTX_FRAME_NUM | SENS_STREAM_CTX_PORT
  | SENS_STREAM_CTX_VC | SENS_STREAM_CTX_DT | SENS_STREAM_CTX_TRIGGER | SENS_STREAM_CTX_GROUP
  | SENS_STREAM_PARAM_CONSIST_THR | SENS_STREAM_PARAM_LOST_PERIODS | SENS_STREAM_PARAM_BUFFER_ID
  | SENS_STREAM_DELAY_EXPECT_DELAY | SENS_STREAM_LIMITS_PKTS_PER_FRAME | SENS_STREAM_LIMITS_ALIGN_TOL
  | SENS_STREAM_MATCH_VLAN_ID | SENS_STREAM_MATCH_UDP_PORT | SENS_STREAM_TSOFF_TS_OFFSET
  | SENS_STREAM_SLOT_SIZE_SIZE | SENS_STREAM_SLOT_BASE_BASE | SENS_STREAM_STATUS_LAST_CAUSE
  | SENS_STREAM_STATUS_RUN | SENS_STREAM_STATUS_STATE | SENS_STREAM_LATE_DROPS_COUNT | SENS_STREAM_FAULTS_MISSED
  | SENS_STREAM_FAULTS_MISALIGNED | SENS_STREAM_FAULTS_PLAUS_FAIL | SENS_CNT_CLR_CLR_FAULTS | SENS_CNT_CLR_CLR_LATE
  | SENS_CNT_CLR_CTX | SENS_TRIG_CTRL_ENABLE | SENS_TRIG_CTRL_POLARITY | SENS_TRIG_CTRL_HOLDING
  | SENS_TRIG_CTRL_WIDTH | SENS_TRIG_TIMING_PHASE | SENS_TRIG_TIMING_PERIOD | SENS_FUSION_CFG_ENABLE
  | SENS_FUSION_CFG_CONSIST_EN | SENS_FUSION_CFG_CONSIST_BUF | SENS_FUSION_CFG_RESULT_BUF
  | SENS_FUSION_PERIOD_PERIOD | SENS_FUSION_PHASE_PHASE | SENS_FUSION_GRID_CELL_PITCH | SENS_FUSION_GRID_FORMAT
  | SENS_FUSION_GRID_CHANNELS | SENS_FUSION_GRID_HEIGHT | SENS_FUSION_GRID_WIDTH | SENS_GROUP_MIN_STREAMS
  | SENS_GROUP_SECTORS | SENS_DEGRADE_CFG_HOLD | SENS_DEGRADE_CFG_CRIT_SECTORS | SENS_DEGRADE_CFG_MAX_BLIND
  | SENS_DEGRADE_STATUS_LOST_GROUPS | SENS_DEGRADE_STATUS_BLIND | SENS_DEGRADE_STATUS_SENSING_STEP
  | SENS_DEGRADE_STATUS_STEP | TIME_NOW_NOW | TIME_CFG_GPTP_EN | TIME_CFG_CB_EN | TIME_CFG_PORT_MASK
  | TIME_CFG_SYNC_TIMEOUT | TIME_CFG_HOLD_LIMIT | TIME_STATUS_OFFSET | TIME_STATUS_FREQ_ADJ | TIME_STATUS_STATE
  | PLAN_CFG_ENABLE | PLAN_CFG_KEEP_LIMIT | PLAN_CFG_MAX_WORLD_AGE | PLAN_CYCLE_SELECT_OFFSET | PLAN_CYCLE_PERIOD
  | PLAN_CYCLE_PHASE_PHASE | PLAN_MARKERS_FREE_MARKER | PLAN_MARKERS_PUBLISH_MARKER | PLAN_PROP_BUF_COUNT
  | PLAN_PROP_BUF_BUF3 | PLAN_PROP_BUF_BUF2 | PLAN_PROP_BUF_BUF1 | PLAN_PROP_BUF_BUF0 | PLAN_COST_W_W_YAW
  | PLAN_COST_W_W_SPEED | PLAN_STORE_BASE_BASE | PLAN_OUT_BASE_OFFSET | PLAN_STATUS_ACTIVE_EPOCH
  | PLAN_STATUS_KEEP_COUNT | PLAN_STATUS_WINNER_RUN | PLAN_STATUS_D4_REQUEST | PLAN_STATUS_BUF1_STATE
  | PLAN_STATUS_BUF0_STATE | PLAN_STATUS_LANES | PLAN_STAT_COUNT | PLAN_STAT_CLR_CLEAR | MEM_MASTER_MAP_PART
  | MEM_ECC_CFG_RETIRE_EN | MEM_ECC_CFG_CE_LIMIT | MEM_SPARE_CFG_BASE | MEM_SPARE_CFG_USED | MEM_SPARE_CFG_SLOTS
  | MEM_ADMIT_STATUS_SHED_COUNT | MEM_ADMIT_STATUS_HOT_HS1 | MEM_ADMIT_STATUS_HOT_HS0 | MEM_ADMIT_STATUS_IN_SERVICE
  | MEM_ADMIT_STATUS_L_SLOT | MEM_PART_CFG_LAT_LIMIT | MEM_PART_CFG_DEPTH | MEM_PART_CFG_CLASS
  | MEM_PART_CFG_DEADLINE_EN | MEM_PART_CFG_ENABLE | MEM_PART_CFG_PRIORITY | MEM_PART_RATE_MIN_RATE
  | MEM_PART_RATE_RATE | MEM_STALL_RATE_MIN_RATE | MEM_STALL_RATE_RATE | MEM_PART_STAT_DL_MISSES
  | MEM_PART_STAT_MAX_LAT | MEM_PART_STAT_CLR_CLEAR | MEM_WIN_BOOK_BYTES | MEM_PC_ECC_RETIRED | MEM_PC_ECC_UE
  | MEM_PC_ECC_CE | MEM_PAIR_CFG_ENABLE | MEM_PAIR_CFG_LOST_TIMEOUT | MEM_PAIR_CFG_BARRIER_TIMEOUT
  | MEM_PAIR_STATUS_OFFSET | MEM_PAIR_STATUS_RETRAINS | MEM_PAIR_STATUS_ADVISORY | MEM_PAIR_STATUS_PEER_ROLE
  | MEM_PAIR_STATUS_ROLE | MEM_PAIR_STATUS_STATE | MEM_PAIR_XFER_ENABLE | MEM_PAIR_XFER_REMOTE_BUF
  | MEM_PAIR_XFER_LOCAL_BUF | RING_CFG_ENABLE | RING_CFG_LOG2_ENTRIES | RING_CFG_VECTOR | RING_IRQ_COALESCE_TIME
  | RING_IRQ_COALESCE_COUNT | RING_SQ_BASE_BASE | RING_CQ_BASE_BASE | RING_HEAD_WB_ADDR | RING_HEAD_WB_EN
  | RING_STATUS_STATE | RING_STATUS_LAST_ERROR | RING_STATUS_FETCH_HEAD | HUB_CFG_MARKER_OWNER_FUNCTION
  | HUB_CFG_MARKER_VAL_VALUE | HUB_CFG_GAUGE_STATUS_LAST_CMD | HUB_CFG_GAUGE_STATUS_AGREE_COUNT
  | HUB_CFG_GAUGE_STATUS_LAST_TILE | HUB_CFG_GAUGE_STATUS_LAST_KIND | HUB_CFG_GAUGE_STATUS_JOINED
  | HUB_CFG_GAUGE_STATUS_STATE | HUB_CFG_GAUGE_FIRST_TIME_TIME | HUB_CFG_GAUGE_CNT_MISMATCHES
  | HUB_CFG_GAUGE_CLR_CLR_CNT | SAFE_STATUS_AUTH_SEQ | SAFE_STATUS_LAST_CODE | SAFE_STATUS_LAST_SEV
  | SAFE_STATUS_IN_COMMAND | SAFE_STATUS_MRM_REQUESTED | SAFE_STATUS_RESTARTING | SAFE_STATUS_CROSS_LINK_UP
  | SAFE_STATUS_WHB_ALIVE | SAFE_STATUS_WHA_ALIVE | SAFE_STATUS_COMMANDER | SAFE_STATUS_STEP
  | SAFE_STATUS_AUTHORITY | SAFE_ERRQ_STATUS_NOTES_BYPASSED | SAFE_ERRQ_STATUS_PREEMPTIONS
  | SAFE_ERRQ_STATUS_MAX_DEPTH | SAFE_ERRQ_STATUS_DEPTH | SAFE_RESTART_LAST_DURATION | SAFE_RESTART_TOTAL
  | SAFE_RESTART_IN_WINDOW | SAFE_RESTART_STATE | HUB_CFG_ERRLOG_BASE_BASE | HUB_CFG_ERRLOG_CFG_ENABLE
  | HUB_CFG_ERRLOG_CFG_LOG2_ENTRIES | HUB_CFG_ERRLOG_COUNT_COUNT | HUB_CFG_RETAIN_BASE_BASE
  | HUB_CFG_RETAIN_SIZE_MIB | HUB_CFG_SWATCH_CFG_ENABLE | HUB_CFG_SWATCH_STATUS_OLDEST_AGE
  | HUB_CFG_SWATCH_STATUS_OLDEST_TARGET | HUB_CFG_SWATCH_STATUS_RUNNING | HUB_CFG_SWATCH_STATUS_TARGETED
  | HUB_CFG_SWATCH_CNT_COUNT | HUB_CFG_SWATCH_CLR_CLEAR | HUB_CFG_INJECT_STATUS_LAST_CHECKER
  | HUB_CFG_INJECT_STATUS_FAILED | HUB_CFG_INJECT_STATUS_DONE | SEC_SCAN_STATUS_CLEARED | SEC_SCAN_STATUS_SERVICE
  | SEC_SCAN_STATUS_LAST_CODE | PWR_MODE_REQ_MODE | PWR_STATUS_BUDGET | PWR_STATUS_DEMAND | PWR_STATUS_SHED
  | PWR_STATUS_REASON | PWR_STATUS_FLOW_STOP | PWR_STATUS_COOLING_DEGRADED | PWR_STATUS_STEP | PWR_STATUS_MODE
  | PWR_DOMAINS_ON | PWR_PKG_LIMIT_LIMIT | PWR_THERM_CFG_THERM_LEVEL | PWR_THERM_CFG_TARGET | PWR_SENT_CFG_OFFSET
  | PWR_SENT_CFG_GAIN | PWR_COOLANT_LOST | PWR_COOLANT_FLOW | PWR_COOLANT_OUTLET | PWR_COOLANT_INLET
  | PWR_WAKE_CFG_ALARM | PWR_WAKE_CFG_POLARITY | PWR_WAKE_CFG_ENABLE | PWR_WAKE_CAUSE_VAON | PWR_WAKE_CAUSE_THERM
  | PWR_WAKE_CAUSE_ALARM | PWR_WAKE_CAUSE_PCIE | PWR_WAKE_CAUSE_PIN | PWR_WAKE_TARGET_ALARM_NM
  | PWR_WAKE_TARGET_PCIE_NM | PWR_WAKE_TARGET_PIN_NM | PWR_WEAR_STATUS_WEAR_AHEAD | PWR_WEAR_STATUS_END_OF_LIFE
  | PWR_WEAR_STATUS_ALLOWANCE | PWR_WEAR_STATUS_CONSUMED | SEC_LOCK_LOCK | SEC_BOOT_STATUS_LAST_CODE
  | SEC_BOOT_STATUS_IDENTITY_OK | SEC_BOOT_STATUS_CONFIG_VALID | SEC_BOOT_STATUS_RECOVERED
  | SEC_BOOT_STATUS_HOST_PRESENT | SEC_BOOT_STATUS_SAFE_ALONE | SEC_BOOT_STATUS_PAIR_ROLE
  | SEC_BOOT_STATUS_BOOT_SRC | SEC_VERSION_VERSION_FLOOR | SEC_VERSION_SECURITY_VERSION | SEC_XFER_ADDR_ADDR
  | SEC_XFER_CTRL_OP | SEC_XFER_CTRL_LENGTH | SEC_XFER_STATUS_STATE | SEC_XFER_STATUS_CODE | SEC_QUOTE_NONCE_NONCE
  | SEC_QUOTE_DEST_ADDR | SEC_QUOTE_CTRL_GO | SEC_QUOTE_CTRL_LOG | SEC_QUOTE_CTRL_DEVREC | SEC_QUOTE_CTRL_STALL
  | SEC_QUOTE_CTRL_SPACE | SEC_DEBUG_CHALLENGE_CHALLENGE | SEC_DEBUG_CTRL_SUBMIT | SEC_DEBUG_CTRL_WINDOW
  | SEC_DEBUG_MAILBOX_WORD | HUB_CFG_NM_CFG_DRAIN_GRACE | HUB_CFG_NM_STATUS_OPEN_STALLS
  | HUB_CFG_NM_STATUS_POWER_DECLARED | HUB_CFG_NM_STATUS_PHASE | HUB_CFG_STALL_CFG_ENABLE
  | HUB_CFG_STALL_CFG_QUARTERS | HUB_CFG_STALL_REGION_BASE | HUB_CFG_STALL_REGION_SIZE
  | HUB_CFG_STALL_REGION_POWER_W | HUB_CFG_STALL_STATUS_STATE | HUB_CFG_STALL_STATUS_LAST_CODE
  | HUB_CFG_STALL_STATUS_EVENTS | HUB_CFG_STALL_CNT_COUNT | HUB_CFG_ID_PART | HUB_CFG_ID_STEPPING
  | HUB_CFG_ID_MAP_VERSION | HUB_CFG_CFG_ERROR_COUNT | HUB_CFG_CFG_ERROR_FUNCTION | HUB_CFG_CFG_ERROR_OFFSET
  | HUB_CFG_CFG_ERROR_CODE | VF_INFO_PART | VF_INFO_STEPPING | VF_INFO_STALL | VF_MARKER_GROUPS_GROUPS
  | PCIE_LINK_STATUS_DOWN_COUNT | PCIE_LINK_STATUS_WIDTH | PCIE_LINK_STATUS_SPEED | PCIE_LINK_STATUS_UP
  | PCIE_FN_STATUS_ENABLED | PCIE_FN_STATUS_FLR_BUSY | PCIE_FN_STATUS_BUS_MASTER | PCIE_FN_STATUS_RINGS_ACTIVE
  | NET_MAC_CFG_ENABLE | NET_MAC_CFG_LINK | NET_MAC_CFG_SPEED | NET_MAC_CFG_MAX_FRAME | NET_MAC_ADDR_ADDR
  | NET_TC_MAP_PCP_TC | NET_MAC_CNT_COUNT | NET_CNT_CLR_CLEAR | NET_QBV_CTRL_GATE_EN | NET_QBV_CTRL_CHANGE
  | NET_QBV_CTRL_PENDING | NET_QBV_CTRL_OPER_VALID | NET_QBV_CTRL_ADMIN_LEN | NET_QBV_BASE_ADMIN_BASE_TIME
  | NET_QBV_CYCLE_ADMIN_CYCLE | NET_QBV_GCL_GATES | NET_QBV_GCL_INTERVAL | NET_QAV_EN | NET_QAV_IDLE_SLOPE
  | NET_CAN_STATUS_STATE | NET_CAN_STATUS_TEC | NET_CAN_STATUS_REC | PWR_RAIL_VALID | PWR_RAIL_IOUT | PWR_RAIL_VOUT
  | CD_PURL_STATUS_RING_UP | CD_PURL_STATUS_HUB_UP | CD_PURL_RETRY_COUNT | CD_PURL_CLR_CLEAR
  | HUB_CFG_PURL_WH_RETRY_COUNT | HUB_CFG_PURL_WH_STATUS_CLEAR | HUB_CFG_PURL_WH_STATUS_WHB_UP
  | HUB_CFG_PURL_WH_STATUS_WHA_UP | MSIX_TABLE_WORD | MSIX_PBA_WORD
deriving DecidableEq, Repr

/-- A field's row of its register's table: bits [msb:lsb], access type, reset value. -/
structure FieldSpec where
  msb : Nat
  lsb : Nat
  access : Access
  reset : Nat
deriving DecidableEq, Repr

/-- The rows of the field tables. A reset value that the table gives by a rule, by a strap or from a record is 0 here
and is given by `Fld.resetAt`. -/
def Fld.spec : Fld → FieldSpec
  | .HUB_CFG_BEAT_COUNT_BEAT => ⟨63, 0, .ro, 0⟩
  | .HUB_CFG_TALLY_SEL_SOURCE => ⟨23, 8, .rw, 65535⟩
  | .HUB_CFG_TALLY_SEL_CAUSE => ⟨7, 0, .rw, 0⟩
  | .HUB_CFG_TALLY_CNT_COUNT => ⟨47, 0, .ro, 0⟩
  | .HUB_CFG_TALLY_CLR_CLEAR => ⟨63, 0, .wo, 0⟩
  | .CD_TILE_MAP_ROW_REPAIRS => ⟨15, 8, .ro, 0⟩
  | .CD_TILE_MAP_PHYS => ⟨5, 0, .ro, 0⟩
  | .CD_TILE_STATE_PENDING_PHYS => ⟨21, 16, .ro, 0⟩
  | .CD_TILE_STATE_REPAIR_PENDING => ⟨8, 8, .ro, 0⟩
  | .CD_TILE_STATE_SPARES_LEFT => ⟨1, 0, .ro, 0⟩
  | .CD_RERUN_COUNT_COUNT => ⟨47, 0, .ro, 0⟩
  | .CD_NAN_COUNT_COUNT => ⟨47, 0, .ro, 0⟩
  | .CD_QCNT_CLR_CLR_NAN => ⟨1, 1, .wo, 0⟩
  | .CD_QCNT_CLR_CLR_RERUN => ⟨0, 0, .wo, 0⟩
  | .CD_ENG_CENTRE_ONLY_COUNT => ⟨47, 0, .ro, 0⟩
  | .CD_ENG_STEM_CLIP_COUNT => ⟨47, 0, .ro, 0⟩
  | .CD_ENG_CNT_CLR_CLR_STEM_CLIP => ⟨1, 1, .wo, 0⟩
  | .CD_ENG_CNT_CLR_CLR_CENTRE_ONLY => ⟨0, 0, .wo, 0⟩
  | .CD_KV_STARVE_COUNT_COUNT => ⟨47, 0, .ro, 0⟩
  | .CD_KV_DROPPED_PAGES_COUNT => ⟨47, 0, .ro, 0⟩
  | .CD_KV_CNT_CLR_CLR_DROPPED => ⟨1, 1, .wo, 0⟩
  | .CD_KV_CNT_CLR_CLR_STARVE => ⟨0, 0, .wo, 0⟩
  | .SENS_STREAM_CTX_ENABLE => ⟨31, 31, .rw, 0⟩
  | .SENS_STREAM_CTX_KIND => ⟨30, 30, .rw, 0⟩
  | .SENS_STREAM_CTX_TS_SRC => ⟨29, 29, .rw, 0⟩
  | .SENS_STREAM_CTX_FRAME_NUM => ⟨28, 28, .rw, 0⟩
  | .SENS_STREAM_CTX_PORT => ⟨27, 24, .rw, 0⟩
  | .SENS_STREAM_CTX_VC => ⟨23, 20, .rw, 0⟩
  | .SENS_STREAM_CTX_DT => ⟨19, 14, .rw, 0⟩
  | .SENS_STREAM_CTX_TRIGGER => ⟨13, 9, .rw, 0⟩
  | .SENS_STREAM_CTX_GROUP => ⟨8, 5, .rw, 0⟩
  | .SENS_STREAM_PARAM_CONSIST_THR => ⟨31, 16, .rw, 0⟩
  | .SENS_STREAM_PARAM_LOST_PERIODS => ⟨15, 12, .rw, 3⟩
  | .SENS_STREAM_PARAM_BUFFER_ID => ⟨9, 0, .rw, 0⟩
  | .SENS_STREAM_DELAY_EXPECT_DELAY => ⟨31, 0, .rw, 0⟩
  | .SENS_STREAM_LIMITS_PKTS_PER_FRAME => ⟨31, 16, .rw, 0⟩
  | .SENS_STREAM_LIMITS_ALIGN_TOL => ⟨15, 0, .rw, 500⟩
  | .SENS_STREAM_MATCH_VLAN_ID => ⟨27, 16, .rw, 0⟩
  | .SENS_STREAM_MATCH_UDP_PORT => ⟨15, 0, .rw, 0⟩
  | .SENS_STREAM_TSOFF_TS_OFFSET => ⟨15, 0, .rw, 0⟩
  | .SENS_STREAM_SLOT_SIZE_SIZE => ⟨24, 0, .rw, 0⟩
  | .SENS_STREAM_SLOT_BASE_BASE => ⟨63, 12, .rw, 0⟩
  | .SENS_STREAM_STATUS_LAST_CAUSE => ⟨27, 16, .ro, 0⟩
  | .SENS_STREAM_STATUS_RUN => ⟨15, 8, .ro, 0⟩
  | .SENS_STREAM_STATUS_STATE => ⟨2, 0, .ro, 2⟩
  | .SENS_STREAM_LATE_DROPS_COUNT => ⟨47, 0, .ro, 0⟩
  | .SENS_STREAM_FAULTS_MISSED => ⟨47, 32, .ro, 0⟩
  | .SENS_STREAM_FAULTS_MISALIGNED => ⟨31, 16, .ro, 0⟩
  | .SENS_STREAM_FAULTS_PLAUS_FAIL => ⟨15, 0, .ro, 0⟩
  | .SENS_CNT_CLR_CLR_FAULTS => ⟨9, 9, .wo, 0⟩
  | .SENS_CNT_CLR_CLR_LATE => ⟨8, 8, .wo, 0⟩
  | .SENS_CNT_CLR_CTX => ⟨6, 0, .wo, 0⟩
  | .SENS_TRIG_CTRL_ENABLE => ⟨31, 31, .rw, 0⟩
  | .SENS_TRIG_CTRL_POLARITY => ⟨30, 30, .rw, 0⟩
  | .SENS_TRIG_CTRL_HOLDING => ⟨29, 29, .ro, 0⟩
  | .SENS_TRIG_CTRL_WIDTH => ⟨23, 0, .rw, 1000⟩
  | .SENS_TRIG_TIMING_PHASE => ⟨63, 32, .rw, 0⟩
  | .SENS_TRIG_TIMING_PERIOD => ⟨31, 0, .rw, 0⟩
  | .SENS_FUSION_CFG_ENABLE => ⟨31, 31, .rw, 0⟩
  | .SENS_FUSION_CFG_CONSIST_EN => ⟨20, 20, .rw, 0⟩
  | .SENS_FUSION_CFG_CONSIST_BUF => ⟨19, 10, .rw, 0⟩
  | .SENS_FUSION_CFG_RESULT_BUF => ⟨9, 0, .rw, 0⟩
  | .SENS_FUSION_PERIOD_PERIOD => ⟨31, 0, .rw, 33333333⟩
  | .SENS_FUSION_PHASE_PHASE => ⟨63, 0, .rw, 0⟩
  | .SENS_FUSION_GRID_CELL_PITCH => ⟨59, 40, .rw, 200000⟩
  | .SENS_FUSION_GRID_FORMAT => ⟨35, 32, .rw, 3⟩
  | .SENS_FUSION_GRID_CHANNELS => ⟨30, 22, .rw, 256⟩
  | .SENS_FUSION_GRID_HEIGHT => ⟨21, 11, .rw, 512⟩
  | .SENS_FUSION_GRID_WIDTH => ⟨10, 0, .rw, 512⟩
  | .SENS_GROUP_MIN_STREAMS => ⟨12, 8, .rw, 1⟩
  | .SENS_GROUP_SECTORS => ⟨7, 0, .rw, 0⟩
  | .SENS_DEGRADE_CFG_HOLD => ⟨23, 16, .rw, 16⟩
  | .SENS_DEGRADE_CFG_CRIT_SECTORS => ⟨15, 8, .rw, 1⟩
  | .SENS_DEGRADE_CFG_MAX_BLIND => ⟨2, 0, .rw, 1⟩
  | .SENS_DEGRADE_STATUS_LOST_GROUPS => ⟨31, 16, .ro, 0⟩
  | .SENS_DEGRADE_STATUS_BLIND => ⟨15, 8, .ro, 0⟩
  | .SENS_DEGRADE_STATUS_SENSING_STEP => ⟨6, 4, .ro, 0⟩
  | .SENS_DEGRADE_STATUS_STEP => ⟨2, 0, .ro, 0⟩
  | .TIME_NOW_NOW => ⟨63, 0, .ro, 0⟩
  | .TIME_CFG_GPTP_EN => ⟨31, 31, .rw, 0⟩
  | .TIME_CFG_CB_EN => ⟨30, 30, .rw, 0⟩
  | .TIME_CFG_PORT_MASK => ⟨29, 24, .rw, 0⟩
  | .TIME_CFG_SYNC_TIMEOUT => ⟨23, 20, .rw, 3⟩
  | .TIME_CFG_HOLD_LIMIT => ⟨15, 0, .rw, 10⟩
  | .TIME_STATUS_OFFSET => ⟨63, 32, .ro, 0⟩
  | .TIME_STATUS_FREQ_ADJ => ⟨31, 16, .ro, 0⟩
  | .TIME_STATUS_STATE => ⟨1, 0, .ro, 0⟩
  | .PLAN_CFG_ENABLE => ⟨31, 31, .rw, 0⟩
  | .PLAN_CFG_KEEP_LIMIT => ⟨23, 16, .rw, 3⟩
  | .PLAN_CFG_MAX_WORLD_AGE => ⟨15, 0, .rw, 200⟩
  | .PLAN_CYCLE_SELECT_OFFSET => ⟨63, 32, .rw, 19500⟩
  | .PLAN_CYCLE_PERIOD => ⟨31, 0, .rw, 20000⟩
  | .PLAN_CYCLE_PHASE_PHASE => ⟨63, 0, .rw, 0⟩
  | .PLAN_MARKERS_FREE_MARKER => ⟨28, 16, .rw, 0⟩
  | .PLAN_MARKERS_PUBLISH_MARKER => ⟨12, 0, .rw, 0⟩
  | .PLAN_PROP_BUF_COUNT => ⟨42, 40, .rw, 0⟩
  | .PLAN_PROP_BUF_BUF3 => ⟨39, 30, .rw, 0⟩
  | .PLAN_PROP_BUF_BUF2 => ⟨29, 20, .rw, 0⟩
  | .PLAN_PROP_BUF_BUF1 => ⟨19, 10, .rw, 0⟩
  | .PLAN_PROP_BUF_BUF0 => ⟨9, 0, .rw, 0⟩
  | .PLAN_COST_W_W_YAW => ⟨63, 32, .rw, 0⟩
  | .PLAN_COST_W_W_SPEED => ⟨31, 0, .rw, 0⟩
  | .PLAN_STORE_BASE_BASE => ⟨63, 12, .rw, 0⟩
  | .PLAN_OUT_BASE_OFFSET => ⟨25, 8, .rw, 0⟩
  | .PLAN_STATUS_ACTIVE_EPOCH => ⟨63, 32, .ro, 0⟩
  | .PLAN_STATUS_KEEP_COUNT => ⟨31, 24, .ro, 0⟩
  | .PLAN_STATUS_WINNER_RUN => ⟨23, 16, .ro, 0⟩
  | .PLAN_STATUS_D4_REQUEST => ⟨15, 15, .ro, 0⟩
  | .PLAN_STATUS_BUF1_STATE => ⟨11, 10, .ro, 0⟩
  | .PLAN_STATUS_BUF0_STATE => ⟨9, 8, .ro, 0⟩
  | .PLAN_STATUS_LANES => ⟨6, 0, .ro, 64⟩
  | .PLAN_STAT_COUNT => ⟨47, 0, .ro, 0⟩
  | .PLAN_STAT_CLR_CLEAR => ⟨7, 0, .wo, 0⟩
  | .MEM_MASTER_MAP_PART => ⟨47, 0, .rw, 0⟩
  | .MEM_ECC_CFG_RETIRE_EN => ⟨31, 31, .rw, 1⟩
  | .MEM_ECC_CFG_CE_LIMIT => ⟨15, 0, .rw, 1000⟩
  | .MEM_SPARE_CFG_BASE => ⟨63, 30, .rwl, 0⟩
  | .MEM_SPARE_CFG_USED => ⟨3, 2, .ro, 0⟩
  | .MEM_SPARE_CFG_SLOTS => ⟨1, 0, .rwl, 0⟩
  | .MEM_ADMIT_STATUS_SHED_COUNT => ⟨55, 48, .ro, 0⟩
  | .MEM_ADMIT_STATUS_HOT_HS1 => ⟨41, 41, .ro, 0⟩
  | .MEM_ADMIT_STATUS_HOT_HS0 => ⟨40, 40, .ro, 0⟩
  | .MEM_ADMIT_STATUS_IN_SERVICE => ⟨39, 32, .ro, 64⟩
  | .MEM_ADMIT_STATUS_L_SLOT => ⟨17, 0, .ro, 222822⟩
  | .MEM_PART_CFG_LAT_LIMIT => ⟨63, 48, .rw, 0⟩
  | .MEM_PART_CFG_DEPTH => ⟨47, 24, .rw, 65536⟩
  | .MEM_PART_CFG_CLASS => ⟨7, 6, .rw, 1⟩
  | .MEM_PART_CFG_DEADLINE_EN => ⟨5, 5, .rw, 0⟩
  | .MEM_PART_CFG_ENABLE => ⟨4, 4, .rw, 0⟩
  | .MEM_PART_CFG_PRIORITY => ⟨2, 0, .rw, 0⟩
  | .MEM_PART_RATE_MIN_RATE => ⟨55, 32, .rw, 0⟩
  | .MEM_PART_RATE_RATE => ⟨23, 0, .rw, 16777215⟩
  | .MEM_STALL_RATE_MIN_RATE => ⟨55, 32, .rw, 0⟩
  | .MEM_STALL_RATE_RATE => ⟨23, 0, .rw, 0⟩
  | .MEM_PART_STAT_DL_MISSES => ⟨63, 40, .ro, 0⟩
  | .MEM_PART_STAT_MAX_LAT => ⟨31, 0, .ro, 0⟩
  | .MEM_PART_STAT_CLR_CLEAR => ⟨15, 0, .wo, 0⟩
  | .MEM_WIN_BOOK_BYTES => ⟨17, 0, .ro, 0⟩
  | .MEM_PC_ECC_RETIRED => ⟨63, 63, .ro, 0⟩
  | .MEM_PC_ECC_UE => ⟨55, 40, .ro, 0⟩
  | .MEM_PC_ECC_CE => ⟨39, 0, .ro, 0⟩
  | .MEM_PAIR_CFG_ENABLE => ⟨31, 31, .rw, 0⟩
  | .MEM_PAIR_CFG_LOST_TIMEOUT => ⟨23, 16, .rw, 20⟩
  | .MEM_PAIR_CFG_BARRIER_TIMEOUT => ⟨15, 0, .rw, 1000⟩
  | .MEM_PAIR_STATUS_OFFSET => ⟨63, 32, .ro, 0⟩
  | .MEM_PAIR_STATUS_RETRAINS => ⟨31, 16, .ro, 0⟩
  | .MEM_PAIR_STATUS_ADVISORY => ⟨6, 6, .ro, 0⟩
  | .MEM_PAIR_STATUS_PEER_ROLE => ⟨5, 5, .ro, 0⟩
  | .MEM_PAIR_STATUS_ROLE => ⟨4, 4, .ro, 0⟩
  | .MEM_PAIR_STATUS_STATE => ⟨2, 0, .ro, 0⟩
  | .MEM_PAIR_XFER_ENABLE => ⟨31, 31, .rw, 0⟩
  | .MEM_PAIR_XFER_REMOTE_BUF => ⟨19, 10, .rw, 0⟩
  | .MEM_PAIR_XFER_LOCAL_BUF => ⟨9, 0, .rw, 0⟩
  | .RING_CFG_ENABLE => ⟨31, 31, .rw, 0⟩
  | .RING_CFG_LOG2_ENTRIES => ⟨20, 16, .rw, 6⟩
  | .RING_CFG_VECTOR => ⟨10, 0, .rw, 1⟩
  | .RING_IRQ_COALESCE_TIME => ⟨31, 16, .rw, 0⟩
  | .RING_IRQ_COALESCE_COUNT => ⟨15, 0, .rw, 1⟩
  | .RING_SQ_BASE_BASE => ⟨63, 12, .rw, 0⟩
  | .RING_CQ_BASE_BASE => ⟨63, 12, .rw, 0⟩
  | .RING_HEAD_WB_ADDR => ⟨63, 2, .rw, 0⟩
  | .RING_HEAD_WB_EN => ⟨0, 0, .rw, 0⟩
  | .RING_STATUS_STATE => ⟨31, 30, .ro, 0⟩
  | .RING_STATUS_LAST_ERROR => ⟨27, 16, .ro, 0⟩
  | .RING_STATUS_FETCH_HEAD => ⟨15, 0, .ro, 0⟩
  | .HUB_CFG_MARKER_OWNER_FUNCTION => ⟨4, 0, .rw, 0⟩
  | .HUB_CFG_MARKER_VAL_VALUE => ⟨31, 0, .ro, 0⟩
  | .HUB_CFG_GAUGE_STATUS_LAST_CMD => ⟨47, 32, .ro, 0⟩
  | .HUB_CFG_GAUGE_STATUS_AGREE_COUNT => ⟨31, 24, .ro, 0⟩
  | .HUB_CFG_GAUGE_STATUS_LAST_TILE => ⟨23, 16, .ro, 0⟩
  | .HUB_CFG_GAUGE_STATUS_LAST_KIND => ⟨11, 8, .ro, 0⟩
  | .HUB_CFG_GAUGE_STATUS_JOINED => ⟨5, 3, .ro, 7⟩
  | .HUB_CFG_GAUGE_STATUS_STATE => ⟨2, 0, .ro, 0⟩
  | .HUB_CFG_GAUGE_FIRST_TIME_TIME => ⟨63, 0, .ro, 0⟩
  | .HUB_CFG_GAUGE_CNT_MISMATCHES => ⟨47, 0, .ro, 0⟩
  | .HUB_CFG_GAUGE_CLR_CLR_CNT => ⟨0, 0, .wo, 0⟩
  | .SAFE_STATUS_AUTH_SEQ => ⟨63, 48, .ro, 0⟩
  | .SAFE_STATUS_LAST_CODE => ⟨47, 36, .ro, 0⟩
  | .SAFE_STATUS_LAST_SEV => ⟨35, 34, .ro, 0⟩
  | .SAFE_STATUS_IN_COMMAND => ⟨23, 23, .ro, 0⟩
  | .SAFE_STATUS_MRM_REQUESTED => ⟨22, 22, .ro, 0⟩
  | .SAFE_STATUS_RESTARTING => ⟨21, 21, .ro, 0⟩
  | .SAFE_STATUS_CROSS_LINK_UP => ⟨20, 20, .ro, 0⟩
  | .SAFE_STATUS_WHB_ALIVE => ⟨19, 19, .ro, 0⟩
  | .SAFE_STATUS_WHA_ALIVE => ⟨18, 18, .ro, 0⟩
  | .SAFE_STATUS_COMMANDER => ⟨17, 16, .ro, 0⟩
  | .SAFE_STATUS_STEP => ⟨10, 8, .ro, 0⟩
  | .SAFE_STATUS_AUTHORITY => ⟨1, 0, .ro, 0⟩
  | .SAFE_ERRQ_STATUS_NOTES_BYPASSED => ⟨63, 48, .ro, 0⟩
  | .SAFE_ERRQ_STATUS_PREEMPTIONS => ⟨47, 32, .ro, 0⟩
  | .SAFE_ERRQ_STATUS_MAX_DEPTH => ⟨23, 16, .ro, 0⟩
  | .SAFE_ERRQ_STATUS_DEPTH => ⟨6, 0, .ro, 0⟩
  | .SAFE_RESTART_LAST_DURATION => ⟨63, 32, .ro, 0⟩
  | .SAFE_RESTART_TOTAL => ⟨31, 16, .ro, 0⟩
  | .SAFE_RESTART_IN_WINDOW => ⟨7, 4, .ro, 0⟩
  | .SAFE_RESTART_STATE => ⟨1, 0, .ro, 0⟩
  | .HUB_CFG_ERRLOG_BASE_BASE => ⟨63, 12, .rw, 0⟩
  | .HUB_CFG_ERRLOG_CFG_ENABLE => ⟨31, 31, .rw, 0⟩
  | .HUB_CFG_ERRLOG_CFG_LOG2_ENTRIES => ⟨20, 16, .rw, 8⟩
  | .HUB_CFG_ERRLOG_COUNT_COUNT => ⟨63, 0, .ro, 0⟩
  | .HUB_CFG_RETAIN_BASE_BASE => ⟨63, 12, .rwl, 0⟩
  | .HUB_CFG_RETAIN_SIZE_MIB => ⟨15, 0, .rwl, 0⟩
  | .HUB_CFG_SWATCH_CFG_ENABLE => ⟨31, 31, .rw, 1⟩
  | .HUB_CFG_SWATCH_STATUS_OLDEST_AGE => ⟨63, 32, .ro, 0⟩
  | .HUB_CFG_SWATCH_STATUS_OLDEST_TARGET => ⟨31, 16, .ro, 0⟩
  | .HUB_CFG_SWATCH_STATUS_RUNNING => ⟨15, 8, .ro, 0⟩
  | .HUB_CFG_SWATCH_STATUS_TARGETED => ⟨7, 0, .ro, 0⟩
  | .HUB_CFG_SWATCH_CNT_COUNT => ⟨47, 0, .ro, 0⟩
  | .HUB_CFG_SWATCH_CLR_CLEAR => ⟨3, 0, .wo, 0⟩
  | .HUB_CFG_INJECT_STATUS_LAST_CHECKER => ⟨47, 32, .ro, 0⟩
  | .HUB_CFG_INJECT_STATUS_FAILED => ⟨31, 16, .ro, 0⟩
  | .HUB_CFG_INJECT_STATUS_DONE => ⟨0, 0, .ro, 0⟩
  | .SEC_SCAN_STATUS_CLEARED => ⟨31, 31, .ro, 0⟩
  | .SEC_SCAN_STATUS_SERVICE => ⟨30, 30, .ro, 0⟩
  | .SEC_SCAN_STATUS_LAST_CODE => ⟨11, 0, .ro, 0⟩
  | .PWR_MODE_REQ_MODE => ⟨1, 0, .wo, 0⟩
  | .PWR_STATUS_BUDGET => ⟨63, 48, .ro, 0⟩
  | .PWR_STATUS_DEMAND => ⟨47, 32, .ro, 0⟩
  | .PWR_STATUS_SHED => ⟨31, 24, .ro, 0⟩
  | .PWR_STATUS_REASON => ⟨18, 16, .ro, 0⟩
  | .PWR_STATUS_FLOW_STOP => ⟨12, 12, .ro, 0⟩
  | .PWR_STATUS_COOLING_DEGRADED => ⟨11, 11, .ro, 0⟩
  | .PWR_STATUS_STEP => ⟨10, 8, .ro, 4⟩
  | .PWR_STATUS_MODE => ⟨1, 0, .ro, 0⟩
  | .PWR_DOMAINS_ON => ⟨43, 0, .ro, 0⟩
  | .PWR_PKG_LIMIT_LIMIT => ⟨8, 0, .rwl, 380⟩
  | .PWR_THERM_CFG_THERM_LEVEL => ⟨31, 16, .rw, 32768⟩
  | .PWR_THERM_CFG_TARGET => ⟨6, 0, .rw, 105⟩
  | .PWR_SENT_CFG_OFFSET => ⟨63, 32, .rw, 0⟩
  | .PWR_SENT_CFG_GAIN => ⟨31, 0, .rw, 0⟩
  | .PWR_COOLANT_LOST => ⟨59, 57, .ro, 0⟩
  | .PWR_COOLANT_FLOW => ⟨47, 32, .ro, 0⟩
  | .PWR_COOLANT_OUTLET => ⟨31, 16, .ro, 0⟩
  | .PWR_COOLANT_INLET => ⟨15, 0, .ro, 0⟩
  | .PWR_WAKE_CFG_ALARM => ⟨63, 8, .rw, 0⟩
  | .PWR_WAKE_CFG_POLARITY => ⟨7, 4, .rw, 0⟩
  | .PWR_WAKE_CFG_ENABLE => ⟨3, 0, .rw, 0⟩
  | .PWR_WAKE_CAUSE_VAON => ⟨7, 7, .w1c, 0⟩
  | .PWR_WAKE_CAUSE_THERM => ⟨6, 6, .w1c, 0⟩
  | .PWR_WAKE_CAUSE_ALARM => ⟨5, 5, .w1c, 0⟩
  | .PWR_WAKE_CAUSE_PCIE => ⟨4, 4, .w1c, 0⟩
  | .PWR_WAKE_CAUSE_PIN => ⟨3, 0, .w1c, 0⟩
  | .PWR_WAKE_TARGET_ALARM_NM => ⟨5, 5, .rw, 0⟩
  | .PWR_WAKE_TARGET_PCIE_NM => ⟨4, 4, .rw, 0⟩
  | .PWR_WAKE_TARGET_PIN_NM => ⟨3, 0, .rw, 0⟩
  | .PWR_WEAR_STATUS_WEAR_AHEAD => ⟨63, 63, .ro, 0⟩
  | .PWR_WEAR_STATUS_END_OF_LIFE => ⟨62, 62, .ro, 0⟩
  | .PWR_WEAR_STATUS_ALLOWANCE => ⟨51, 32, .ro, 20000⟩
  | .PWR_WEAR_STATUS_CONSUMED => ⟨19, 0, .ro, 0⟩
  | .SEC_LOCK_LOCK => ⟨0, 0, .rwl, 0⟩
  | .SEC_BOOT_STATUS_LAST_CODE => ⟨31, 20, .ro, 0⟩
  | .SEC_BOOT_STATUS_IDENTITY_OK => ⟨10, 10, .ro, 0⟩
  | .SEC_BOOT_STATUS_CONFIG_VALID => ⟨9, 9, .ro, 0⟩
  | .SEC_BOOT_STATUS_RECOVERED => ⟨8, 8, .ro, 0⟩
  | .SEC_BOOT_STATUS_HOST_PRESENT => ⟨4, 4, .ro, 0⟩
  | .SEC_BOOT_STATUS_SAFE_ALONE => ⟨3, 3, .ro, 0⟩
  | .SEC_BOOT_STATUS_PAIR_ROLE => ⟨2, 2, .ro, 0⟩
  | .SEC_BOOT_STATUS_BOOT_SRC => ⟨1, 0, .ro, 0⟩
  | .SEC_VERSION_VERSION_FLOOR => ⟨63, 32, .ro, 0⟩
  | .SEC_VERSION_SECURITY_VERSION => ⟨31, 0, .ro, 0⟩
  | .SEC_XFER_ADDR_ADDR => ⟨63, 8, .rw, 0⟩
  | .SEC_XFER_CTRL_OP => ⟨31, 28, .wo, 0⟩
  | .SEC_XFER_CTRL_LENGTH => ⟨23, 0, .wo, 0⟩
  | .SEC_XFER_STATUS_STATE => ⟨31, 29, .ro, 0⟩
  | .SEC_XFER_STATUS_CODE => ⟨11, 0, .ro, 0⟩
  | .SEC_QUOTE_NONCE_NONCE => ⟨63, 0, .rw, 0⟩
  | .SEC_QUOTE_DEST_ADDR => ⟨63, 12, .rw, 0⟩
  | .SEC_QUOTE_CTRL_GO => ⟨31, 31, .wo, 0⟩
  | .SEC_QUOTE_CTRL_LOG => ⟨30, 30, .rw, 0⟩
  | .SEC_QUOTE_CTRL_DEVREC => ⟨29, 29, .rw, 0⟩
  | .SEC_QUOTE_CTRL_STALL => ⟨28, 24, .rw, 0⟩
  | .SEC_QUOTE_CTRL_SPACE => ⟨19, 0, .rw, 0⟩
  | .SEC_DEBUG_CHALLENGE_CHALLENGE => ⟨63, 0, .ro, 0⟩
  | .SEC_DEBUG_CTRL_SUBMIT => ⟨31, 31, .wo, 0⟩
  | .SEC_DEBUG_CTRL_WINDOW => ⟨30, 30, .ro, 0⟩
  | .SEC_DEBUG_MAILBOX_WORD => ⟨31, 0, .rw, 0⟩
  | .HUB_CFG_NM_CFG_DRAIN_GRACE => ⟨10, 0, .rw, 1000⟩
  | .HUB_CFG_NM_STATUS_OPEN_STALLS => ⟨63, 32, .ro, 0⟩
  | .HUB_CFG_NM_STATUS_POWER_DECLARED => ⟨23, 16, .ro, 0⟩
  | .HUB_CFG_NM_STATUS_PHASE => ⟨2, 0, .ro, 0⟩
  | .HUB_CFG_STALL_CFG_ENABLE => ⟨31, 31, .rw, 0⟩
  | .HUB_CFG_STALL_CFG_QUARTERS => ⟨23, 0, .rw, 0⟩
  | .HUB_CFG_STALL_REGION_BASE => ⟨47, 26, .rw, 0⟩
  | .HUB_CFG_STALL_REGION_SIZE => ⟨25, 16, .rw, 0⟩
  | .HUB_CFG_STALL_REGION_POWER_W => ⟨15, 8, .rw, 0⟩
  | .HUB_CFG_STALL_STATUS_STATE => ⟨31, 29, .ro, 0⟩
  | .HUB_CFG_STALL_STATUS_LAST_CODE => ⟨23, 12, .ro, 0⟩
  | .HUB_CFG_STALL_STATUS_EVENTS => ⟨4, 0, .w1c, 0⟩
  | .HUB_CFG_STALL_CNT_COUNT => ⟨47, 0, .ro, 0⟩
  | .HUB_CFG_ID_PART => ⟨31, 16, .ro, 2214⟩
  | .HUB_CFG_ID_STEPPING => ⟨15, 8, .ro, 0⟩
  | .HUB_CFG_ID_MAP_VERSION => ⟨7, 0, .ro, 1⟩
  | .HUB_CFG_CFG_ERROR_COUNT => ⟨63, 48, .ro, 0⟩
  | .HUB_CFG_CFG_ERROR_FUNCTION => ⟨47, 43, .ro, 0⟩
  | .HUB_CFG_CFG_ERROR_OFFSET => ⟨37, 12, .ro, 0⟩
  | .HUB_CFG_CFG_ERROR_CODE => ⟨11, 0, .ro, 0⟩
  | .VF_INFO_PART => ⟨31, 16, .ro, 2214⟩
  | .VF_INFO_STEPPING => ⟨15, 8, .ro, 0⟩
  | .VF_INFO_STALL => ⟨4, 0, .ro, 0⟩
  | .VF_MARKER_GROUPS_GROUPS => ⟨63, 0, .ro, 0⟩
  | .PCIE_LINK_STATUS_DOWN_COUNT => ⟨63, 48, .ro, 0⟩
  | .PCIE_LINK_STATUS_WIDTH => ⟨11, 8, .ro, 0⟩
  | .PCIE_LINK_STATUS_SPEED => ⟨7, 4, .ro, 0⟩
  | .PCIE_LINK_STATUS_UP => ⟨0, 0, .ro, 0⟩
  | .PCIE_FN_STATUS_ENABLED => ⟨31, 31, .ro, 0⟩
  | .PCIE_FN_STATUS_FLR_BUSY => ⟨30, 30, .ro, 0⟩
  | .PCIE_FN_STATUS_BUS_MASTER => ⟨29, 29, .ro, 0⟩
  | .PCIE_FN_STATUS_RINGS_ACTIVE => ⟨8, 0, .ro, 0⟩
  | .NET_MAC_CFG_ENABLE => ⟨31, 31, .rw, 0⟩
  | .NET_MAC_CFG_LINK => ⟨30, 30, .ro, 0⟩
  | .NET_MAC_CFG_SPEED => ⟨29, 28, .rw, 0⟩
  | .NET_MAC_CFG_MAX_FRAME => ⟨13, 0, .rw, 9216⟩
  | .NET_MAC_ADDR_ADDR => ⟨47, 0, .rw, 0⟩
  | .NET_TC_MAP_PCP_TC => ⟨23, 0, .rw, 16434824⟩
  | .NET_MAC_CNT_COUNT => ⟨47, 0, .ro, 0⟩
  | .NET_CNT_CLR_CLEAR => ⟨29, 0, .wo, 0⟩
  | .NET_QBV_CTRL_GATE_EN => ⟨31, 31, .rw, 0⟩
  | .NET_QBV_CTRL_CHANGE => ⟨30, 30, .wo, 0⟩
  | .NET_QBV_CTRL_PENDING => ⟨29, 29, .ro, 0⟩
  | .NET_QBV_CTRL_OPER_VALID => ⟨28, 28, .ro, 0⟩
  | .NET_QBV_CTRL_ADMIN_LEN => ⟨8, 0, .rw, 1⟩
  | .NET_QBV_BASE_ADMIN_BASE_TIME => ⟨63, 0, .rw, 0⟩
  | .NET_QBV_CYCLE_ADMIN_CYCLE => ⟨31, 0, .rw, 1000000⟩
  | .NET_QBV_GCL_GATES => ⟨31, 24, .rw, 255⟩
  | .NET_QBV_GCL_INTERVAL => ⟨23, 0, .rw, 1000000⟩
  | .NET_QAV_EN => ⟨31, 31, .rw, 0⟩
  | .NET_QAV_IDLE_SLOPE => ⟨30, 0, .rw, 0⟩
  | .NET_CAN_STATUS_STATE => ⟨31, 30, .ro, 0⟩
  | .NET_CAN_STATUS_TEC => ⟨23, 16, .ro, 0⟩
  | .NET_CAN_STATUS_REC => ⟨15, 8, .ro, 0⟩
  | .PWR_RAIL_VALID => ⟨63, 63, .ro, 0⟩
  | .PWR_RAIL_IOUT => ⟨47, 32, .ro, 0⟩
  | .PWR_RAIL_VOUT => ⟨15, 0, .ro, 0⟩
  | .CD_PURL_STATUS_RING_UP => ⟨1, 1, .ro, 0⟩
  | .CD_PURL_STATUS_HUB_UP => ⟨0, 0, .ro, 0⟩
  | .CD_PURL_RETRY_COUNT => ⟨47, 0, .ro, 0⟩
  | .CD_PURL_CLR_CLEAR => ⟨1, 0, .wo, 0⟩
  | .HUB_CFG_PURL_WH_RETRY_COUNT => ⟨47, 0, .ro, 0⟩
  | .HUB_CFG_PURL_WH_STATUS_CLEAR => ⟨9, 8, .wo, 0⟩
  | .HUB_CFG_PURL_WH_STATUS_WHB_UP => ⟨1, 1, .ro, 0⟩
  | .HUB_CFG_PURL_WH_STATUS_WHA_UP => ⟨0, 0, .ro, 0⟩
  | .MSIX_TABLE_WORD => ⟨31, 0, .rw, 0⟩
  | .MSIX_PBA_WORD => ⟨31, 0, .ro, 0⟩

/-- Where a register stands: `base` is the offset in BAR0 of its first instance, then a stride, the lowest index and
the number of instances for each of two indices; `wide` for 64 bits, `latch` where a read of the lower half freezes the
upper one (R13). -/
structure RegSpec where
  base : Nat
  iStride : Nat
  iLo : Nat
  iCount : Nat
  jStride : Nat
  jLo : Nat
  jCount : Nat
  wide : Bool
  latch : Bool
deriving DecidableEq, Repr

/-- The places of the registers in the PF's BAR0 (Table 16.1); VF_INFO and VF_MARKER_GROUPS in a VF's (Table 16.2). -/
def Reg.spec : Reg → RegSpec
  | .HUB_CFG_BEAT_COUNT => ⟨0x100, 0x0, 0, 1, 0x0, 0, 1, true, true⟩
  | .HUB_CFG_TALLY_SEL => ⟨0x4000, 0x4, 0, 64, 0x0, 0, 1, false, false⟩
  | .HUB_CFG_TALLY_CNT => ⟨0x4400, 0x8, 0, 64, 0x0, 0, 1, true, true⟩
  | .HUB_CFG_TALLY_CLR => ⟨0x4800, 0x0, 0, 1, 0x0, 0, 1, true, false⟩
  | .CD_TILE_MAP => ⟨0x1001000, 0x400000, 0, 6, 0x4, 0, 40, false, false⟩
  | .CD_TILE_STATE => ⟨0x10010a0, 0x400000, 0, 6, 0x0, 0, 1, false, false⟩
  | .CD_RERUN_COUNT => ⟨0x1001100, 0x400000, 0, 6, 0x0, 0, 1, true, true⟩
  | .CD_NAN_COUNT => ⟨0x1001108, 0x400000, 0, 6, 0x0, 0, 1, true, true⟩
  | .CD_QCNT_CLR => ⟨0x1001110, 0x400000, 0, 6, 0x0, 0, 1, false, false⟩
  | .CD_ENG_CENTRE_ONLY => ⟨0x1001200, 0x400000, 0, 6, 0x0, 0, 1, true, true⟩
  | .CD_ENG_STEM_CLIP => ⟨0x1001208, 0x400000, 0, 6, 0x0, 0, 1, true, true⟩
  | .CD_ENG_CNT_CLR => ⟨0x1001210, 0x400000, 0, 6, 0x0, 0, 1, false, false⟩
  | .CD_KV_STARVE_COUNT => ⟨0x1001300, 0x400000, 0, 6, 0x0, 0, 1, true, true⟩
  | .CD_KV_DROPPED_PAGES => ⟨0x1001308, 0x400000, 0, 6, 0x0, 0, 1, true, true⟩
  | .CD_KV_CNT_CLR => ⟨0x1001310, 0x400000, 0, 6, 0x0, 0, 1, false, false⟩
  | .SENS_STREAM_CTX => ⟨0x301000, 0x40, 0, 128, 0x0, 0, 1, false, false⟩
  | .SENS_STREAM_PARAM => ⟨0x301004, 0x40, 0, 128, 0x0, 0, 1, false, false⟩
  | .SENS_STREAM_DELAY => ⟨0x301008, 0x40, 0, 128, 0x0, 0, 1, false, false⟩
  | .SENS_STREAM_LIMITS => ⟨0x30100c, 0x40, 0, 128, 0x0, 0, 1, false, false⟩
  | .SENS_STREAM_MATCH => ⟨0x301010, 0x40, 0, 128, 0x0, 0, 1, false, false⟩
  | .SENS_STREAM_TSOFF => ⟨0x301014, 0x40, 0, 128, 0x0, 0, 1, false, false⟩
  | .SENS_STREAM_SLOT_SIZE => ⟨0x301018, 0x40, 0, 128, 0x0, 0, 1, false, false⟩
  | .SENS_STREAM_SLOT_BASE => ⟨0x301020, 0x40, 0, 128, 0x0, 0, 1, true, false⟩
  | .SENS_STREAM_STATUS => ⟨0x303000, 0x20, 0, 128, 0x0, 0, 1, false, false⟩
  | .SENS_STREAM_LATE_DROPS => ⟨0x303008, 0x20, 0, 128, 0x0, 0, 1, true, true⟩
  | .SENS_STREAM_FAULTS => ⟨0x303010, 0x20, 0, 128, 0x0, 0, 1, true, true⟩
  | .SENS_CNT_CLR => ⟨0x304400, 0x0, 0, 1, 0x0, 0, 1, false, false⟩
  | .SENS_TRIG_CTRL => ⟨0x304000, 0x10, 0, 32, 0x0, 0, 1, false, false⟩
  | .SENS_TRIG_TIMING => ⟨0x304008, 0x10, 0, 32, 0x0, 0, 1, true, false⟩
  | .SENS_FUSION_CFG => ⟨0x305000, 0x0, 0, 1, 0x0, 0, 1, false, false⟩
  | .SENS_FUSION_PERIOD => ⟨0x305004, 0x0, 0, 1, 0x0, 0, 1, false, false⟩
  | .SENS_FUSION_PHASE => ⟨0x305008, 0x0, 0, 1, 0x0, 0, 1, true, false⟩
  | .SENS_FUSION_GRID => ⟨0x305010, 0x0, 0, 1, 0x0, 0, 1, true, false⟩
  | .SENS_GROUP => ⟨0x305100, 0x4, 0, 16, 0x0, 0, 1, false, false⟩
  | .SENS_DEGRADE_CFG => ⟨0x305200, 0x0, 0, 1, 0x0, 0, 1, false, false⟩
  | .SENS_DEGRADE_STATUS => ⟨0x305204, 0x0, 0, 1, 0x0, 0, 1, false, false⟩
  | .TIME_NOW => ⟨0x400000, 0x0, 0, 1, 0x0, 0, 1, true, true⟩
  | .TIME_CFG => ⟨0x400010, 0x0, 0, 1, 0x0, 0, 1, false, false⟩
  | .TIME_STATUS => ⟨0x400018, 0x0, 0, 1, 0x0, 0, 1, true, true⟩
  | .PLAN_CFG => ⟨0x700000, 0x0, 0, 1, 0x0, 0, 1, false, false⟩
  | .PLAN_CYCLE => ⟨0x700008, 0x0, 0, 1, 0x0, 0, 1, true, false⟩
  | .PLAN_CYCLE_PHASE => ⟨0x700010, 0x0, 0, 1, 0x0, 0, 1, true, false⟩
  | .PLAN_MARKERS => ⟨0x700018, 0x0, 0, 1, 0x0, 0, 1, false, false⟩
  | .PLAN_PROP_BUF => ⟨0x700020, 0x0, 0, 1, 0x0, 0, 1, true, false⟩
  | .PLAN_COST_W => ⟨0x700028, 0x0, 0, 1, 0x0, 0, 1, true, false⟩
  | .PLAN_STORE_BASE => ⟨0x700030, 0x0, 0, 1, 0x0, 0, 1, true, false⟩
  | .PLAN_OUT_BASE => ⟨0x700038, 0x0, 0, 1, 0x0, 0, 1, false, false⟩
  | .PLAN_STATUS => ⟨0x700100, 0x0, 0, 1, 0x0, 0, 1, true, true⟩
  | .PLAN_STAT => ⟨0x700200, 0x8, 0, 8, 0x0, 0, 1, true, true⟩
  | .PLAN_STAT_CLR => ⟨0x700280, 0x0, 0, 1, 0x0, 0, 1, false, false⟩
  | .MEM_MASTER_MAP => ⟨0x600000, 0x0, 0, 1, 0x0, 0, 1, true, false⟩
  | .MEM_ECC_CFG => ⟨0x600010, 0x0, 0, 1, 0x0, 0, 1, false, false⟩
  | .MEM_SPARE_CFG => ⟨0x600018, 0x0, 0, 1, 0x0, 0, 1, true, false⟩
  | .MEM_ADMIT_STATUS => ⟨0x600020, 0x0, 0, 1, 0x0, 0, 1, true, true⟩
  | .MEM_PART_CFG => ⟨0x600100, 0x10, 0, 16, 0x0, 0, 1, true, false⟩
  | .MEM_PART_RATE => ⟨0x600108, 0x10, 0, 15, 0x0, 0, 1, true, false⟩
  | .MEM_STALL_RATE => ⟨0x600308, 0x8, 1, 31, 0x0, 0, 1, true, false⟩
  | .MEM_PART_STAT => ⟨0x600200, 0x8, 0, 16, 0x0, 0, 1, true, true⟩
  | .MEM_PART_STAT_CLR => ⟨0x600280, 0x0, 0, 1, 0x0, 0, 1, false, false⟩
  | .MEM_WIN_BOOK => ⟨0x601000, 0x4, 0, 128, 0x0, 0, 1, false, false⟩
  | .MEM_PC_ECC => ⟨0x602000, 0x8, 0, 64, 0x0, 0, 1, true, true⟩
  | .MEM_PAIR_CFG => ⟨0x608000, 0x0, 0, 1, 0x0, 0, 1, false, false⟩
  | .MEM_PAIR_STATUS => ⟨0x608008, 0x0, 0, 1, 0x0, 0, 1, true, true⟩
  | .MEM_PAIR_XFER => ⟨0x608100, 0x4, 0, 64, 0x0, 0, 1, false, false⟩
  | .RING_CFG => ⟨0x200000, 0x0, 0, 1, 0x40, 0, 256, false, false⟩
  | .RING_IRQ => ⟨0x200004, 0x0, 0, 1, 0x40, 0, 256, false, false⟩
  | .RING_SQ_BASE => ⟨0x200008, 0x0, 0, 1, 0x40, 0, 256, true, false⟩
  | .RING_CQ_BASE => ⟨0x200010, 0x0, 0, 1, 0x40, 0, 256, true, false⟩
  | .RING_HEAD_WB => ⟨0x200018, 0x0, 0, 1, 0x40, 0, 256, true, false⟩
  | .RING_STATUS => ⟨0x200020, 0x0, 0, 1, 0x40, 0, 256, false, false⟩
  | .HUB_CFG_MARKER_OWNER => ⟨0x5000, 0x4, 0, 128, 0x0, 0, 1, false, false⟩
  | .HUB_CFG_MARKER_VAL => ⟨0x10000, 0x4, 0, 8192, 0x0, 0, 1, false, false⟩
  | .HUB_CFG_GAUGE_STATUS => ⟨0x6000, 0x0, 0, 1, 0x0, 0, 1, true, true⟩
  | .HUB_CFG_GAUGE_FIRST_TIME => ⟨0x6008, 0x0, 0, 1, 0x0, 0, 1, true, true⟩
  | .HUB_CFG_GAUGE_CNT => ⟨0x6010, 0x0, 0, 1, 0x0, 0, 1, true, true⟩
  | .HUB_CFG_GAUGE_CLR => ⟨0x6018, 0x0, 0, 1, 0x0, 0, 1, false, false⟩
  | .SAFE_STATUS => ⟨0xa00000, 0x0, 0, 1, 0x0, 0, 1, true, true⟩
  | .SAFE_ERRQ_STATUS => ⟨0xa00008, 0x0, 0, 1, 0x0, 0, 1, true, true⟩
  | .SAFE_RESTART => ⟨0xa00010, 0x0, 0, 1, 0x0, 0, 1, true, true⟩
  | .HUB_CFG_ERRLOG_BASE => ⟨0x7000, 0x0, 0, 1, 0x0, 0, 1, true, false⟩
  | .HUB_CFG_ERRLOG_CFG => ⟨0x7008, 0x0, 0, 1, 0x0, 0, 1, false, false⟩
  | .HUB_CFG_ERRLOG_COUNT => ⟨0x7010, 0x0, 0, 1, 0x0, 0, 1, true, true⟩
  | .HUB_CFG_RETAIN_BASE => ⟨0x7100, 0x0, 0, 1, 0x0, 0, 1, true, false⟩
  | .HUB_CFG_RETAIN_SIZE => ⟨0x7108, 0x0, 0, 1, 0x0, 0, 1, false, false⟩
  | .HUB_CFG_SWATCH_CFG => ⟨0x8000, 0x0, 0, 1, 0x0, 0, 1, false, false⟩
  | .HUB_CFG_SWATCH_STATUS => ⟨0x8008, 0x0, 0, 1, 0x0, 0, 1, true, true⟩
  | .HUB_CFG_SWATCH_CNT => ⟨0x8010, 0x8, 0, 4, 0x0, 0, 1, true, true⟩
  | .HUB_CFG_SWATCH_CLR => ⟨0x8030, 0x0, 0, 1, 0x0, 0, 1, false, false⟩
  | .HUB_CFG_INJECT_STATUS => ⟨0x8040, 0x0, 0, 1, 0x0, 0, 1, true, true⟩
  | .SEC_SCAN_STATUS => ⟨0x900400, 0x0, 0, 1, 0x0, 0, 1, false, false⟩
  | .PWR_MODE_REQ => ⟨0x800000, 0x0, 0, 1, 0x0, 0, 1, false, false⟩
  | .PWR_STATUS => ⟨0x800008, 0x0, 0, 1, 0x0, 0, 1, true, true⟩
  | .PWR_DOMAINS => ⟨0x800010, 0x0, 0, 1, 0x0, 0, 1, true, true⟩
  | .PWR_PKG_LIMIT => ⟨0x800018, 0x0, 0, 1, 0x0, 0, 1, false, false⟩
  | .PWR_THERM_CFG => ⟨0x800020, 0x0, 0, 1, 0x0, 0, 1, false, false⟩
  | .PWR_SENT_CFG => ⟨0x800040, 0x8, 0, 3, 0x0, 0, 1, true, false⟩
  | .PWR_COOLANT => ⟨0x800060, 0x0, 0, 1, 0x0, 0, 1, true, true⟩
  | .PWR_WAKE_CFG => ⟨0x800080, 0x0, 0, 1, 0x0, 0, 1, true, false⟩
  | .PWR_WAKE_CAUSE => ⟨0x800088, 0x0, 0, 1, 0x0, 0, 1, false, false⟩
  | .PWR_WAKE_TARGET => ⟨0x800090, 0x0, 0, 1, 0x0, 0, 1, false, false⟩
  | .PWR_WEAR_STATUS => ⟨0x8000a0, 0x0, 0, 1, 0x0, 0, 1, true, true⟩
  | .SEC_LOCK => ⟨0x900000, 0x0, 0, 1, 0x0, 0, 1, false, false⟩
  | .SEC_BOOT_STATUS => ⟨0x900008, 0x0, 0, 1, 0x0, 0, 1, false, false⟩
  | .SEC_VERSION => ⟨0x900010, 0x0, 0, 1, 0x0, 0, 1, true, true⟩
  | .SEC_XFER_ADDR => ⟨0x900100, 0x0, 0, 1, 0x0, 0, 1, true, false⟩
  | .SEC_XFER_CTRL => ⟨0x900108, 0x0, 0, 1, 0x0, 0, 1, false, false⟩
  | .SEC_XFER_STATUS => ⟨0x900110, 0x0, 0, 1, 0x0, 0, 1, false, false⟩
  | .SEC_QUOTE_NONCE => ⟨0x900200, 0x8, 0, 4, 0x0, 0, 1, true, false⟩
  | .SEC_QUOTE_DEST => ⟨0x900220, 0x0, 0, 1, 0x0, 0, 1, true, false⟩
  | .SEC_QUOTE_CTRL => ⟨0x900228, 0x0, 0, 1, 0x0, 0, 1, false, false⟩
  | .SEC_DEBUG_CHALLENGE => ⟨0x900300, 0x8, 0, 4, 0x0, 0, 1, true, false⟩
  | .SEC_DEBUG_CTRL => ⟨0x900320, 0x0, 0, 1, 0x0, 0, 1, false, false⟩
  | .SEC_DEBUG_MAILBOX => ⟨0x902000, 0x0, 0, 1, 0x4, 0, 2048, false, false⟩
  | .HUB_CFG_NM_CFG => ⟨0x9000, 0x0, 0, 1, 0x0, 0, 1, false, false⟩
  | .HUB_CFG_NM_STATUS => ⟨0x9008, 0x0, 0, 1, 0x0, 0, 1, true, true⟩
  | .HUB_CFG_STALL_CFG => ⟨0x9040, 0x40, 1, 31, 0x0, 0, 1, false, false⟩
  | .HUB_CFG_STALL_REGION => ⟨0x9048, 0x40, 1, 31, 0x0, 0, 1, true, false⟩
  | .HUB_CFG_STALL_STATUS => ⟨0x9050, 0x40, 1, 31, 0x0, 0, 1, false, false⟩
  | .HUB_CFG_STALL_CNT => ⟨0x9058, 0x40, 1, 31, 0x8, 0, 4, true, true⟩
  | .HUB_CFG_ID => ⟨0x0, 0x0, 0, 1, 0x0, 0, 1, false, false⟩
  | .HUB_CFG_CFG_ERROR => ⟨0x10, 0x0, 0, 1, 0x0, 0, 1, true, true⟩
  | .VF_INFO => ⟨0x80000, 0x0, 0, 1, 0x0, 0, 1, false, false⟩
  | .VF_MARKER_GROUPS => ⟨0x80040, 0x0, 0, 1, 0x8, 0, 2, true, false⟩
  | .PCIE_LINK_STATUS => ⟨0x100000, 0x0, 0, 1, 0x0, 0, 1, true, true⟩
  | .PCIE_FN_STATUS => ⟨0x100100, 0x4, 0, 32, 0x0, 0, 1, false, false⟩
  | .NET_MAC_CFG => ⟨0x500000, 0x1000, 0, 6, 0x0, 0, 1, false, false⟩
  | .NET_MAC_ADDR => ⟨0x500008, 0x1000, 0, 6, 0x0, 0, 1, true, false⟩
  | .NET_TC_MAP => ⟨0x500010, 0x1000, 0, 6, 0x0, 0, 1, false, false⟩
  | .NET_MAC_CNT => ⟨0x500020, 0x1000, 0, 6, 0x8, 0, 5, true, true⟩
  | .NET_CNT_CLR => ⟨0x508100, 0x0, 0, 1, 0x0, 0, 1, false, false⟩
  | .NET_QBV_CTRL => ⟨0x500060, 0x1000, 0, 6, 0x0, 0, 1, false, false⟩
  | .NET_QBV_BASE => ⟨0x500068, 0x1000, 0, 6, 0x0, 0, 1, true, false⟩
  | .NET_QBV_CYCLE => ⟨0x500070, 0x1000, 0, 6, 0x0, 0, 1, false, false⟩
  | .NET_QBV_GCL => ⟨0x500400, 0x1000, 0, 6, 0x4, 0, 256, false, false⟩
  | .NET_QAV => ⟨0x500080, 0x1000, 0, 6, 0x4, 0, 8, false, false⟩
  | .NET_CAN_STATUS => ⟨0x508000, 0x8, 0, 4, 0x0, 0, 1, false, false⟩
  | .PWR_RAIL => ⟨0x8000c0, 0x8, 0, 5, 0x0, 0, 1, true, true⟩
  | .CD_PURL_STATUS => ⟨0x1001400, 0x400000, 0, 6, 0x0, 0, 1, false, false⟩
  | .CD_PURL_RETRY => ⟨0x1001408, 0x400000, 0, 6, 0x8, 0, 2, true, true⟩
  | .CD_PURL_CLR => ⟨0x1001418, 0x400000, 0, 6, 0x0, 0, 1, false, false⟩
  | .HUB_CFG_PURL_WH_RETRY => ⟨0xa000, 0x8, 0, 2, 0x0, 0, 1, true, true⟩
  | .HUB_CFG_PURL_WH_STATUS => ⟨0xa010, 0x0, 0, 1, 0x0, 0, 1, false, false⟩
  | .MSIX_TABLE => ⟨0xC00000, 0, 0, 1, 4, 0, 1024, false, false⟩
  | .MSIX_PBA => ⟨0xC01000, 0, 0, 1, 4, 0, 8, false, false⟩

/-- The named fields of a register. -/
def Reg.fields : Reg → List Fld
  | .HUB_CFG_BEAT_COUNT => [.HUB_CFG_BEAT_COUNT_BEAT]
  | .HUB_CFG_TALLY_SEL => [.HUB_CFG_TALLY_SEL_SOURCE, .HUB_CFG_TALLY_SEL_CAUSE]
  | .HUB_CFG_TALLY_CNT => [.HUB_CFG_TALLY_CNT_COUNT]
  | .HUB_CFG_TALLY_CLR => [.HUB_CFG_TALLY_CLR_CLEAR]
  | .CD_TILE_MAP => [.CD_TILE_MAP_ROW_REPAIRS, .CD_TILE_MAP_PHYS]
  | .CD_TILE_STATE => [.CD_TILE_STATE_PENDING_PHYS, .CD_TILE_STATE_REPAIR_PENDING, .CD_TILE_STATE_SPARES_LEFT]
  | .CD_RERUN_COUNT => [.CD_RERUN_COUNT_COUNT]
  | .CD_NAN_COUNT => [.CD_NAN_COUNT_COUNT]
  | .CD_QCNT_CLR => [.CD_QCNT_CLR_CLR_NAN, .CD_QCNT_CLR_CLR_RERUN]
  | .CD_ENG_CENTRE_ONLY => [.CD_ENG_CENTRE_ONLY_COUNT]
  | .CD_ENG_STEM_CLIP => [.CD_ENG_STEM_CLIP_COUNT]
  | .CD_ENG_CNT_CLR => [.CD_ENG_CNT_CLR_CLR_STEM_CLIP, .CD_ENG_CNT_CLR_CLR_CENTRE_ONLY]
  | .CD_KV_STARVE_COUNT => [.CD_KV_STARVE_COUNT_COUNT]
  | .CD_KV_DROPPED_PAGES => [.CD_KV_DROPPED_PAGES_COUNT]
  | .CD_KV_CNT_CLR => [.CD_KV_CNT_CLR_CLR_DROPPED, .CD_KV_CNT_CLR_CLR_STARVE]
  | .SENS_STREAM_CTX => [.SENS_STREAM_CTX_ENABLE, .SENS_STREAM_CTX_KIND, .SENS_STREAM_CTX_TS_SRC, .SENS_STREAM_CTX_FRAME_NUM, .SENS_STREAM_CTX_PORT, .SENS_STREAM_CTX_VC, .SENS_STREAM_CTX_DT, .SENS_STREAM_CTX_TRIGGER, .SENS_STREAM_CTX_GROUP]
  | .SENS_STREAM_PARAM => [.SENS_STREAM_PARAM_CONSIST_THR, .SENS_STREAM_PARAM_LOST_PERIODS, .SENS_STREAM_PARAM_BUFFER_ID]
  | .SENS_STREAM_DELAY => [.SENS_STREAM_DELAY_EXPECT_DELAY]
  | .SENS_STREAM_LIMITS => [.SENS_STREAM_LIMITS_PKTS_PER_FRAME, .SENS_STREAM_LIMITS_ALIGN_TOL]
  | .SENS_STREAM_MATCH => [.SENS_STREAM_MATCH_VLAN_ID, .SENS_STREAM_MATCH_UDP_PORT]
  | .SENS_STREAM_TSOFF => [.SENS_STREAM_TSOFF_TS_OFFSET]
  | .SENS_STREAM_SLOT_SIZE => [.SENS_STREAM_SLOT_SIZE_SIZE]
  | .SENS_STREAM_SLOT_BASE => [.SENS_STREAM_SLOT_BASE_BASE]
  | .SENS_STREAM_STATUS => [.SENS_STREAM_STATUS_LAST_CAUSE, .SENS_STREAM_STATUS_RUN, .SENS_STREAM_STATUS_STATE]
  | .SENS_STREAM_LATE_DROPS => [.SENS_STREAM_LATE_DROPS_COUNT]
  | .SENS_STREAM_FAULTS => [.SENS_STREAM_FAULTS_MISSED, .SENS_STREAM_FAULTS_MISALIGNED, .SENS_STREAM_FAULTS_PLAUS_FAIL]
  | .SENS_CNT_CLR => [.SENS_CNT_CLR_CLR_FAULTS, .SENS_CNT_CLR_CLR_LATE, .SENS_CNT_CLR_CTX]
  | .SENS_TRIG_CTRL => [.SENS_TRIG_CTRL_ENABLE, .SENS_TRIG_CTRL_POLARITY, .SENS_TRIG_CTRL_HOLDING, .SENS_TRIG_CTRL_WIDTH]
  | .SENS_TRIG_TIMING => [.SENS_TRIG_TIMING_PHASE, .SENS_TRIG_TIMING_PERIOD]
  | .SENS_FUSION_CFG => [.SENS_FUSION_CFG_ENABLE, .SENS_FUSION_CFG_CONSIST_EN, .SENS_FUSION_CFG_CONSIST_BUF, .SENS_FUSION_CFG_RESULT_BUF]
  | .SENS_FUSION_PERIOD => [.SENS_FUSION_PERIOD_PERIOD]
  | .SENS_FUSION_PHASE => [.SENS_FUSION_PHASE_PHASE]
  | .SENS_FUSION_GRID => [.SENS_FUSION_GRID_CELL_PITCH, .SENS_FUSION_GRID_FORMAT, .SENS_FUSION_GRID_CHANNELS, .SENS_FUSION_GRID_HEIGHT, .SENS_FUSION_GRID_WIDTH]
  | .SENS_GROUP => [.SENS_GROUP_MIN_STREAMS, .SENS_GROUP_SECTORS]
  | .SENS_DEGRADE_CFG => [.SENS_DEGRADE_CFG_HOLD, .SENS_DEGRADE_CFG_CRIT_SECTORS, .SENS_DEGRADE_CFG_MAX_BLIND]
  | .SENS_DEGRADE_STATUS => [.SENS_DEGRADE_STATUS_LOST_GROUPS, .SENS_DEGRADE_STATUS_BLIND, .SENS_DEGRADE_STATUS_SENSING_STEP, .SENS_DEGRADE_STATUS_STEP]
  | .TIME_NOW => [.TIME_NOW_NOW]
  | .TIME_CFG => [.TIME_CFG_GPTP_EN, .TIME_CFG_CB_EN, .TIME_CFG_PORT_MASK, .TIME_CFG_SYNC_TIMEOUT, .TIME_CFG_HOLD_LIMIT]
  | .TIME_STATUS => [.TIME_STATUS_OFFSET, .TIME_STATUS_FREQ_ADJ, .TIME_STATUS_STATE]
  | .PLAN_CFG => [.PLAN_CFG_ENABLE, .PLAN_CFG_KEEP_LIMIT, .PLAN_CFG_MAX_WORLD_AGE]
  | .PLAN_CYCLE => [.PLAN_CYCLE_SELECT_OFFSET, .PLAN_CYCLE_PERIOD]
  | .PLAN_CYCLE_PHASE => [.PLAN_CYCLE_PHASE_PHASE]
  | .PLAN_MARKERS => [.PLAN_MARKERS_FREE_MARKER, .PLAN_MARKERS_PUBLISH_MARKER]
  | .PLAN_PROP_BUF => [.PLAN_PROP_BUF_COUNT, .PLAN_PROP_BUF_BUF3, .PLAN_PROP_BUF_BUF2, .PLAN_PROP_BUF_BUF1, .PLAN_PROP_BUF_BUF0]
  | .PLAN_COST_W => [.PLAN_COST_W_W_YAW, .PLAN_COST_W_W_SPEED]
  | .PLAN_STORE_BASE => [.PLAN_STORE_BASE_BASE]
  | .PLAN_OUT_BASE => [.PLAN_OUT_BASE_OFFSET]
  | .PLAN_STATUS => [.PLAN_STATUS_ACTIVE_EPOCH, .PLAN_STATUS_KEEP_COUNT, .PLAN_STATUS_WINNER_RUN, .PLAN_STATUS_D4_REQUEST, .PLAN_STATUS_BUF1_STATE, .PLAN_STATUS_BUF0_STATE, .PLAN_STATUS_LANES]
  | .PLAN_STAT => [.PLAN_STAT_COUNT]
  | .PLAN_STAT_CLR => [.PLAN_STAT_CLR_CLEAR]
  | .MEM_MASTER_MAP => [.MEM_MASTER_MAP_PART]
  | .MEM_ECC_CFG => [.MEM_ECC_CFG_RETIRE_EN, .MEM_ECC_CFG_CE_LIMIT]
  | .MEM_SPARE_CFG => [.MEM_SPARE_CFG_BASE, .MEM_SPARE_CFG_USED, .MEM_SPARE_CFG_SLOTS]
  | .MEM_ADMIT_STATUS => [.MEM_ADMIT_STATUS_SHED_COUNT, .MEM_ADMIT_STATUS_HOT_HS1, .MEM_ADMIT_STATUS_HOT_HS0, .MEM_ADMIT_STATUS_IN_SERVICE, .MEM_ADMIT_STATUS_L_SLOT]
  | .MEM_PART_CFG => [.MEM_PART_CFG_LAT_LIMIT, .MEM_PART_CFG_DEPTH, .MEM_PART_CFG_CLASS, .MEM_PART_CFG_DEADLINE_EN, .MEM_PART_CFG_ENABLE, .MEM_PART_CFG_PRIORITY]
  | .MEM_PART_RATE => [.MEM_PART_RATE_MIN_RATE, .MEM_PART_RATE_RATE]
  | .MEM_STALL_RATE => [.MEM_STALL_RATE_MIN_RATE, .MEM_STALL_RATE_RATE]
  | .MEM_PART_STAT => [.MEM_PART_STAT_DL_MISSES, .MEM_PART_STAT_MAX_LAT]
  | .MEM_PART_STAT_CLR => [.MEM_PART_STAT_CLR_CLEAR]
  | .MEM_WIN_BOOK => [.MEM_WIN_BOOK_BYTES]
  | .MEM_PC_ECC => [.MEM_PC_ECC_RETIRED, .MEM_PC_ECC_UE, .MEM_PC_ECC_CE]
  | .MEM_PAIR_CFG => [.MEM_PAIR_CFG_ENABLE, .MEM_PAIR_CFG_LOST_TIMEOUT, .MEM_PAIR_CFG_BARRIER_TIMEOUT]
  | .MEM_PAIR_STATUS => [.MEM_PAIR_STATUS_OFFSET, .MEM_PAIR_STATUS_RETRAINS, .MEM_PAIR_STATUS_ADVISORY, .MEM_PAIR_STATUS_PEER_ROLE, .MEM_PAIR_STATUS_ROLE, .MEM_PAIR_STATUS_STATE]
  | .MEM_PAIR_XFER => [.MEM_PAIR_XFER_ENABLE, .MEM_PAIR_XFER_REMOTE_BUF, .MEM_PAIR_XFER_LOCAL_BUF]
  | .RING_CFG => [.RING_CFG_ENABLE, .RING_CFG_LOG2_ENTRIES, .RING_CFG_VECTOR]
  | .RING_IRQ => [.RING_IRQ_COALESCE_TIME, .RING_IRQ_COALESCE_COUNT]
  | .RING_SQ_BASE => [.RING_SQ_BASE_BASE]
  | .RING_CQ_BASE => [.RING_CQ_BASE_BASE]
  | .RING_HEAD_WB => [.RING_HEAD_WB_ADDR, .RING_HEAD_WB_EN]
  | .RING_STATUS => [.RING_STATUS_STATE, .RING_STATUS_LAST_ERROR, .RING_STATUS_FETCH_HEAD]
  | .HUB_CFG_MARKER_OWNER => [.HUB_CFG_MARKER_OWNER_FUNCTION]
  | .HUB_CFG_MARKER_VAL => [.HUB_CFG_MARKER_VAL_VALUE]
  | .HUB_CFG_GAUGE_STATUS => [.HUB_CFG_GAUGE_STATUS_LAST_CMD, .HUB_CFG_GAUGE_STATUS_AGREE_COUNT, .HUB_CFG_GAUGE_STATUS_LAST_TILE, .HUB_CFG_GAUGE_STATUS_LAST_KIND, .HUB_CFG_GAUGE_STATUS_JOINED, .HUB_CFG_GAUGE_STATUS_STATE]
  | .HUB_CFG_GAUGE_FIRST_TIME => [.HUB_CFG_GAUGE_FIRST_TIME_TIME]
  | .HUB_CFG_GAUGE_CNT => [.HUB_CFG_GAUGE_CNT_MISMATCHES]
  | .HUB_CFG_GAUGE_CLR => [.HUB_CFG_GAUGE_CLR_CLR_CNT]
  | .SAFE_STATUS => [.SAFE_STATUS_AUTH_SEQ, .SAFE_STATUS_LAST_CODE, .SAFE_STATUS_LAST_SEV, .SAFE_STATUS_IN_COMMAND, .SAFE_STATUS_MRM_REQUESTED, .SAFE_STATUS_RESTARTING, .SAFE_STATUS_CROSS_LINK_UP, .SAFE_STATUS_WHB_ALIVE, .SAFE_STATUS_WHA_ALIVE, .SAFE_STATUS_COMMANDER, .SAFE_STATUS_STEP, .SAFE_STATUS_AUTHORITY]
  | .SAFE_ERRQ_STATUS => [.SAFE_ERRQ_STATUS_NOTES_BYPASSED, .SAFE_ERRQ_STATUS_PREEMPTIONS, .SAFE_ERRQ_STATUS_MAX_DEPTH, .SAFE_ERRQ_STATUS_DEPTH]
  | .SAFE_RESTART => [.SAFE_RESTART_LAST_DURATION, .SAFE_RESTART_TOTAL, .SAFE_RESTART_IN_WINDOW, .SAFE_RESTART_STATE]
  | .HUB_CFG_ERRLOG_BASE => [.HUB_CFG_ERRLOG_BASE_BASE]
  | .HUB_CFG_ERRLOG_CFG => [.HUB_CFG_ERRLOG_CFG_ENABLE, .HUB_CFG_ERRLOG_CFG_LOG2_ENTRIES]
  | .HUB_CFG_ERRLOG_COUNT => [.HUB_CFG_ERRLOG_COUNT_COUNT]
  | .HUB_CFG_RETAIN_BASE => [.HUB_CFG_RETAIN_BASE_BASE]
  | .HUB_CFG_RETAIN_SIZE => [.HUB_CFG_RETAIN_SIZE_MIB]
  | .HUB_CFG_SWATCH_CFG => [.HUB_CFG_SWATCH_CFG_ENABLE]
  | .HUB_CFG_SWATCH_STATUS => [.HUB_CFG_SWATCH_STATUS_OLDEST_AGE, .HUB_CFG_SWATCH_STATUS_OLDEST_TARGET, .HUB_CFG_SWATCH_STATUS_RUNNING, .HUB_CFG_SWATCH_STATUS_TARGETED]
  | .HUB_CFG_SWATCH_CNT => [.HUB_CFG_SWATCH_CNT_COUNT]
  | .HUB_CFG_SWATCH_CLR => [.HUB_CFG_SWATCH_CLR_CLEAR]
  | .HUB_CFG_INJECT_STATUS => [.HUB_CFG_INJECT_STATUS_LAST_CHECKER, .HUB_CFG_INJECT_STATUS_FAILED, .HUB_CFG_INJECT_STATUS_DONE]
  | .SEC_SCAN_STATUS => [.SEC_SCAN_STATUS_CLEARED, .SEC_SCAN_STATUS_SERVICE, .SEC_SCAN_STATUS_LAST_CODE]
  | .PWR_MODE_REQ => [.PWR_MODE_REQ_MODE]
  | .PWR_STATUS => [.PWR_STATUS_BUDGET, .PWR_STATUS_DEMAND, .PWR_STATUS_SHED, .PWR_STATUS_REASON, .PWR_STATUS_FLOW_STOP, .PWR_STATUS_COOLING_DEGRADED, .PWR_STATUS_STEP, .PWR_STATUS_MODE]
  | .PWR_DOMAINS => [.PWR_DOMAINS_ON]
  | .PWR_PKG_LIMIT => [.PWR_PKG_LIMIT_LIMIT]
  | .PWR_THERM_CFG => [.PWR_THERM_CFG_THERM_LEVEL, .PWR_THERM_CFG_TARGET]
  | .PWR_SENT_CFG => [.PWR_SENT_CFG_OFFSET, .PWR_SENT_CFG_GAIN]
  | .PWR_COOLANT => [.PWR_COOLANT_LOST, .PWR_COOLANT_FLOW, .PWR_COOLANT_OUTLET, .PWR_COOLANT_INLET]
  | .PWR_WAKE_CFG => [.PWR_WAKE_CFG_ALARM, .PWR_WAKE_CFG_POLARITY, .PWR_WAKE_CFG_ENABLE]
  | .PWR_WAKE_CAUSE => [.PWR_WAKE_CAUSE_VAON, .PWR_WAKE_CAUSE_THERM, .PWR_WAKE_CAUSE_ALARM, .PWR_WAKE_CAUSE_PCIE, .PWR_WAKE_CAUSE_PIN]
  | .PWR_WAKE_TARGET => [.PWR_WAKE_TARGET_ALARM_NM, .PWR_WAKE_TARGET_PCIE_NM, .PWR_WAKE_TARGET_PIN_NM]
  | .PWR_WEAR_STATUS => [.PWR_WEAR_STATUS_WEAR_AHEAD, .PWR_WEAR_STATUS_END_OF_LIFE, .PWR_WEAR_STATUS_ALLOWANCE, .PWR_WEAR_STATUS_CONSUMED]
  | .SEC_LOCK => [.SEC_LOCK_LOCK]
  | .SEC_BOOT_STATUS => [.SEC_BOOT_STATUS_LAST_CODE, .SEC_BOOT_STATUS_IDENTITY_OK, .SEC_BOOT_STATUS_CONFIG_VALID, .SEC_BOOT_STATUS_RECOVERED, .SEC_BOOT_STATUS_HOST_PRESENT, .SEC_BOOT_STATUS_SAFE_ALONE, .SEC_BOOT_STATUS_PAIR_ROLE, .SEC_BOOT_STATUS_BOOT_SRC]
  | .SEC_VERSION => [.SEC_VERSION_VERSION_FLOOR, .SEC_VERSION_SECURITY_VERSION]
  | .SEC_XFER_ADDR => [.SEC_XFER_ADDR_ADDR]
  | .SEC_XFER_CTRL => [.SEC_XFER_CTRL_OP, .SEC_XFER_CTRL_LENGTH]
  | .SEC_XFER_STATUS => [.SEC_XFER_STATUS_STATE, .SEC_XFER_STATUS_CODE]
  | .SEC_QUOTE_NONCE => [.SEC_QUOTE_NONCE_NONCE]
  | .SEC_QUOTE_DEST => [.SEC_QUOTE_DEST_ADDR]
  | .SEC_QUOTE_CTRL => [.SEC_QUOTE_CTRL_GO, .SEC_QUOTE_CTRL_LOG, .SEC_QUOTE_CTRL_DEVREC, .SEC_QUOTE_CTRL_STALL, .SEC_QUOTE_CTRL_SPACE]
  | .SEC_DEBUG_CHALLENGE => [.SEC_DEBUG_CHALLENGE_CHALLENGE]
  | .SEC_DEBUG_CTRL => [.SEC_DEBUG_CTRL_SUBMIT, .SEC_DEBUG_CTRL_WINDOW]
  | .SEC_DEBUG_MAILBOX => [.SEC_DEBUG_MAILBOX_WORD]
  | .HUB_CFG_NM_CFG => [.HUB_CFG_NM_CFG_DRAIN_GRACE]
  | .HUB_CFG_NM_STATUS => [.HUB_CFG_NM_STATUS_OPEN_STALLS, .HUB_CFG_NM_STATUS_POWER_DECLARED, .HUB_CFG_NM_STATUS_PHASE]
  | .HUB_CFG_STALL_CFG => [.HUB_CFG_STALL_CFG_ENABLE, .HUB_CFG_STALL_CFG_QUARTERS]
  | .HUB_CFG_STALL_REGION => [.HUB_CFG_STALL_REGION_BASE, .HUB_CFG_STALL_REGION_SIZE, .HUB_CFG_STALL_REGION_POWER_W]
  | .HUB_CFG_STALL_STATUS => [.HUB_CFG_STALL_STATUS_STATE, .HUB_CFG_STALL_STATUS_LAST_CODE, .HUB_CFG_STALL_STATUS_EVENTS]
  | .HUB_CFG_STALL_CNT => [.HUB_CFG_STALL_CNT_COUNT]
  | .HUB_CFG_ID => [.HUB_CFG_ID_PART, .HUB_CFG_ID_STEPPING, .HUB_CFG_ID_MAP_VERSION]
  | .HUB_CFG_CFG_ERROR => [.HUB_CFG_CFG_ERROR_COUNT, .HUB_CFG_CFG_ERROR_FUNCTION, .HUB_CFG_CFG_ERROR_OFFSET, .HUB_CFG_CFG_ERROR_CODE]
  | .VF_INFO => [.VF_INFO_PART, .VF_INFO_STEPPING, .VF_INFO_STALL]
  | .VF_MARKER_GROUPS => [.VF_MARKER_GROUPS_GROUPS]
  | .PCIE_LINK_STATUS => [.PCIE_LINK_STATUS_DOWN_COUNT, .PCIE_LINK_STATUS_WIDTH, .PCIE_LINK_STATUS_SPEED, .PCIE_LINK_STATUS_UP]
  | .PCIE_FN_STATUS => [.PCIE_FN_STATUS_ENABLED, .PCIE_FN_STATUS_FLR_BUSY, .PCIE_FN_STATUS_BUS_MASTER, .PCIE_FN_STATUS_RINGS_ACTIVE]
  | .NET_MAC_CFG => [.NET_MAC_CFG_ENABLE, .NET_MAC_CFG_LINK, .NET_MAC_CFG_SPEED, .NET_MAC_CFG_MAX_FRAME]
  | .NET_MAC_ADDR => [.NET_MAC_ADDR_ADDR]
  | .NET_TC_MAP => [.NET_TC_MAP_PCP_TC]
  | .NET_MAC_CNT => [.NET_MAC_CNT_COUNT]
  | .NET_CNT_CLR => [.NET_CNT_CLR_CLEAR]
  | .NET_QBV_CTRL => [.NET_QBV_CTRL_GATE_EN, .NET_QBV_CTRL_CHANGE, .NET_QBV_CTRL_PENDING, .NET_QBV_CTRL_OPER_VALID, .NET_QBV_CTRL_ADMIN_LEN]
  | .NET_QBV_BASE => [.NET_QBV_BASE_ADMIN_BASE_TIME]
  | .NET_QBV_CYCLE => [.NET_QBV_CYCLE_ADMIN_CYCLE]
  | .NET_QBV_GCL => [.NET_QBV_GCL_GATES, .NET_QBV_GCL_INTERVAL]
  | .NET_QAV => [.NET_QAV_EN, .NET_QAV_IDLE_SLOPE]
  | .NET_CAN_STATUS => [.NET_CAN_STATUS_STATE, .NET_CAN_STATUS_TEC, .NET_CAN_STATUS_REC]
  | .PWR_RAIL => [.PWR_RAIL_VALID, .PWR_RAIL_IOUT, .PWR_RAIL_VOUT]
  | .CD_PURL_STATUS => [.CD_PURL_STATUS_RING_UP, .CD_PURL_STATUS_HUB_UP]
  | .CD_PURL_RETRY => [.CD_PURL_RETRY_COUNT]
  | .CD_PURL_CLR => [.CD_PURL_CLR_CLEAR]
  | .HUB_CFG_PURL_WH_RETRY => [.HUB_CFG_PURL_WH_RETRY_COUNT]
  | .HUB_CFG_PURL_WH_STATUS => [.HUB_CFG_PURL_WH_STATUS_CLEAR, .HUB_CFG_PURL_WH_STATUS_WHB_UP, .HUB_CFG_PURL_WH_STATUS_WHA_UP]
  | .MSIX_TABLE => [.MSIX_TABLE_WORD]
  | .MSIX_PBA => [.MSIX_PBA_WORD]

/-- The registers of the PF's BAR0 (Table 16.1). -/
def pfRegs : List Reg :=
  [.HUB_CFG_BEAT_COUNT, .HUB_CFG_TALLY_SEL, .HUB_CFG_TALLY_CNT, .HUB_CFG_TALLY_CLR, .CD_TILE_MAP, .CD_TILE_STATE,
   .CD_RERUN_COUNT, .CD_NAN_COUNT, .CD_QCNT_CLR, .CD_ENG_CENTRE_ONLY, .CD_ENG_STEM_CLIP, .CD_ENG_CNT_CLR,
   .CD_KV_STARVE_COUNT, .CD_KV_DROPPED_PAGES, .CD_KV_CNT_CLR, .SENS_STREAM_CTX, .SENS_STREAM_PARAM,
   .SENS_STREAM_DELAY, .SENS_STREAM_LIMITS, .SENS_STREAM_MATCH, .SENS_STREAM_TSOFF, .SENS_STREAM_SLOT_SIZE,
   .SENS_STREAM_SLOT_BASE, .SENS_STREAM_STATUS, .SENS_STREAM_LATE_DROPS, .SENS_STREAM_FAULTS, .SENS_CNT_CLR,
   .SENS_TRIG_CTRL, .SENS_TRIG_TIMING, .SENS_FUSION_CFG, .SENS_FUSION_PERIOD, .SENS_FUSION_PHASE,
   .SENS_FUSION_GRID, .SENS_GROUP, .SENS_DEGRADE_CFG, .SENS_DEGRADE_STATUS, .TIME_NOW, .TIME_CFG, .TIME_STATUS,
   .PLAN_CFG] ++
  [.PLAN_CYCLE, .PLAN_CYCLE_PHASE, .PLAN_MARKERS, .PLAN_PROP_BUF, .PLAN_COST_W, .PLAN_STORE_BASE, .PLAN_OUT_BASE,
   .PLAN_STATUS, .PLAN_STAT, .PLAN_STAT_CLR, .MEM_MASTER_MAP, .MEM_ECC_CFG, .MEM_SPARE_CFG, .MEM_ADMIT_STATUS,
   .MEM_PART_CFG, .MEM_PART_RATE, .MEM_STALL_RATE, .MEM_PART_STAT, .MEM_PART_STAT_CLR, .MEM_WIN_BOOK,
   .MEM_PC_ECC, .MEM_PAIR_CFG, .MEM_PAIR_STATUS, .MEM_PAIR_XFER, .RING_CFG, .RING_IRQ, .RING_SQ_BASE,
   .RING_CQ_BASE, .RING_HEAD_WB, .RING_STATUS, .HUB_CFG_MARKER_OWNER, .HUB_CFG_MARKER_VAL, .HUB_CFG_GAUGE_STATUS,
   .HUB_CFG_GAUGE_FIRST_TIME, .HUB_CFG_GAUGE_CNT, .HUB_CFG_GAUGE_CLR, .SAFE_STATUS, .SAFE_ERRQ_STATUS,
   .SAFE_RESTART, .HUB_CFG_ERRLOG_BASE] ++
  [.HUB_CFG_ERRLOG_CFG, .HUB_CFG_ERRLOG_COUNT, .HUB_CFG_RETAIN_BASE, .HUB_CFG_RETAIN_SIZE, .HUB_CFG_SWATCH_CFG,
   .HUB_CFG_SWATCH_STATUS, .HUB_CFG_SWATCH_CNT, .HUB_CFG_SWATCH_CLR, .HUB_CFG_INJECT_STATUS, .SEC_SCAN_STATUS,
   .PWR_MODE_REQ, .PWR_STATUS, .PWR_DOMAINS, .PWR_PKG_LIMIT, .PWR_THERM_CFG, .PWR_SENT_CFG, .PWR_COOLANT,
   .PWR_WAKE_CFG, .PWR_WAKE_CAUSE, .PWR_WAKE_TARGET, .PWR_WEAR_STATUS, .SEC_LOCK, .SEC_BOOT_STATUS, .SEC_VERSION,
   .SEC_XFER_ADDR, .SEC_XFER_CTRL, .SEC_XFER_STATUS, .SEC_QUOTE_NONCE, .SEC_QUOTE_DEST, .SEC_QUOTE_CTRL,
   .SEC_DEBUG_CHALLENGE, .SEC_DEBUG_CTRL, .SEC_DEBUG_MAILBOX, .HUB_CFG_NM_CFG, .HUB_CFG_NM_STATUS,
   .HUB_CFG_STALL_CFG, .HUB_CFG_STALL_REGION, .HUB_CFG_STALL_STATUS, .HUB_CFG_STALL_CNT, .HUB_CFG_ID] ++
  [.HUB_CFG_CFG_ERROR, .PCIE_LINK_STATUS, .PCIE_FN_STATUS, .NET_MAC_CFG, .NET_MAC_ADDR, .NET_TC_MAP,
   .NET_MAC_CNT, .NET_CNT_CLR, .NET_QBV_CTRL, .NET_QBV_BASE, .NET_QBV_CYCLE, .NET_QBV_GCL, .NET_QAV,
   .NET_CAN_STATUS, .PWR_RAIL, .CD_PURL_STATUS, .CD_PURL_RETRY, .CD_PURL_CLR, .HUB_CFG_PURL_WH_RETRY,
   .HUB_CFG_PURL_WH_STATUS, .MSIX_TABLE, .MSIX_PBA]

/-- The rank of a field: its place in `Fld`. -/
def Fld.rank (f : Fld) : Nat := f.ctorIdx

/-- The key of a field's instance (i, j) in the register table of the state. -/
def Fld.key (f : Fld) (i j : Nat) : Nat := f.rank * 4294967296 + i % 65536 * 65536 + j % 65536

/-- The width of a field in bits. -/
def Fld.width (f : Fld) : Nat := f.spec.msb + 1 - f.spec.lsb

end Sys2Proof.Machine
end

