-- ==== Sys2Proof/Machine/Units.lean ====
section
/-!
DEFINITION. Machine/Units.lean: the plain data that the units of the block hold beside their registers: error records
and requests (06, 11), programs and iterations (02, 03, 04, 10), handover buffers (02), sensing and time (06), the
memory and its links (08), the rings and markers of the host interface (09). One structure per thing the spec names.
-/

namespace Sys2Proof.Machine

/-- The four modes (R2). -/
inductive Mode where
  | park | drive | nightMarket | service
deriving DecidableEq, Repr

/-- The mode's code in records and registers (Table 11.7). -/
def Mode.code : Mode → Nat
  | .park => 0 | .drive => 1 | .nightMarket => 2 | .service => 3

/-- The transition in progress (Table 0.1, R4), if any. -/
inductive Transition where
  | none
  /-- Boot or wake (Table 14.10), towards Drive, or Night Market when `toNight` (R432). -/
  | boot (toNight : Bool)
  /-- The Park sequence (R429). -/
  | park
  /-- Night-close (R475), from Drive or, after a wake, from Park. -/
  | nightClose
  /-- Day-open (R483, Table 15.4), with the row reached, Park as the goal when `thenPark`, and whether it is logged late. -/
  | dayOpen (row : Nat) (thenPark late : Bool)
  /-- Clearing of secrets before Service (R403). -/
  | clearing
deriving DecidableEq, Repr

/-! ## Error records and degradation requests -/

/-- An error record (Table 11.7) with the degradation request it carries (R377): source and step. -/
structure ErrRec where
  code : Nat
  sev : Nat
  injected : Bool
  unsequenced : Bool
  origin : Nat
  mode : Nat
  seq : Nat
  step : Nat
  handling : Nat
  detail0 : Nat
  time : Nat
  detail1 : Nat
  /-- The request the record carries: a source of Table 6.10 and a step. -/
  request : Option (Nat × Nat)
  /-- R378: the record already counts toward a pair of severity-3 records. -/
  paired : Bool
deriving DecidableEq, Repr

/-- The degradation requests (R209): one per source of Table 6.10, the step in force, the time of the last raise
and the lowerings deferred past it. -/
structure Degrade where
  req : List Nat
  step : Nat
  raisedAt : Option Nat
  deferred : List (Option Nat)
deriving DecidableEq, Repr

/-- The island error queue (R375 to R378): records stamped and under way, the queue, the records being handled (the
first in work, the rest pre-empted), and the records of severity 3 that may still form a pair. -/
structure ErrQueue where
  inFlight : List ErrRec
  queue : List ErrRec
  handling : List ErrRec
  /-- Detection time of the last counting record that is not part of a pair (R378). -/
  lastCounting : Option Nat
  notesBypassed : Nat
  preemptions : Nat
  maxDepth : Nat
  lastCode : Nat
  lastSev : Nat
deriving DecidableEq, Repr

/-! ## The fabric -/

/-- A command table entry (Table 2.5). -/
structure Command where
  id : Nat
  safety : Bool
  wideRerun : Bool
  rerunEntry : Bool
  start : Nat
  commit : Nat
  decision : Nat
  tiles : List Nat
  watch : Nat
deriving DecidableEq, Repr

/-- A handover table entry (Table 2.6). -/
structure Handover where
  bufId : Nat
  dir : Nat
  policy : Nat
  size : Nat
  hubOffset : Nat
  cmd : Nat
  booked : Nat
  tallySource : Nat
deriving DecidableEq, Repr

/-- A window booking entry (Table 8.2). -/
structure Window where
  cmd : Nat
  die : Nat
  dir : Nat
  target : Nat
  tile : Nat
  beat : Nat
  size : Nat
  tileOff : Nat
  addr : Nat
  /-- The window stands in an ALT section of condition kind 2 (Table 8.3). -/
  altRing : Bool
deriving DecidableEq, Repr

/-- A QUANT_PARAMS entry (Table 3.10) with the outlier list it names (Table 3.9). -/
structure Quant where
  cmd : Nat
  flags : Nat
  act : Nat
  wgt : Nat
  out : Nat
  rerun : Nat
  group : Nat
  src : Nat
  threshold : Nat
  actTensor : Nat
  wgtTensor : Nat
  outInv : Nat
  k : Nat
  outChannels : Nat
  actOff : Nat
  wgtOff : Nat
  statsOff : Nat
  groupStatsOff : Nat
  outScaleOff : Nat
  outGroup : Nat
  rerunGroup : Nat
  rerunActTensor : Nat
  rerunWgtTensor : Nat
  rerunActOff : Nat
  rerunWgtOff : Nat
  /-- The list's count, weight offset and channels; none when no list is named or it does not lie in the section. -/
  outliers : Option (Nat × Nat × List Nat)
deriving DecidableEq, Repr

/-- An ENGINE_PROGRAM entry (Table 4.2): a job of its command's group, on every die of the group (log 14). -/
structure Engine where
  cmd : Nat
  kind : Nat
  mode : Nat
  inFmt : Nat
  outFmt : Nat
  inW : Nat
  inH : Nat
  inC : Nat
  outC : Nat
  kw : Nat
  kh : Nat
  sx : Nat
  sy : Nat
  dx : Nat
  dy : Nat
  pad : Nat
  flags : Nat
  pl : Nat
  pr : Nat
  pt : Nat
  pb : Nat
  padValue : Nat
  outW : Nat
  outH : Nat
  rows : Nat
  slice : Nat
  outInv : Nat
  srcKind : Nat
  src : Nat
  dst : Nat
  start : Nat
  stop : Nat
  auxKind : Nat
  aux : Nat
  auxEntries : Nat
  gridW : Nat
  gridH : Nat
  black : List Nat
  gain : List Nat
  bias : Nat
  /-- The entry's 128 bytes. -/
  raw : List Byte
deriving DecidableEq, Repr

/-- An agreement entry of a PAIR_TABLE (Table 10.2). -/
structure Agree where
  cmd : Nat
  die : Nat
  tile : Nat
  off : Nat
  size : Nat
  beat : Nat
  firstUse : Nat
deriving DecidableEq, Repr

/-- A section of the container in effect after ALT substitution (Tables 2.3, 2.4). -/
structure Section where
  kind : Nat
  die : Nat
  tile : Nat
  alt : Bool
  condKind : Nat
  condMask : Nat
  bytes : List Byte
deriving DecidableEq, Repr

/-- The state of one command of an iteration (R59, R60, R66). -/
inductive CmdPhase where
  | idle | running | committed
  | failed (code : Nat)
  | killed
deriving DecidableEq, Repr

/-- What one copy of a command has counted: its layer statistics record (Table 3.12) and the group_clipped arrays of its
tiles (Table 3.8), keyed by (die·64 + tile)·65536 + group. -/
structure CmdStats where
  inClipped : Nat
  inTotal : Nat
  outClipped : Nat
  outTotal : Nat
  rerunInClipped : Nat
  nanCount : Nat
  groupClipped : Tbl Nat
deriving DecidableEq, Repr

/-- What a fresh command has counted. -/
def CmdStats.zero : CmdStats := ⟨0, 0, 0, 0, 0, 0, []⟩

/-- A queued stitch-marker operation of a pattern (R321). -/
structure MarkOp where
  set : Bool
  marker : Nat
  value : Nat
deriving DecidableEq, Repr

/-- A running engine job (R116): die and entry index, its steps done (output rows of channel slices, or grid table entries), the
stem's weight store (R125), the line buffer as (real row, its elements of the slice in work) (R128, R129), and the grid scatter sums,
keyed by cell · 256 + channel (R142). -/
structure Job where
  die : Nat
  entry : Nat
  done : Nat
  weights : List Nat
  lines : List (Nat × List Nat)
  sums : Tbl Nat
deriving DecidableEq, Repr

/-- Data on its way to a command's tiles (R48 to R50, R274): the beat at which it is usable, the purl links that it crosses (0-5 ring,
6-11 hub), whether a window brings it, its bytes at their device addresses, and its NQ4 codes at twice theirs, plus 1 for bits [7:4]. -/
structure Arrival where
  due : Nat
  links : List Nat
  window : Bool
  cells : List (Nat × List Byte)
  nibbles : List (Nat × Nat)
  /-- The die and tile whose port sends it, when a tile does. -/
  sender : Option (Nat × Nat)
deriving DecidableEq, Repr

/-- A gauge comparison of an iteration that has not been reported (R340, R341): command, kind (0 chunk, 1 signature set),
index (window · 8192 + chunk), when the first copy's value arrived, and the chunk values that have (R337). -/
structure Covering where
  cmd : Nat
  kind : Nat
  index : Nat
  first : Nat
  values : List Nat
deriving DecidableEq, Repr

/-- An entry of a batch's length table (Table 5.4) with its status byte (R153). -/
structure KvEntry where
  seq : Nat
  qPos : Nat
  qCount : Nat
  status : Nat
deriving DecidableEq, Repr

/-- An attention command's layer descriptor (Table 5.1) and length table, as checked at its start beat (R149, R152). -/
structure Attn where
  layer : List Byte
  entries : List KvEntry
deriving DecidableEq, Repr

/-- A page that an attention command holds in shadow (R164): sequence, layer, page index, page number. -/
structure ShadowPage where
  seq : Nat
  layer : Nat
  page : Nat
  phys : Nat
deriving DecidableEq, Repr

/-- A new token's latent row as converted (R155) by a copy (R173): entry, token of the entry, element codes. -/
structure NewRow where
  secondary : Bool
  entry : Nat
  token : Nat
  codes : List Nat
deriving DecidableEq, Repr

/-- A command's run within an iteration: its phase, the copies that re-ran (bit 0 primary, bit 1 secondary), the data its
windows brought, its shadow storage (R59), the data on its way, what each copy has counted, the engine counters per die (2·die
centre-only jobs, 2·die + 1 clipped stem elements), what each tile's arithmetic units have done of what their rates allow (Table 2.1,
key (die·64 + tile)·4 + unit), its marker operations, jobs and signatures (key (q·8 + die)·64 + tile, R338), and what an attention
command holds (R164, R165), with the number of query rows whose gradients each tile and head has gathered (R159, key (die·64 + tile)·128 + head). -/
structure CmdRun where
  phase : CmdPhase
  began : Option Nat
  ended : Option Nat
  rerun : Nat
  decided : Bool
  inputs : Tbl (Option Byte)
  shadow : Tbl (Option Byte)
  stats : List CmdStats
  arrivals : List Arrival
  engineCounts : Tbl Nat
  used : Tbl Nat
  marks : List MarkOp
  jobs : List Job
  sigs : Tbl Nat
  attn : Option Attn
  pages : List ShadowPage
  rows : List NewRow
  backRows : Tbl Nat
  /-- Agreement digests of the primary and the partner die (R333), per entry. -/
  digests : List (Nat × List Byte × List Byte)
  /-- Agreement entries whose verdict has come (R335). -/
  verdicts : List Nat
  /-- What the command's tiles held at the beginning of the last beats, newest first: beat, inputs and shadow. Engines have it 12 beats later
  (R48). -/
  past : List (Nat × Tbl (Option Byte) × Tbl (Option Byte))
  /-- The rows of 256 bytes of tile SRAM that its units have read (R44). -/
  reads : List Nat
deriving DecidableEq, Repr

/-- A command that has not started. -/
def CmdRun.fresh : CmdRun :=
  { phase := .idle, began := none, ended := none, rerun := 0, decided := false, inputs := [], shadow := [],
    stats := [CmdStats.zero, CmdStats.zero], arrivals := [], engineCounts := [], used := [], marks := [], jobs := [], sigs := [],
    attn := none, pages := [], rows := [], backRows := [], digests := [], verdicts := [], past := [], reads := [] }

/-- What names a fetched descriptor for good: its ring's key and its place in the order of all fetches. -/
structure Ticket where
  ring : Nat
  order : Nat
deriving DecidableEq, Repr

/-- An iteration of a started program (R42, R303, R304). -/
structure Iteration where
  number : Nat
  start : Nat
  /-- The entry's first beat: commands that start before it do not run (R70). -/
  entryBeat : Nat
  entry : Nat
  runs : List CmdRun
  covering : List Covering
  /-- Code, command_id and severity of the first failure. -/
  failure : Option (Nat × Nat × Nat)
  killed : Bool
  /-- Windows that have moved their data: index, and the half an outbound one fills. -/
  served : List (Nat × Nat)
  /-- Outbound windows whose write is complete (R58). -/
  written : List Nat
  /-- Handover reads: entry index, status word, and the device address read, none for zeros (R56, R57). -/
  reads : List (Nat × Nat × Option Nat)
  /-- Pairs in their warm-up in this iteration, as a mask (R350). -/
  warm : Nat
  /-- The page manager started it again after a starvation (R170). -/
  reissued : Bool
  /-- The fusion instant its stream-backed reads read for (R198). -/
  instant : Option Nat
  /-- Pairs that are split in this iteration, as a mask (R347). -/
  split : Nat
  /-- A mismatch made its outputs invalid (R342). -/
  invalid : Bool
  /-- A covering verdict has been reported as a mismatch (R304). -/
  differed : Bool
deriving DecidableEq, Repr

/-- A START in force (R303 to R305). -/
structure Running where
  /-- The descriptor to complete, if any (R373). -/
  desc : Option Ticket
  /-- iterations of Table 9.8, none for 0: until stopped. -/
  total : Option Nat
  left : Option Nat
  cont : Bool
  iterMarker : Option Nat
  barrier : Option (Nat × Nat)
  startAfter : Nat
  entry : Nat
  /-- Beat of the next iteration's start; none while a barrier holds it. -/
  next : Option Nat
  count : Nat
  ended : Nat
  failure : Option (Nat × Nat × Nat)
  stopped : Bool
  iters : List Iteration
  /-- Kills that descriptors asked for: each with its kill beat and the KILL (R66, R306). -/
  kill : List (Nat × Ticket)
  /-- A command skipped entries of its batch (R153). -/
  skipped : Bool
  /-- Status and severity to complete with when the iterations in hand end (R411, R478). -/
  final : Option (Nat × Nat)
  /-- The first failure of a command so far in event-arbiter order (R305): code, command_id and severity. -/
  first : Option (Nat × Nat × Nat)
deriving DecidableEq, Repr

/-- A change of pairing that waits for a program's boundary (R347): a SPLIT or a JOIN, the pairs named, the beat from which
an iteration start is the boundary, and the descriptor. -/
structure PairChange where
  split : Bool
  mask : Nat
  after : Nat
  desc : Ticket
deriving DecidableEq, Repr

/-- A warm-up of joined pairs (R350, Table 10.6): the JOIN that waits for its end (none when it completed before the next
START), the pairs as a mask, and the iterations still to start in it. -/
structure Warmup where
  desc : Option Ticket
  mask : Nat
  left : Nat
deriving DecidableEq, Repr

/-- A program slot (Table 9.2, R301, R268). `sections` are those in effect (R46), the tables are read from them. -/
structure Program where
  fn : Nat
  slot : Nat
  order : Nat
  safety : Bool
  periodic : Bool
  stochastic : Bool
  hasRerun : Bool
  pairMask : Nat
  iterBeats : Nat
  period : Nat
  seed : Nat
  digest : List Byte
  container : List Byte
  /-- Iterations begun since it was loaded: the number of the next one. -/
  begun : Nat
  /-- Iterations that a kill ended and whose committed commands still have windows to move (R58, R67). -/
  tail : List Iteration
  commands : List Command
  handovers : List Handover
  windows : List Window
  sections : List Section
  markers : List Nat
  relay : Bool
  retained : Bool
  running : Option Running
  /-- It is shed while commands of it commit at the present beat, after which it leaves its slot (R67, R268). -/
  doomed : Bool
  /-- Mask of the pairs of this program that are split at present (R347). -/
  split : Nat
  /-- Pair changes that wait for their boundary, in the order of their start (R347). -/
  changes : List PairChange
  /-- The warm-ups of JOINs, oldest first (R350). -/
  warm : List Warmup
  /-- Iterations in a row without a failed command and with every verdict agreement (R209, Table 10.4). -/
  agreeRun : Nat
  /-- Iterations this program completed with gauge agreement since the last main-path start (Table 11.6). -/
  agreedSinceStart : Bool
  quants : List Quant
  engines : List Engine
  agrees : List Agree
  warmupIters : Nat
  mirrorDelta : Nat
  /-- Shed for power: a START of it is refused (R411). -/
  powerShed : Bool
deriving DecidableEq, Repr

/-- What a program slot holds. -/
inductive Slot where
  | empty
  | shed
  | loaded (p : Program)
deriving DecidableEq, Repr

/-- A half of a handover buffer (R55, R521). -/
structure Half where
  gen : Nat
  ready : Bool
  /-- Order of the fill that completed it (R55: the newer half is the one whose fill completed later). -/
  filled : Nat
  /-- Taken by a COPY that still runs (R309). -/
  held : Bool
  /-- Waiting for the gauge verdict of the write (R342). -/
  pendingVerdict : Bool
  /-- The verdict was a mismatch, so the half may not be used (R35). -/
  invalid : Bool
  /-- A paired command wrote it and the gauge agreed (Table 6.7). -/
  agreed : Bool
  /-- Its fused result has been released (R206). -/
  released : Bool
  /-- Bytes the fabric wrote (Table 6.7, payload_size counts from byte 128). -/
  bytes : Nat
  /-- The fusion instant of the iteration that wrote it. -/
  instant : Option Nat
  /-- The iteration of its program that wrote it. -/
  iter : Option Nat
deriving DecidableEq, Repr

/-- An empty half. -/
def Half.zero : Half := ⟨0, false, 0, false, false, false, false, false, 0, none, none⟩

/-- A handover buffer declared by a loaded program (R55 to R58). -/
structure Buffer where
  entry : Handover
  fn : Nat
  slot : Nat
  gen : Nat
  fills : Nat
  halves : List Half
  /-- The half the fabric read last (R56). -/
  lastRead : Option Nat
deriving DecidableEq, Repr

/-- A task watch (R72). -/
structure Watch where
  armed : Bool
  cmd : Nat
  fn : Nat
  slot : Nat
  iter : Nat
  index : Nat
  expStart : Nat
  expCommit : Nat
  start : Option Nat
  commit : Option Nat
deriving DecidableEq, Repr

/-- A watch that is not armed. -/
def Watch.zero : Watch := ⟨false, 0, 0, 0, 0, 0, 0, 0, none, none⟩

/-- What the patterns of a container have shown of themselves (R71, R77): by sections_digest, the ALT condition in effect, the command's
index and the die, the beats (from the iteration start) up to which the bundles have been issued once, and those that held operations,
as (beat, tile, operations). A re-run issues them again. -/
structure Shown where
  digest : List Byte
  placement : Nat
  cmd : Nat
  die : Nat
  upTo : Nat
  issued : List (Nat × Fin 40 × List TileOp)
deriving DecidableEq, Repr

/-- A fabric write on its way over a hub purl link (R50): the beat at which it is complete in its target, the die it comes from, its
target address and bytes. -/
structure Outgoing where
  due : Nat
  die : Nat
  addr : Nat
  bytes : List Byte
deriving DecidableEq, Repr

/-- A container kept in the retain area (R373): its slot, its place and size there, and the START to take up again. -/
structure Retained where
  slot : Nat
  offset : Nat
  bytes : List Byte
  start : Option Running
deriving DecidableEq, Repr

/-- The fabric beside its registers: the beat counter (R41), the beat step (R25), a decided change (R74: step and
boundary), per die on or off (R27, R54), the physical tile map of R52 held in registers, the vector registers and the
generators of each tile (R40, R112), the buffers and the watches, and the program slots of every function. -/
structure Fabric where
  beat : Nat
  step : Nat
  pendingStep : Option (Nat × Nat)
  dieOn : List Bool
  vregs : Tbl Nat
  accs : Tbl Nat
  sregs : Tbl Nat
  gens : Tbl Nat
  buffers : Tbl (Option Buffer)
  watches : Tbl Watch
  slots : Tbl Slot
  loadOrder : Nat
  /-- Tiles marked for repair (R53): die and physical tile. -/
  repairs : List (Nat × Nat)
  /-- Failing SRAM rows of tiles so marked whose every fault is in such a row (R54, R386): die, physical tile, bank, row. -/
  rowFaults : List (Nat × Nat × Nat × Nat)
  /-- The row repairs made in the field, as entries of Table 14.6. -/
  rowRepairs : List Nat
  /-- Physical tiles found faulty in the field (R445): die and tile. -/
  faulty : List (Nat × Nat)
  /-- The ring links that the last main-path start left cut (R46, R273), as a mask. -/
  cut : Nat
  retained : List Retained
  /-- Logical tiles (die, tile) whose SRAM holds data that a COPY placed there (R406). -/
  copied : List (Nat × Nat)
  outgoing : List Outgoing
deriving DecidableEq, Repr

/-- The gauge units beside their registers (R343 to R349): the program that mismatched, when, the physical tiles (die, tile)
whose targeted swatch has not passed, the beat of the pass; per PF slot, the pairs that the accepted SPLITs and JOINs leave split and
those split at present (R347); the pairs held split by R349; JOINs whose resync runs (R350: descriptor, pairs, slot, instant);
and the scope-1 JOINs that wait for their boundary (R351). -/
structure Gauge where
  fn : Nat
  slot : Nat
  since : Nat
  targets : List (Nat × Nat)
  passBeat : Nat
  goals : List Nat
  splits : List Nat
  forced : Nat
  resync : List (Ticket × Nat × Nat × Nat)
  package : List Ticket
deriving DecidableEq, Repr

/-- No mismatch, every pair joined. -/
def Gauge.zero : Gauge := ⟨0, 0, 0, [], 0, List.replicate 16 0, List.replicate 16 0, 0, [], []⟩

/-! ## Swatches (12) -/

/-- A running slice (R388): when it and its budget began, the budget's end, and its guard: a beat for a beat-clocked slice,
a time otherwise. `returned` once the slice itself has ended (R385). -/
structure SliceRun where
  ref : SliceRef
  began : Nat
  due : Nat
  guard : Nat
  returned : Bool
deriving DecidableEq, Repr

/-- The swatch scheduler (R386 to R398): running slices, slices whose last run differed and those last aborted at the end of
their budget, the slices passed since each target's coverage, when each target was covered, the targets whose lapse is
logged, whether a full pass runs and the targets that it has still to cover (R397), whether LANE and THERMAL slices are suspended, and the injections (row of Table 12.5, instance) that were not
reported. -/
structure Swatch where
  running : List SliceRun
  differed : List SliceRef
  aborted : List SliceRef
  passed : List SliceRef
  covered : Tbl Nat
  late : List Nat
  fullPass : Bool
  toCover : List Nat
  suspended : Bool
  unreported : List (Nat × Nat)
  /-- Sensor ports whose CRC checker did not report: 0-15 CSI-2, 16-21 MACs (Table 12.5, row 9). -/
  badPorts : List Nat
  /-- The pair link is held DOWN (Table 12.5, row 8). -/
  pairHeld : Bool
  /-- When Drive was entered (R395). -/
  drivenAt : Nat
  /-- Slices booked for a purpose: THERMAL slices of a pair that stayed suspect (R422). -/
  booked : List SliceRef
  /-- The 128-bit signature last compared (R384, R385). -/
  signature : Nat
  /-- When the injections of a main-path start began, while they run (R399). -/
  injecting : Option Nat
  /-- Dies whose ENGINE swatch failed: switched off at the next main-path start (Table 12.3). -/
  engines : List Nat
deriving DecidableEq, Repr

/-- No slice runs. -/
def Swatch.zero : Swatch := ⟨[], [], [], [], [], [], false, [], false, [], [], false, 0, [], 0, none, []⟩

/-! ## Boot (14) -/

/-- A measurement log (R457): its chain, the number of entries, and the entries stored. -/
structure Log where
  chain : List Byte
  count : Nat
  stored : List (List Byte)
deriving DecidableEq, Repr

/-- A log just opened: its chain is 32 zero bytes. -/
def Log.zero : Log := ⟨List.replicate 32 0, 0, []⟩

/-- A quote being made (R458): what SEC_QUOTE_CTRL, SEC_QUOTE_DEST, SEC_QUOTE_NONCE and the log named held when GO was written. -/
structure Quote where
  stall : Nat
  devrec : Bool
  withLog : Bool
  dest : Nat
  nonce : List Byte
  log : Log
deriving DecidableEq, Repr

/-- What the boot sequence leaves in force beside the registers (14): the valid configuration record, the factory part, the
valid field part and the image header (empty when there is none), whether the device has stopped, the levels of the strap
balls ([1:0] BOOT_SRC, [2] HOST_PRESENT, [3] PAIR_ROLE, [4] SAFE_ALONE), whether the PUF still yields its secret (R404), when
Evfin started, flash content being written (offset, bytes, whether a record goes with it), the quote being made, the
accesses that an accepted token opened, the IEEE 1149.1 instruction in force, whether the hub die is out of reset, the seed of the identity key
(R453) while the device holds one, the rails VIN_CORE, VIN_HBM, VIN_IO and VAON in range (Table 13.1), how far the boot has come (0 not
booting or done, 1 waiting for an image of the host, 2 waiting for rails, 3 debug window, 4 main-path start), whether WHA_RST_N, WHB_RST_N and PERST_N
are released, and the stores of R403 that hold more than zeros, as a mask (0 PUF SRAM and seed registers, 1 private key and working state,
2 stall keys, session keys and signing state, 3 the key area of hub SRAM, 4 the scratch SRAM of the security engine). -/
structure Boot where
  config : List Byte
  factory : List Byte
  field : List Byte
  header : List Byte
  stopped : Bool
  straps : Nat
  puf : Bool
  evfin : Option Nat
  writing : Option (Nat × List Byte)
  quoting : Option Quote
  scope : Nat
  jtag : Nat
  hub : Bool
  seed : Option (List Byte)
  rails : List Bool
  stage : Nat
  released : List Bool
  stores : Nat
  /-- VIN_WHA has been removed since WHA last ran: its next start is a power-up, which finds the PUF's secret again (R404). -/
  whaCycled : Bool
deriving DecidableEq, Repr

/-- Nothing booted. -/
def Boot.zero : Boot := ⟨[], [], [], [], false, 0, true, none, none, none, 0, 0, false, none,
  List.replicate 4 true, 0, [false, false, false], 0, false⟩

/-! ## Key-value pools (05) -/

/-- An OPEN sequence (Table 5.8) with its page tables: per layer, the page numbers from page 0 to the last allocated page,
a released page as 0xFFFFFFFE (R160). -/
structure Seq where
  cls : Nat
  pinned : Bool
  truncated : Bool
  length : Nat
  alloc : Nat
  truncAt : Nat
  reserve : Nat
  lastAppend : Nat
  held : Nat
  tables : List (List Nat)
deriving DecidableEq, Repr

/-- A starvation that is being served (R170): the program's function and slot, the layer-0 command, the pages reserved for it, the drops (sequence and
pages kept), whether they are done, the beat of the re-issue, and the entry it starts from. -/
structure Starved where
  fn : Nat
  slot : Nat
  cmd : Nat
  need : Nat
  drops : List (Nat × Nat)
  done : Bool
  at_ : Option Nat
  entry : Nat
deriving DecidableEq, Repr

/-- A page pool (Table 5.6) with its free pages in ascending order and its PAGE descriptors held by R148. -/
structure Pool where
  die : Nat
  safety : Bool
  autoRelease : Bool
  pages : Nat
  width : Nat
  fmt : Nat
  layers : Nat
  maxSeqs : Nat
  maxPages : Nat
  stall : Nat
  window : Nat
  prefix_ : Nat
  victims : List Nat
  base : Nat
  mirror : Nat
  appends : Nat
  free : List Nat
  seqs : Tbl (Option Seq)
  starved : List Starved
  held : List Ticket
deriving DecidableEq, Repr

/-! ## Sensing and time -/

/-- The state of a frame slot (R182). `complete` items wait for their instant (R199). -/
inductive SlotPhase where
  | free | filling | complete | ready | held
deriving DecidableEq, Repr

/-- A frame slot with the frame record of Table 6.2. -/
structure FrameSlot where
  phase : SlotPhase
  gen : Nat
  order : Nat
  instant : Nat
  edge : Nat
  bytes : Nat
  number : Nat
  fuse : Bool
  missedBefore : Bool
  delta : Int
deriving DecidableEq, Repr

/-- A free slot. -/
def FrameSlot.zero : FrameSlot := ⟨.free, 0, 0, 0, 0, 0, 0, false, false, 0⟩

/-- A frame on its way in (R194, R195). -/
structure Frame where
  ref : Nat
  number : Nat
  edge : Option Nat
  delta : Int
  missedBefore : Bool
  bytes : Nat
  packets : Nat
  slot : Option Nat
  /-- The code of the first plausibility failure (R202). -/
  failed : Option Nat
  /-- Arrived during a re-arm hold, or misaligned: taken to its end and not counted again (R195, R196). -/
  discard : Bool
  /-- The first embedded-data line of its virtual channel has come (R194). -/
  lineSeen : Bool
  exposure : Option Nat
deriving DecidableEq, Repr

/-- What a stream context holds beside its registers (R182, R195, R201). -/
structure Context where
  anchored : Bool
  kPrev : Nat
  fnPrev : Nat
  frame : Option Frame
  slots : List FrameSlot
  gen : Nat
  order : Nat
  lastRead : Option Nat
  lost : Bool
  unsync : Bool
  suspect : Bool
  late : Bool
  run : Nat
  misaligned : Nat
  plaus : List Bool
  lateHist : List (Nat × Bool)
  lowScores : Nat
  lowSinceZero : Bool
  lastStart : Nat
  prevExposure : Nat
  score : Nat
  missed : Bool
  linkUp : Bool
deriving DecidableEq, Repr

/-- A context that is not enabled. -/
def Context.zero : Context :=
  ⟨false, 0, 0, none, [FrameSlot.zero, FrameSlot.zero, FrameSlot.zero], 0, 0, none,
   false, true, false, false, 0, 0, [], [], 0, false, 0, 0, 0, false, true⟩

/-- A trigger line (R190 to R193): driven since first enabled, the earliest time its next edge may have, the index of the last edge, with
the PERIOD and PHASE it was counted in, the index that a backward step bars with all below it (R192), a pulse in progress with its end,
and the end of a re-arm hold. -/
structure Trigger where
  driven : Bool
  earliest : Nat
  lastEdge : Option Nat
  timing : Nat × Nat
  barred : Option Nat
  pulseEnd : Option Nat
  holdEnd : Option Nat
  /-- The last stretches of time whose edges were not generated, as (after, up to): re-arm holds (R193) and forward steps (R192). -/
  gaps : List (Nat × Nat)
deriving DecidableEq, Repr

/-- A line never enabled. -/
def Trigger.zero : Trigger := ⟨false, 0, none, (0, 0), none, none, none, []⟩

/-- Sensing beside its registers (06). -/
structure Sensing where
  contexts : Tbl Context
  triggers : Tbl Trigger
  /-- The instant reached by FUSION_INSTANT (R197), if any. -/
  instant : Option Nat
  /-- Contexts that delivered a fresh fused record for an instant, and those excluded at the read (Table 6.7). -/
  fused : List (Nat × Nat)
  excluded : List (Nat × Nat)
  /-- The value that the sensing step computes to, and since when without interruption (R209). -/
  lowerSince : Option (Nat × Nat)
  /-- The last released fused result: instant and output time (R34). -/
  released : Option (Nat × Nat)
  /-- The instant of the latest frame inputs that the fabric has read (R34, R215). -/
  readInstant : Option Nat
  /-- Packets waiting in the control cluster's receive queue (R177). -/
  clusterQueue : List (Nat × List Byte)
deriving DecidableEq, Repr

/-- The time base beside its count (R186 to R188): state, the count of good Syncs, when the last Sync came and when
HOLDOVER began, the last 802.1CB sequence number, the offset to remove by slewing, and the link delay. -/
structure TimeBase where
  state : Nat
  good : Nat
  lastSync : Option Nat
  /-- When the last Sync was taken that no other path had brought before. -/
  lastTaken : Option Nat
  /-- TIME_OFFSET_LARGE stands logged for the offset in Drive (R188). -/
  largeLogged : Bool
  holdSince : Nat
  cbSeq : Option Nat
  offset : Int
  freqAdj : Int
  slew : Int
  /-- The interval between the last two Syncs taken, and whether this acquisition has stepped already (R188). -/
  interval : Nat
  stepped : Bool
  delays : List Nat
  pdelayAnswers : Nat
deriving DecidableEq, Repr

/-! ## Memory, links and regulation -/

/-- A waiting or issued request of a regulated master (R257 to R260). -/
structure Request where
  id : Nat
  master : Nat
  stall : Nat
  addr : Nat
  size : Nat
  write : Bool
  /-- Deadline in time-base ns, if the request carries one. -/
  deadline : Option Nat
  minimum : Bool
  left : Nat
  order : Nat
  /-- Partition it left (15 for a stall's). -/
  part : Nat
  /-- Pseudo-channels that still serve granules of it. -/
  todo : List Nat
deriving DecidableEq, Repr

/-- A regulator (R257, R258), of a partition 0 to 14 or of a stall. -/
structure Regulator where
  tokens : Nat
  credit : Nat
  waiting : List Request
  lastMiss : Option Nat
  lastHigh : Option Nat
deriving DecidableEq, Repr

/-- A guarantee that can be shed (R267, R268): a partition minimum, a stall minimum, a program of a function. -/
inductive Guarantee where
  | partMin (n : Nat)
  | stallMin (s : Nat)
  | program (fn slot : Nat)
deriving DecidableEq, Repr

/-- A stack (R255): last temperature, doubled refresh, cool since, a decided change. -/
structure Stack where
  temp : Int
  doubled : Bool
  coolSince : Option Nat
  pending : Option Bool
deriving DecidableEq, Repr

/-- A pseudo-channel beside its counters (R246 to R250). -/
structure Channel where
  /-- Times of the corrected bursts of the last second (R249). -/
  recent : List Nat
  lastCe : Option Nat
  /-- The spare slot it is retired to and the granules copied so far. -/
  spare : Option Nat
  copied : Nat
deriving DecidableEq, Repr

/-- A pseudo-channel in service. -/
def Channel.zero : Channel := ⟨[], none, none, 0⟩

/-- What a regulated master has been told last (R243, R247): its request, whether with an error, and the data of a read. -/
structure Answer where
  id : Nat
  error : Bool
  data : List Byte
deriving DecidableEq, Repr

/-- The memory system beside its registers (08). -/
structure MemSys where
  regs : Tbl Regulator
  /-- Requests that have left a regulator and wait for command slots (R259), and those served but not complete. -/
  queue : List Request
  issued : List Request
  nextId : Nat
  /-- Per pseudo-channel, the partition served last (R259). -/
  lastPart : Tbl Nat
  shed : List Guarantee
  safetyUnmet : Bool
  hbmStacks : List Stack
  channels : Tbl Channel
  scrub : Nat
  poisoned : List Nat
  /-- Refreshes made, at pseudo-channel · 65536 + bank, and per pseudo-channel the next bank of its rotation with the last beat (plus 1)
  at which one was made (R254). -/
  refreshes : Tbl Nat
  rotation : Tbl (Nat × Nat)
  /-- Values still in effect until the next refill (R262), by field key. -/
  inEffect : List (Nat × Nat)
  /-- Purl links 0-5 ring, 6-11 hub, 12-13 Weighhouse: in service (R272). -/
  linkUp : List Bool
  /-- The last answer to each master, at master + 16 · stall. -/
  answers : Tbl (Option Answer)
deriving DecidableEq, Repr

/-- What an output ball does (R499): it drives low or high, or it is high-impedance and has the level of its board resistor (R501). -/
inductive Ball where
  | low | high | highZ
deriving DecidableEq, Repr

/-- A cross-package barrier (R282), with the times of both ARRIVEs. -/
structure Barrier where
  ownGen : Option Nat
  peerGen : Option Nat
  peerAt : Nat
  armedAt : Nat
  release : Option Nat
  fn : Nat
  slot : Nat
deriving DecidableEq, Repr

/-- A transfer of the pair link (R281): the half being sent and the bytes sent of it; the buffer and half being filled; and the inbound
buffer that the peer's transfer of this number feeds, once it has shown itself. -/
structure Xfer where
  sending : Option (Nat × Nat)
  receiving : Option (Nat × Nat)
  feeds : Option Nat
  /-- A kill ended the half being filled: what is on its way of it is passed over, up to the first bytes of another (R283). -/
  dropping : Bool
deriving DecidableEq, Repr

/-- A transfer that has moved nothing. -/
def Xfer.zero : Xfer := ⟨none, none, none, false⟩

/-- A flit (Table 8.7): its type, flags, sequence number, ack, credits and body, without the trailing zeros of the body. -/
structure Flit where
  kind : Nat
  nak : Bool
  ackValid : Bool
  seq : Nat
  ack : Nat
  credits : Nat
  body : List Byte
deriving DecidableEq, Repr

/-- A sequenced flit in the replay buffer (R277): its sequence number, type and body, and how often it has been resent. -/
structure Replay where
  seq : Nat
  kind : Nat
  body : List Byte
  resends : Nat
deriving DecidableEq, Repr

/-- What the 8 lanes carry in one block time (R275): the 16 scrambled bytes of each lane's data block, or a control block of a type on
every lane. -/
inductive Block where
  | data (lanes : List (List Byte))
  | control (type : Nat)
deriving DecidableEq, Repr

/-- The pair link beside its registers (R275 to R285). -/
structure PairLink where
  /-- 0 DOWN, 1 TRAINING, 2 UP, 3 ALIGNED. -/
  state : Nat
  /-- Rows of Table 8.9 reached in this attempt: 0 none, 1 TRAIN_A locked, 2 TRAIN_B done. -/
  phase : Nat
  lastAttempt : Option Nat
  failures : Nat
  failLogged : Bool
  nextSeq : Nat
  inOrder : Nat
  replay : List Replay
  /-- Sequenced flits, type and body, that wait for a place in the replay buffer or for a credit. -/
  backlog : List (Nat × List Byte)
  /-- Flits that the peer's receive buffer still takes, and flits of the own one freed since the last report. -/
  credits : Nat
  freed : Nat
  /-- Is `inOrder` the number of a flit received? -/
  ackValid : Bool
  nak : Bool
  lastGood : Nat
  peerRole : Bool
  peerMode : Nat
  peerStep : Nat
  peerBeatStep : Nat
  peerAuthority : Nat
  lastTimeSent : Option Nat
  lastTimeRecv : Nat
  lastTimeRecvAt : Nat
  alignedRun : Nat
  offset : Int
  trim : Int
  advisory : Bool
  barriers : Tbl (Option Barrier)
  xfers : Tbl Xfer
  aborted : List (Nat × Nat)
  /-- Flits sent, and the blocks of the lanes with them: the data blocks since the last SKIP and the state of each lane's scrambler. -/
  sent : List Flit
  wire : List Block
  blocks : Nat
  scramblers : List Nat
  /-- SKIP blocks dropped or repeated to absorb the clock difference (R275). -/
  skips : Nat
deriving DecidableEq, Repr

/-! ## The planning engine (07) -/

/-- A candidate taken in a cycle: its index, its block's base_time and its 1,040 bytes (Table 7.5). -/
structure Candidate where
  index : Nat
  base : Nat
  raw : List Byte
deriving DecidableEq, Repr

/-- An entry of the frontier queue (R231), with its block's base_time, its slot of the candidate store (R233) and the lane that found
it free (R235). -/
structure Frontier where
  key : Nat
  index : Nat
  base : Nat
  slot : Nat
  lane : Nat
deriving DecidableEq, Repr

/-- The plan cycle in progress (R213 to R220): its number and start, whether its selection has run, whether it is stale, its
epoch, the indices taken and the candidates checked. -/
structure PlanCycle where
  number : Nat
  start : Nat
  selected : Bool
  stale : Bool
  epoch : Nat
  taken : List Nat
  checked : Nat
deriving DecidableEq, Repr

/-- A candidate to publish, or one that a next cycle may keep (R234): the cycle that published it, its key, its block's base_time, its
slot of the candidate store and the lane whose verdict is relied on. -/
structure Published where
  cycle : Nat
  key : Nat
  index : Nat
  base : Nat
  slot : Nat
  lane : Nat
deriving DecidableEq, Repr

/-- A collision that a check recorded (R227): the candidate, the pose, and the primitive (none where the pose is off grid). -/
structure Found where
  index : Nat
  pose : Nat
  prim : Option Nat
deriving DecidableEq, Repr

/-- The planning engine beside its registers (07): the states of the two snapshot buffers (0 WRITABLE, 1 BUILDING, 2 STANDBY,
3 ACTIVE), their epochs and when their builds completed; the buffer granted last; the highest epoch; the first cycle to run
(R213); the cycle; the candidates that wait for a lane and those in the 64 lanes; the lanes out of service (R240); the
frontier queue; the last published plan; keep_count and the run of winners (R234, R237); whether its D4 request and that of a
withheld publication stand; the collisions recorded in the cycle (R227); and the lanes of the last final check, the one relied on and
the one that checked again (R235). -/
structure Planner where
  states : List Nat
  epochs : List Nat
  built : List Nat
  granted : Option Nat
  top : Nat
  first : Nat
  cycle : Option PlanCycle
  waiting : List Candidate
  lanes : List (Option Candidate)
  out : List Nat
  queue : List Frontier
  prev : Option Published
  keep : Nat
  run : Nat
  d4 : Bool
  mismatch : Bool
  found : List Found
  final : Option (Nat × Nat)
  /-- Its TAKE of PUBLISH_MARKER was served after a wait (R217, R322). -/
  taken : Bool
deriving DecidableEq, Repr

/-- The planning engine after a reset: no buffer granted, every lane in service. -/
def Planner.zero : Planner :=
  ⟨[0, 0], [0, 0], [0, 0], none, 0, 0, none, [], List.replicate 64 none, [], [], none, 0, 0, false, false, [], none, false⟩

/-! ## Stalls -/

/-- The state of a stall (15). -/
inductive StallPhase where
  | closed | opening | open_ | draining | closing
deriving DecidableEq, Repr

/-- Its code in HUB_CFG_STALL_STATUS. -/
def StallPhase.code : StallPhase → Nat
  | .closed => 0 | .opening => 1 | .open_ => 2 | .draining => 3 | .closing => 4

/-- A CHECKPOINT of a stall (R476): its descriptor, whether DRAIN is set, and from the boundary on, the boundary's time and
sequence number. -/
structure Ckpt where
  desc : Ticket
  drain : Bool
  boundary : Option (Nat × Nat)
deriving DecidableEq, Repr

/-- What a stall owns (R461): its region in HBM, in units of 64 MiB, and its tile quarters. -/
structure StallArea where
  base : Nat
  size : Nat
  quarters : Nat
deriving DecidableEq, Repr

/-- A stall beside its registers (15). -/
structure Stall where
  phase : StallPhase
  /-- A drain is in force: no program starts another iteration (R478). -/
  draining : Bool
  /-- When programs that have not ended are killed (R466, Table 15.4). -/
  drainBy : Option Nat
  /-- Shed for power: no program starts an iteration (R480). -/
  powerShed : Bool
  ckpt : Option Ckpt
  /-- Checkpoints since it opened (Table 15.2). -/
  sequence : Nat
  /-- The key in its key slot (R465, R466). -/
  key : Option Nat
  /-- Its last log, quotable until it opens again or Day-open completes (R466). -/
  log : Log
  /-- Its region waits for the scrub of Day-open (Table 15.4). -/
  scrub : Bool
  /-- What it owned when it began to close: its registers may be written from then on (R466, R467). -/
  held : Option StallArea
deriving DecidableEq, Repr

/-- A stall that is CLOSED. -/
def Stall.zero : Stall := ⟨.closed, false, none, false, none, 0, none, Log.zero, false, none⟩

/-! ## Host interface -/

/-- The state of a ring (R292). -/
inductive RingPhase where
  | disabled | active | draining | stopped
deriving DecidableEq, Repr

/-- The phase's code in RING_STATUS. -/
def RingPhase.code : RingPhase → Nat
  | .disabled => 0 | .active => 1 | .draining => 2 | .stopped => 3

/-- A fetched descriptor (R295, R298): its slot, its place in the order of all fetches, its 64 bytes, and whether its effect
has started; `done` holds the status, severity and info to report once the effect is complete. -/
structure Desc where
  slot : Nat
  order : Nat
  bytes : List Byte
  started : Bool
  /-- Its ring was stopped while it ran: no completion record is written (R290). -/
  orphan : Bool
  /-- It failed the check of R299, so it has no effect and signals nothing. -/
  refused : Bool
  done : Option (Nat × Nat × Nat)
  /-- The half a COPY holds (R309). -/
  holds : Option (Nat × Nat)
  /-- The half whose gauge verdict a COPY waits for (R342). -/
  waits : Option (Nat × Nat)
  /-- Its wait marker has reached the threshold (R298, R322). -/
  met : Bool
deriving DecidableEq, Repr

/-- A ring (R292 to R297). -/
structure Ring where
  phase : RingPhase
  head : Nat
  tail : Nat
  completed : Nat
  consumed : Nat
  fetched : Nat
  lastError : Nat
  descs : List Desc
  /-- The descriptors that completed with a code other than OK since the last check (R316), by fetch order. -/
  badSince : List Nat
  unsignalled : Nat
  firstUnsignalled : Option Nat
deriving DecidableEq, Repr

/-- A disabled ring. -/
def Ring.zero : Ring := ⟨.disabled, 0, 0, 0, 0, 0, 0, [], [], 0, none⟩

/-- A wait on a stitch marker (R319 to R324): of a MARK descriptor of a ring. -/
structure MarkWait where
  desc : Ticket
  marker : Nat
  /-- 0 WAIT, 1 TAKE, 2 ARRIVE. -/
  kind : Nat
  threshold : Nat
  expires : Option Nat
deriving DecidableEq, Repr

/-- What a function's PCI Express configuration space controls beside Bus Master Enable (Table 9.1): maximum payload (128 · 2^n bytes),
maximum read request (128 · 2^n bytes), 10-bit tags, relaxed ordering, the AER reporting enables as a mask, MSI-X Enable and Function
Mask. -/
structure FnControl where
  payload : Nat
  readRequest : Nat
  tags10 : Bool
  relaxed : Bool
  aer : Nat
  msixEnable : Bool
  functionMask : Bool
deriving DecidableEq, Repr

/-- A function's controls at reset: those of PCI Express (log 116). -/
def FnControl.zero : FnControl := ⟨0, 2, false, true, 0, false, false⟩

/-- The host interface beside its registers (09). -/
structure HostIf where
  linkUp : Bool
  downCount : Nat
  speed : Nat
  width : Nat
  rings : Tbl Ring
  /-- Key of the ring served last (R296), and how many descriptors have been fetched. -/
  lastServed : Nat
  descSeq : Nat
  markers : Tbl Nat
  waits : List MarkWait
  /-- MSI-X messages sent, oldest first: function and vector. -/
  msix : List (Nat × Nat)
  /-- Functions with an FLR under way (R290). -/
  flrBusy : List Nat
  busMaster : List Nat
  numVfs : Nat
  controls : Tbl FnControl
deriving DecidableEq, Repr

end Sys2Proof.Machine
end

