-- ==== Sys2Proof/Machine/UnitsIsland.lean ====
section
/-!
DEFINITION. Machine/UnitsIsland.lean: the plain data of the Weighhouse islands, of authority and of the messages to the
vehicle controller (11).
-/

namespace Sys2Proof.Machine

/-- The plan record (Table 7.7) as the fallback relay and the hub-die CAN controllers take it. -/
structure PlanRecord where
  cycle : Nat
  base : Nat
  epochStart : Nat
  epochPublish : Nat
  outcome : Nat
  candidate : Nat
  key : Nat
  checked : Nat
  taken : Nat
  flags : Nat
  seq : Nat
  poses : List Pose
deriving DecidableEq, Repr

/-- The VEHICLE_STATE an island holds (Table 11.11). -/
structure VehState where
  speed : Nat
  yawRate : Nat
  accel : Nat
  gear : Nat
  mrmActive : Bool
  time : Nat
deriving DecidableEq, Repr

/-- An output of the fallback pilot (R358). -/
structure PilotOut where
  edge : Nat
  base : Nat
  cont : List Pose
  stop : List Pose
  grid : List Byte
  degraded : Bool
deriving DecidableEq, Repr

/-- The payload of an outgoing message (Table 11.11). -/
inductive Payload where
  | traj (kind flags outcome epoch cycle base seq : Nat) (poses : List Pose)
  | status (mode depth gauge alive flags restarts last : Nat) (timeOffset : Int) (period : Nat)
  | event (event old new cause time : Nat)
deriving DecidableEq, Repr

/-- An outgoing message: the common header (Table 11.9: sender 0 HD, 1 WHA, 2 WHB, the package's role and whether it
commands) and its payload; the identifier entry of its bus (Table 14.8), and the bus's nominal rate in kb/s and data-phase rate in Mb/s (Table
11.2), both 0 until it is queued on a controller. -/
structure Message where
  sender : Nat
  roleB : Bool
  inCommand : Bool
  counter : Nat
  authSeq : Nat
  authority : Nat
  step : Nat
  time : Nat
  body : Payload
  id : Nat := 0
  rates : Nat × Nat := (0, 0)
deriving DecidableEq, Repr

/-- The message type (Table 11.10). -/
def Message.kind (m : Message) : Nat :=
  match m.body with
  | .traj .. => 1
  | .status .. => 2
  | .event .. => 3

/-- A pilot cycle in work: its edge, whether inputs were missing at its start, and whether VEHICLE_STATE was there too. -/
structure PilotCycle where
  edge : Nat
  degraded : Bool
  full : Bool
deriving DecidableEq, Repr

/-- A pilot (R358 to R360): whether it runs and since when on the island clock; the edge of its next cycle; the edges of the
complete frames of each input (camera 0, camera 1, lidar); the cycles in work, oldest first; the streaks of R359; the cycles
published since it started and its last output. -/
structure Pilot where
  running : Bool
  since : Nat
  next : Nat
  inputs : List (List Nat)
  work : List PilotCycle
  missing : List Nat
  overruns : Nat
  inputLost : Bool
  good : Nat
  published : Nat
  out : Option PilotOut
deriving DecidableEq, Repr

/-- A pilot that does not run. -/
def Pilot.zero : Pilot := ⟨false, 0, 0, [[], [], []], [], [0, 0, 0], 0, false, 0, 0, none⟩

/-- A Weighhouse island (R354 to R362). -/
structure Island where
  supplyOk : Bool
  /-- Out of reset and booted. -/
  alive : Bool
  failSignal : Bool
  accelOk : Bool
  /-- Island clock in ns and whether it is aligned to the time base (R355). -/
  clock : Nat
  aligned : Bool
  holdover : Nat
  lastCross : Nat
  lastHub : Nat
  peerLost : Bool
  pathLost : Bool
  lastHubHb : Nat
  hubLost : Bool
  vehicle : Option VehState
  /-- Counters of the messages taken, newest first, per received type: VEHICLE_STATE, COMMAND (R381). -/
  rxTaken : List (List Nat)
  lastRxBad : Option Nat
  txCount : List Nat
  pilot : Pilot
  /-- The last record's free-space check failed (Table 11.3). -/
  spaceFail : Bool
  /-- The last plan record received: its arbiter_seq and cycle. -/
  lastRecord : Option (Nat × Nat)
  /-- Plan records written and not yet relayed to the island, oldest first (R362). -/
  relay : List PlanRecord
  /-- When the island last queued STATUS, on its clock (Table 11.10). -/
  statusAt : Option Nat
  /-- When its firmware last began to run, on its clock: the injection into its lockstep comparator follows (R399). -/
  upAt : Nat
  /-- Its trigger outputs (R355), both on one edge sequence. -/
  trig : Trigger
deriving DecidableEq, Repr

/-- An island held in reset. -/
def Island.zero : Island :=
  ⟨true, false, false, true, 0, false, 0, 0, 0, false, false, 0, false, none, [[], []], none,
   [0, 0, 0], Pilot.zero, false, none, [], none, 0, Trigger.zero⟩

/-- The main-path restart (R372 to R374). -/
structure Restart where
  /-- 0 idle, 1 running, 2 failed. -/
  state : Nat
  startedAt : Nat
  window : List Nat
  total : Nat
  lastDuration : Nat
  /-- Steps of Table 11.6 reached. -/
  reloaded : Bool
  planned : Bool
  /-- A restart held until Drive is left or reached (R53 outside Drive, Day-open). -/
  held : Bool
  /-- A restart has been requested and has not started (R53, Table 10.4, R372). -/
  requested : Bool
deriving DecidableEq, Repr

/-- The supervision function: both islands, authority and command (R363 to R370), the error queue, the restart, and the
messages queued on the CAN controllers 0-3 of the hub die, 4-5 of WHA and 6-7 of WHB. -/
structure Safety where
  wha : Island
  whb : Island
  commander : Nat
  authority : Nat
  authSeq : Nat
  inCommand : Bool
  mrm : Bool
  /-- The latest authority heartbeat the hub die holds: authority, seq, time (R365). -/
  hubView : Option (Nat × Nat × Nat)
  /-- The arbiter_seqs of the plan records in a row that meet R367, newest first; 25 at most are kept. -/
  handback : List Nat
  lastPlan : Option PlanRecord
  errq : ErrQueue
  restart : Restart
  canTx : List (List Message)
  canOff : List Bool
  hubTxCount : List Nat
  /-- SAFE shows an island's heartbeat since the last hub-die reset (Table 16.3). -/
  mirrored : Bool
  /-- Hub heartbeats sent (R361). -/
  heartbeats : Nat
  /-- First plan cycle whose record the islands wait for, and the last cycle whose record was missing (Table 11.3). -/
  planFrom : Nat
  missed : Option Nat
  /-- arbiter_seq of the last record that SUPERVISE_DISAGREE was logged for, and of the last that TRAJ was sent for. -/
  disagreed : Option Nat
  trajSent : Option Nat
  /-- When the hub die last queued STATUS (Table 11.10). -/
  statusAt : Option Nat
  /-- WHB holds the fallback alone while WHA and the hub die are in reset (R505). -/
  holds : Bool
deriving DecidableEq, Repr

end Sys2Proof.Machine
end

