-- ==== Sys2Proof/Machine/UnitsPower.lean ====
section
/-!
DEFINITION. Machine/UnitsPower.lean: the plain data of the power manager, the coolant inputs, the wake logic and the wear
ledger (13), and of the Ethernet MACs' transmit side (16).
-/

namespace Sys2Proof.Machine

/-- The last budget reply taken from a die (Table 13.5; powers in 0.1 W, the hottest pair in 1/16 °C), the consecutive missing
or bad replies, the consecutive missing ones, whether a reply has come since the last message, and whether it was a bad one. -/
structure DieReply where
  demand : Nat
  demandLower : Nat
  measured : Nat
  hottest : Int
  flags : Nat
  missed : Nat
  silent : Nat
  answered : Bool
  bad : Bool
deriving DecidableEq, Repr

/-- A budget message (Table 13.4): budget in 0.1 W, beat step, mode, flags and its time. -/
structure DieBudget where
  budget : Nat
  step : Nat
  mode : Nat
  flags : Nat
  time : Nat
deriving DecidableEq, Repr

/-- A shed action that stands (R411), with the demand it took away. -/
inductive Shed where
  | stall (k : Nat) (saved : Nat)
  | cluster (saved : Nat)
  | program (fn slot : Nat) (saved : Nat)
  | step (old : Nat) (saved : Nat)
deriving DecidableEq, Repr

/-- A SENT input (R423, R424): the last valid value, when it came, and whether the input is lost. -/
structure Sent where
  raw : Option Nat
  last : Nat
  lost : Bool
deriving DecidableEq, Repr

/-- A diode pair (R421, R422): since when its readings differ by more than 6 °C, or do not; whether it is suspect and since
when; whether its guard band stays until the next main-path start. -/
structure DiodePair where
  apart : Option Nat
  together : Option Nat
  suspect : Option Nat
  held : Bool
deriving DecidableEq, Repr

/-- The power manager beside its registers (R405 to R427): the budget B in 0.1 W and its reason, the last budget and reason
logged, the rail budget, the replies, the last messages sent and those taken, the message sequence number, the standing shed
actions (the last one first), since when B has covered the undoing of the last one, a raise of the beat step in its voltage
ramp, the last PMBus readings and when each regulator answered. -/
structure Power where
  budget : Nat
  reason : Nat
  logged : Option (Nat × Nat)
  rail : Option Nat
  replies : List DieReply
  messages : List DieBudget
  taken : List (Option DieBudget)
  seq : Nat
  sheds : List Shed
  coveredSince : Option Nat
  ramp : Option Nat
  readings : List PmbusReading
  answeredAt : List (Option Nat)
  /-- Control cluster at 400 MHz (R411). -/
  clusterLow : Bool
  /-- Compute dies absent at main-path starts after an IVR fault or an ENGINE failure (R407, Table 12.3). -/
  absent : List Nat
  /-- Logic voltage of each compute die in mV (Table 13.3, R408). -/
  volts : List Nat
deriving DecidableEq, Repr

/-- A reply never received. -/
def DieReply.zero : DieReply := ⟨0, 0, 0, 0, 0, 0, 0, true, false⟩

/-- The power manager after a reset: no budget yet. -/
def Power.zero : Power :=
  ⟨0, 0, none, none, List.replicate 8 DieReply.zero, [], List.replicate 8 none, 0, [], none, none, [],
   List.replicate 8 none, false, [], List.replicate 6 800⟩

/-- Temperature and coolant (R418 to R427): the channels' readings in 1/16 °C, the pairs, the excluded channels, the SENT
inputs, the flows of the last 100 ms (time, 0.001 L/min), the samples of the last second (time, flow, inlet); since when a trip
stands and every hot spot has been at 105 °C or less; a coolant stop: since when no frame has shown 0.3 L/min, since when flow
has been at 1.0 L/min or more, whether domains were switched off, the low estimate since; COOLING_DEGRADED and since when the
projection has covered demand. -/
structure Thermal where
  readings : List Int
  pairs : List DiodePair
  excluded : List Nat
  sent : List Sent
  flows : List (Nat × Nat)
  trend : List (Nat × Nat × Int)
  trip : Bool
  coolSince : Option Nat
  stop : Bool
  noFlow : Nat
  flowSince : Option Nat
  shutdown : Bool
  /-- Flow has returned (R427), so what is left of the stop is its request. -/
  returned : Bool
  /-- A main-path restart that R427 asked for has not completed. -/
  awaitRestart : Bool
  lowSince : Option Nat
  degraded : Bool
  projSince : Option Nat
deriving DecidableEq, Repr

/-- No reading taken. -/
def Thermal.zero : Thermal :=
  ⟨List.replicate 120 0, List.replicate 60 ⟨none, none, none, false⟩, [], List.replicate 3 ⟨none, 0, false⟩, [], [], false,
   none, false, 0, none, false, false, false, none, false, none⟩

/-- Park and wake (R428 to R433): PARK_ACK, until when the device drives PCIE_WAKE_N low (none within: until released by
the link), the source (0-3 WAKE_IN, 4 PCIE_WAKE_N, 5 alarm) that woke during a Park sequence (R517). -/
structure Wake where
  ack : Bool
  wakeN : Option Nat
  untilLink : Bool
  pending : Option Nat
deriving DecidableEq, Repr

/-- No wake. -/
def Wake.zero : Wake := ⟨false, none, false, none⟩

/-- The wear ledger (R434 to R437): first LOCKED, elapsed life and hours per mode in s, D in ppm, the worst monitor, the sequence
number of the last record, whether it carries NO_HISTORY, and whether the ledgers' two states are logged. -/
structure Wear where
  firstLock : Option Nat
  elapsed : Nat
  consumed : Nat
  driveS : Nat
  nightS : Nat
  worst : Nat
  sequence : Nat
  noHistory : Bool
  ahead : Bool
  ended : Bool
  /-- Time-base value up to which elapsed life is counted, and that of the last record. -/
  upTo : Nat
  recorded : Nat
  /-- Elapsed life in s that the record read at start did not cover and that is still to be accounted for (R437). -/
  covered : Option Nat
deriving DecidableEq, Repr

/-- A ledger that has counted nothing. -/
def Wear.zero : Wear := ⟨none, 0, 0, 0, 0, 0, 0, false, false, false, 0, 0, none⟩

/-- The transmit side of a MAC (R492 to R494): the operational list as (gates, interval in ns) with its cycle and base time;
since when its cycles run without a break, whether its gates are in force; the change time of a pending list; the gates of the
present entry, its index, its end and the end of its cycle; per class the credit in 10⁻⁷ bits and the time it was brought up
to. -/
structure MacTx where
  oper : List (Nat × Nat)
  cycle : Nat
  base : Nat
  origin : Nat
  running : Bool
  change : Option Nat
  gates : Nat
  entry : Nat
  entryEnd : Nat
  cycleEnd : Nat
  credit : List Int
  creditAt : List Nat
  /-- When the frame in transmission ends. -/
  busy : Nat
deriving DecidableEq, Repr

/-- Nothing operational: every gate is open. -/
def MacTx.zero : MacTx :=
  ⟨[], 0, 0, 0, false, none, 255, 0, 0, 0, List.replicate 8 0, List.replicate 8 0, 0⟩

end Sys2Proof.Machine
end

