-- ==== Sys2Proof/Machine/State.lean ====
section
/-!
DEFINITION. Machine/State.lean: the state of the block, its faults and refusals, and the state right after reset. The
state is plain data; the commands that wait stand in `pending`, first in, first out.
-/

namespace Sys2Proof.Machine

/-- Why a command stops the machine. -/
inductive Fault where
  /-- Raised by FABRIC_BEAT for a bundle that Flahili did not produce: "a pattern that Flahili did not produce is outside
  what this manual describes" (02). Safe: the model stops where the manual says nothing. -/
  | patternOutsideManual
deriving DecidableEq, Repr

/-- Why a command has no meaning. -/
inductive Refusal where
  /-- Answered by the dispatcher for a row that has no meaning yet. Safe: nothing is claimed about it. -/
  | notModelled (mnemonic : String)
deriving DecidableEq, Repr

/-- The state of the block. -/
structure State where
  /-- The commands that wait, first in, first out. -/
  pending : List Instr
  /-- The time base in ns (R186). -/
  now : Nat
  /-- The event arbiter's next sequence number, 48 bits (R33, R327). -/
  arbSeq : Nat
  /-- The model's own: how many free values have been drawn. -/
  freeCount : Nat
  /-- The model's own: what the patterns run so far have shown of themselves (log 6). -/
  shown : List Shown
  /-- The model's own: what the last register read returned (R13). -/
  readData : Nat
  /-- The upper halves that a read of a lower half froze (R13), by function and offset. -/
  latches : List (Nat × Nat)
  /-- Every register field that is not a view of unit state, at its key; unlisted fields hold their reset value. -/
  regs : Tbl Nat
  /-- Device memory (Table 8.1): HBM, hub SRAM and tile SRAM by device address; an unlisted byte is 0. -/
  mem : Tbl Byte
  /-- The host's memory that the device reads and writes (R288). -/
  hostMem : Tbl Byte
  mode : Mode
  transition : Transition
  /-- The mode requests that wait for the end of the transition, oldest first (R4). -/
  deferred : List Nat
  degrade : Degrade
  fabric : Fabric
  sensing : Sensing
  timeBase : TimeBase
  memSys : MemSys
  pair : PairLink
  host : HostIf
  safety : Safety
  /-- Stalls 1 to 31. -/
  stalls : Tbl Stall
  /-- The key-value pools, by pool_id. -/
  pools : Tbl (Option Pool)
  /-- The boot flash (R442); an unlisted byte is erased, 0xFF. -/
  flash : Tbl Byte
  boot : Boot
  gauge : Gauge
  swatch : Swatch
  /-- The device log (R457). -/
  devLog : Log
  /-- When the transition in progress began. -/
  since : Nat
  planner : Planner
  power : Power
  thermal : Thermal
  wake : Wake
  wear : Wear
  /-- The transmit sides of MACs 0 to 5. -/
  macTx : List MacTx
deriving DecidableEq, Repr

/-- What a field holds at reset (R489): its Reset column, or what that column's words name. The device record, the straps
and the stepping are of the part: DESIGN CHOICE (log 2) takes an unrepaired part and straps of 0. -/
def Fld.resetAt (f : Fld) (i j : Nat) : Nat :=
  match f with
  | .HUB_CFG_TALLY_SEL_CAUSE => if i ≤ 12 then i + 1 else 0
  | .CD_TILE_MAP_PHYS => j
  | .CD_TILE_STATE_SPARES_LEFT => 2
  | .MEM_MASTER_MAP_PART => 0xBA9876543210
  | .MEM_PART_CFG_ENABLE => if i ≤ 11 then 1 else 0
  | .MEM_PART_CFG_CLASS => if i = 15 then 2 else 1
  | .PWR_SENT_CFG_GAIN => if i ≤ 1 then 0x3D800000 else 0x3A83126F
  | .PWR_SENT_CFG_OFFSET => if i ≤ 1 then 0xC2480000 else 0
  | .PWR_DOMAINS_ON => 0x4000000000
  | .HUB_CFG_ID_STEPPING => 1
  | .VF_INFO_STEPPING => 1
  | .VF_INFO_STALL => i
  | .NET_MAC_CFG_SPEED => if i ≤ 3 then 2 else 0
  | .MSIX_TABLE_WORD => if j % 4 = 3 then 1 else 0
  | f => f.spec.reset

/-- No requests (R520). -/
def Degrade.zero : Degrade := ⟨List.replicate 11 0, 0, none, List.replicate 11 none⟩

/-- An empty error queue. -/
def ErrQueue.zero : ErrQueue := ⟨[], [], [], none, 0, 0, 0, 0, 0⟩

/-- The fabric after a reset: beat counter 0 (R41), step 400 MHz, every die off (PWR_DOMAINS), nothing loaded. -/
def Fabric.zero : Fabric := ⟨0, 4, none, List.replicate 6 false, [], [], [], [], [], [], [], 0, [], [], [], [], 0, [], [], []⟩

/-- Sensing after a reset: no context, no line driven. -/
def Sensing.zero : Sensing := ⟨[], [], none, [], [], none, none, none, []⟩

/-- The time base after the always-on reset: FREE (R186). -/
def TimeBase.zero : TimeBase := ⟨0, 0, none, none, false, 0, none, 0, 0, 0, 0, false, List.replicate 6 0, 0⟩

/-- A regulator at reset: its bucket full (R257; DEPTH resets to 65,536). -/
def Regulator.zero : Regulator := ⟨65536, 0, [], none, none⟩

/-- The memory system after a reset: every link down until it is trained, nothing shed, normal refresh. -/
def MemSys.zero : MemSys :=
  ⟨[], [], [], 0, [], [], false, [⟨0, false, none, none⟩, ⟨0, false, none, none⟩], [], 0, [], [], [], [],
   List.replicate 14 false, []⟩

/-- The pair link after a reset: DOWN. -/
def PairLink.zero : PairLink :=
  { state := 0, phase := 0, lastAttempt := none, failures := 0, failLogged := false, nextSeq := 1, inOrder := 0,
    replay := [], backlog := [], credits := 0, freed := 0, ackValid := false, nak := false, lastGood := 0, peerRole := false, peerMode := 0,
    peerStep := 0, peerBeatStep := 4, peerAuthority := 0, lastTimeSent := none, lastTimeRecv := 0, lastTimeRecvAt := 0,
    alignedRun := 0, offset := 0, trim := 0, advisory := false, barriers := [], xfers := [], aborted := [],
    sent := [], wire := [], blocks := 0, scramblers := [], skips := 0 }

/-- The host interface after a reset: link down, rings disabled, markers 0. -/
def HostIf.zero : HostIf := ⟨false, 0, 0, 0, [], 0, 0, [], [], [], [], [], 0, []⟩

/-- No restart. -/
def Restart.zero : Restart := ⟨0, 0, [], 0, 0, false, false, false, false⟩

/-- The supervision function after a reset: both islands in reset, no commander, authority NONE. -/
def Safety.zero : Safety :=
  { wha := Island.zero, whb := Island.zero, commander := 0, authority := 0, authSeq := 0, inCommand := false,
    mrm := false, hubView := none, handback := [], lastPlan := none, errq := ErrQueue.zero,
    restart := Restart.zero, canTx := List.replicate 8 [], canOff := List.replicate 8 false,
    hubTxCount := [0, 0, 0], mirrored := false, heartbeats := 0, planFrom := 0, missed := none, disagreed := none,
    trajSent := none, statusAt := none, holds := false }

/-- The block right after the always-on reset: Park, the time base at 0 (R186), every field at its reset value. -/
def State.reset : State :=
  { pending := [], now := 0, arbSeq := 0, freeCount := 0, shown := [], readData := 0, latches := [], regs := [], mem := [],
    hostMem := [], mode := .park, transition := .none, deferred := [], degrade := Degrade.zero,
    fabric := Fabric.zero, sensing := Sensing.zero, timeBase := TimeBase.zero, memSys := MemSys.zero,
    pair := PairLink.zero, host := HostIf.zero, safety := Safety.zero, stalls := [],
    pools := [], flash := [], boot := Boot.zero, gauge := Gauge.zero, swatch := Swatch.zero,
    devLog := Log.zero, since := 0, planner := Planner.zero, power := Power.zero, thermal := Thermal.zero,
    wake := Wake.zero, wear := Wear.zero, macTx := List.replicate 6 MacTx.zero }

end Sys2Proof.Machine
end

