-- ==== Sys2Proof/Machine/Ops.lean ====
section
/-!
DEFINITION. Machine/Ops.lean: the named operations the meanings share: register fields, memory, the event arbiter and
error records, choice tallies, messages to the vehicle controller, degradation requests and authority, stitch markers,
and the completion of descriptors.
-/

namespace Sys2Proof.Machine

/-- What a step answers. -/
abbrev Out := Host.Outcome State Fault Refusal

/-! ## Register fields -/

/-- The stored value of field `f` of the instance (i, j) of its register. -/
def State.fld (s : State) (f : Fld) (i : Nat := 0) (j : Nat := 0) : Nat :=
  Tbl.get (f.resetAt i j) s.regs (f.key i j)

/-- Field `f` of the instance (i, j) set to `v`, cut to the field's width. -/
def State.setFld (s : State) (f : Fld) (v : Nat) (i : Nat := 0) (j : Nat := 0) : State :=
  { s with regs := Tbl.set (f.resetAt i j) s.regs (f.key i j) (v % 2 ^ f.width) }

/-- A counter field one (or `n`) higher; every counter of the map holds at its maximum. -/
def State.count (s : State) (f : Fld) (i : Nat := 0) (j : Nat := 0) (n : Nat := 1) : State :=
  s.setFld f (satAdd (2 ^ f.width - 1) (s.fld f i j) n) i j

/-- A field put back to its reset value. -/
def State.resetFld (s : State) (f : Fld) (i : Nat := 0) (j : Nat := 0) : State :=
  { s with regs := Tbl.erase s.regs (f.key i j) }

/-- Is power domain `d` of the hub die on (Table 13.2, PWR_DOMAINS)? -/
def State.domainOn (s : State) (d : Nat) : Bool := bit (s.fld .PWR_DOMAINS_ON) d

/-- The physical tile behind a logical tile (R52). -/
def State.physOf (s : State) (d t : Nat) : Nat := s.fld .CD_TILE_MAP_PHYS d t

/-! ## Memory -/

/-- Do [a, a + n) and [b, b + m) share a byte? An empty one shares none. -/
def touch (a n b m : Nat) : Bool := decide (0 < n) && decide (0 < m) && decide (a < b + m) && decide (b < a + n)

/-- Base of hub SRAM (Table 8.1). -/
def hubBase : Nat := 0x001000000000

/-- Base of the tile SRAM of logical tile CDn.Tmm (Table 8.1). -/
def tileBase (die tile : Nat) : Nat := 0x002000000000 + die * 0x000100000000 + tile * 0x00800000

/-- Bytes of a tile's SRAM: 6 MiB. -/
def tileSize : Nat := 6291456

/-- Bytes of HBM: 48 GiB (Table 8.1). -/
def hbmSize : Nat := 0x000C00000000

/-- The parts of Table 8.1. -/
inductive Region where
  | hbm
  | hub
  | tile (die tile : Nat)
  | none
deriving DecidableEq, Repr

/-- Which part of Table 8.1 a device address lies in (R242). -/
def regionOf (a : Nat) : Region :=
  if a < hbmSize then .hbm
  else if hubBase ≤ a ∧ a < hubBase + 0x04000000 then .hub
  else if tileBase 0 0 ≤ a then
    let o := a - tileBase 0 0
    let d := o / 0x000100000000
    let r := o % 0x000100000000
    let t := r / 0x00800000
    if d < 6 ∧ t < 40 ∧ r % 0x00800000 < tileSize then .tile d t else .none
  else .none

/-- `n` bytes of a byte table from address `a`. -/
def readBytes (t : Tbl Byte) (a : Nat) : Nat → List Byte
  | 0 => []
  | n + 1 => Tbl.get 0 t a :: readBytes t (a + 1) n

/-- Bytes written to a byte table from address `a` upwards. -/
def writeBytes (t : Tbl Byte) (a : Nat) : List Byte → Tbl Byte
  | [] => t
  | b :: l => writeBytes (Tbl.set 0 t a b) (a + 1) l

/-- The `n` bytes from `a` set to 0. -/
def zeroBytes (t : Tbl Byte) (a n : Nat) : Tbl Byte := t.filter fun p => p.1 < a || a + n ≤ p.1

/-- The `n` bytes of `src` from `a` put into `dst` from `b`. -/
def copyBytes (src : Tbl Byte) (a : Nat) (dst : Tbl Byte) (b n : Nat) : Tbl Byte :=
  ((src.filter fun p => a ≤ p.1 && p.1 < a + n).foldl (fun t p => Tbl.set 0 t (p.1 - a + b) p.2)
    (zeroBytes dst b n))

/-- Bytes of device memory. -/
def State.devRead (s : State) (a n : Nat) : List Byte := readBytes s.mem a n

/-- A little-endian value of device memory (R10). -/
def State.devVal (s : State) (a n : Nat) : Nat := leVal (s.devRead a n)

/-- Bytes written to device memory. -/
def State.devWrite (s : State) (a : Nat) (l : List Byte) : State := { s with mem := writeBytes s.mem a l }

/-- A little-endian value written to device memory (R10). -/
def State.devPut (s : State) (a n v : Nat) : State := s.devWrite a (leBytes n v)

/-- Bytes of host memory. -/
def State.hostRead (s : State) (a n : Nat) : List Byte := readBytes s.hostMem a n

/-- Bytes written to host memory. -/
def State.hostWrite (s : State) (a : Nat) (l : List Byte) : State :=
  { s with hostMem := writeBytes s.hostMem a l }

/-- Good data written over [a, a + n): the granules it covers are poisoned no longer. -/
def State.unpoison (s : State) (a n : Nat) : State :=
  { s with memSys := { s.memSys with
      poisoned := s.memSys.poisoned.filter fun g => !(decide (a ≤ g * 256) && decide (g * 256 + 256 ≤ a + n)) } }

/-! ## Free values, the event arbiter, error records -/

/-- A free value of `w` bits (log 5). -/
def State.free (s : State) (w : Nat) : Nat × State :=
  (Config.freeValue w s.freeCount % 2 ^ w, { s with freeCount := s.freeCount + 1 })

/-- A value the manual states, or a free value where it states none. -/
def State.orFree (s : State) (w : Nat) : Option Nat → Nat × State
  | some v => (v, s)
  | none => s.free w

/-- The next sequence number of the event arbiter (R33, R327). -/
def State.stamp (s : State) : Nat × State :=
  (s.arbSeq, { s with arbSeq := (s.arbSeq + 1) % 281474976710656 })

/-- Is the device in Drive? -/
def State.inDrive (s : State) : Bool := s.mode = .drive

/-- 3 in Drive for a safety-relevant matter, otherwise 2: the severity that many codes state (Table 2.12 and others). -/
def State.sev32 (s : State) (safety : Bool) : Nat := if s.inDrive && safety then 3 else 2

/-- Island 0 is WHA, 1 is WHB. -/
def Safety.island (f : Safety) (i : Nat) : Island := if i = 0 then f.wha else f.whb

/-- An error record is made: stamped by the event arbiter, unless it is UNSEQUENCED, and on its way to the islands' queues (R375). A detail
for which the manual states no content is a free value (log 7). -/
def State.reportWith (s : State) (code sev origin : Nat) (d0 d1 : Option Nat)
    (request : Option (Nat × Nat)) (injected unsequenced : Bool) : State :=
  let (q, s) := if unsequenced then (0, s) else s.stamp
  let (v0, s) := s.orFree 32 d0
  let (v1, s) := s.orFree 64 d1
  let r : ErrRec :=
    { code := code, sev := sev, injected := injected, unsequenced := unsequenced, origin := origin,
      mode := s.mode.code, seq := q, step := 0, handling := 0, detail0 := v0,
      time := if unsequenced then (s.safety.island (origin - 7)).clock else s.now, detail1 := v1, request := request, paired := false }
  { s with safety :=
    { s.safety with errq := { s.safety.errq with inFlight := s.safety.errq.inFlight ++ [r] } } }

/-- An error record of the hub die with details. -/
def State.report (s : State) (code sev : Nat) (d0 : Option Nat := none) (d1 : Option Nat := none)
    (request : Option (Nat × Nat) := none) (origin : Nat := 0) : State :=
  s.reportWith code sev origin d0 d1 request false false

/-! ## Choice tallies -/

/-- Tally `n` counts cause `c` of source `src` (R76). -/
def State.tallyOne (c src : Nat) (s : State) (n : Nat) : State :=
  if s.fld .HUB_CFG_TALLY_SEL_CAUSE n = c ∧ c ≠ 0 ∧
      (s.fld .HUB_CFG_TALLY_SEL_SOURCE n = 0xFFFF ∨ s.fld .HUB_CFG_TALLY_SEL_SOURCE n = src % 65536) then
    s.count .HUB_CFG_TALLY_CNT_COUNT n
  else s

/-- A timing-dependent choice counted in every tally whose selection it matches (R76). -/
def State.tally (s : State) (c src : Nat) : State := (List.range 64).foldl (State.tallyOne c src) s

/-! ## MSI-X -/

/-- The controls of a function (Table 9.1). -/
def State.control (s : State) (fn : Nat) : FnControl := Tbl.get FnControl.zero s.host.controls fn

/-- Is a vector masked (R326, PCI Express): by its vector-control word, by Function Mask, or while MSI-X Enable is 0? -/
def State.vectorMasked (s : State) (fn vector : Nat) : Bool :=
  !(s.control fn).msixEnable || (s.control fn).functionMask || bit (s.fld .MSIX_TABLE_WORD fn (4 * vector + 3)) 0

/-- A message of vector `v` of function `fn` is sent, or left pending while the vector is masked (R326). Nothing reaches
a host over a link that is down. -/
def State.sendMsix (s : State) (fn v : Nat) : State :=
  if s.vectorMasked fn v then
    s.setFld .MSIX_PBA_WORD (s.fld .MSIX_PBA_WORD fn (v / 32) ||| 2 ^ (v % 32)) fn (v / 32)
  else if s.host.linkUp then
    { s with host := { s.host with msix := s.host.msix ++ [(fn, v)] } }
  else s

/-! ## Stalls and refused writes -/

/-- Stall `k`. -/
def State.stallOf (s : State) (k : Nat) : Stall := Tbl.get Stall.zero s.stalls k

/-- Stall `k` changed by `g`. -/
def State.modStall (s : State) (k : Nat) (g : Stall → Stall) : State :=
  { s with stalls := Tbl.set Stall.zero s.stalls k (g (s.stallOf k)) }

/-- The state of stall `k`. -/
def State.stall (s : State) (k : Nat) : StallPhase := (s.stallOf k).phase

/-- A pool, if it exists. -/
def State.pool (s : State) (id : Nat) : Option Pool := Tbl.get none s.pools id

/-- What stall `k` owns, as its registers give it (R461). -/
def State.stallArea (s : State) (k : Nat) : StallArea :=
  ⟨s.fld .HUB_CFG_STALL_REGION_BASE k, s.fld .HUB_CFG_STALL_REGION_SIZE k, s.fld .HUB_CFG_STALL_CFG_QUARTERS k⟩

/-- What stall `k` owns: from the start of its close, what it owned then (R466, R467). -/
def State.areaOf (s : State) (k : Nat) : StallArea := (s.stallOf k).held.getD (s.stallArea k)

/-- First device address of the region of stall `k`. -/
def State.stallBase (s : State) (k : Nat) : Nat := (s.areaOf k).base * 67108864

/-- Bytes of the region of stall `k`. -/
def State.stallSize (s : State) (k : Nat) : Nat := (s.areaOf k).size * 67108864

/-- The tile quarters of stall `k`. -/
def State.stallQuarters (s : State) (k : Nat) : Nat := (s.areaOf k).quarters

/-- A stall's area stays what it is while it closes. -/
def State.holdArea (s : State) (k : Nat) : State := s.modStall k fun x => { x with held := some (s.areaOf k) }

/-- Stall `k` put in state `p`. -/
def State.setStall (s : State) (k : Nat) (p : StallPhase) : State := s.modStall k fun x => { x with phase := p }

/-- The last code of the Night Market range for a stall (LAST_CODE). -/
def State.stallCode (s : State) (k code : Nat) : State := s.setFld .HUB_CFG_STALL_STATUS_LAST_CODE code k

/-- Is a function's stall one that is not OPEN, so that its descriptors are turned away (R465)? -/
def State.stallBars (s : State) (fn : Nat) : Bool := fn != 0 && s.stall fn != .open_

/-- Is the checkpoint of a stall between its boundary and its end (R476)? -/
def State.ckptHolds (s : State) (stall : Nat) : Bool :=
  match (s.stallOf stall).ckpt with
  | some c => c.boundary.isSome
  | none => false

/-- Bit `b` of EVENTS of a stall set, which raises vector 0 of its VF (R325). -/
def State.stallEvent (s : State) (k b : Nat) : State :=
  (s.setFld .HUB_CFG_STALL_STATUS_EVENTS (s.fld .HUB_CFG_STALL_STATUS_EVENTS k ||| 2 ^ b) k).sendMsix k 0

/-- The offset in BAR0 of an instance of a register: in the PF's, and in a VF's for the registers of Table 16.2. -/
def Reg.offset (r : Reg) (i j : Nat) : Nat :=
  let p := r.spec
  p.base + (i - p.iLo) * p.iStride + (j - p.jLo) * p.jStride

/-- A write that a rule refuses (R488): CFG_ERROR shows it and a severity-0 record is made; nothing else changes. -/
def State.refuseAt (s : State) (fn offset code : Nat) (d0 : Option Nat := none) : State :=
  let s := s.count .HUB_CFG_CFG_ERROR_COUNT
  let s := s.setFld .HUB_CFG_CFG_ERROR_FUNCTION fn
  let s := s.setFld .HUB_CFG_CFG_ERROR_OFFSET offset
  let s := s.setFld .HUB_CFG_CFG_ERROR_CODE code
  s.report code 0 d0

/-- A refused write of the PF to an instance of a register. -/
def State.refuse (s : State) (r : Reg) (code : Nat) (i : Nat := 0) (j : Nat := 0) : State :=
  s.refuseAt 0 (r.offset i j) code (some i)

/-! ## Measurement logs (R457) -/

/-- Entries that a log stores: 8,192 for the device, 1,024 for a stall. -/
def logRoom (stall : Nat) : Nat := if stall = 0 then 8192 else 1024

/-- The 48 bytes of a log entry (Table 14.11). -/
def logEntry (kind stall index seq : Nat) (digest : List Byte) : List Byte :=
  leBytes 2 kind ++ leBytes 1 stall ++ [0] ++ leBytes 4 index ++ leBytes 6 seq ++ [0, 0] ++ digest

/-- An entry appended: the chain always takes it, the store while there is room. -/
def Log.add (l : Log) (stall kind seq : Nat) (digest : List Byte) : Log :=
  let e := logEntry kind stall l.count seq digest
  { chain := shake256 (l.chain ++ e) 32, count := l.count + 1,
    stored := if l.stored.length < logRoom stall then l.stored ++ [e] else l.stored }

/-- The log of a stall, or of the device for 0. -/
def State.log (s : State) (stall : Nat) : Log := if stall = 0 then s.devLog else (s.stallOf stall).log

/-- A measurement entry of a kind of Table 14.11 in the log of a stall or of the device; `rom` entries carry no sequence
number. -/
def State.measure (s : State) (stall kind : Nat) (digest : List Byte) (rom : Bool := false) : State :=
  let (q, s) := if rom then (0, s) else s.stamp
  if stall = 0 then { s with devLog := s.devLog.add 0 kind q digest }
  else s.modStall stall fun x => { x with log := x.log.add stall kind q digest }

/-! ## Settings of the islands (Tables 14.7 and 14.8) -/

/-- An `n`-byte field of the configuration record, or `dflt` when no record is valid. -/
def State.confField (s : State) (off n dflt : Nat) : Nat :=
  if s.boot.config.isEmpty then dflt else leVal ((s.boot.config.drop off).take n)

/-- A field of the safety section (Table 14.8). -/
def State.setting (s : State) (off n dflt : Nat) : Nat := s.confField (256 + off) n dflt

/-! ## Islands, messages, authority -/

/-- Island `i` replaced. -/
def Safety.setIsland (f : Safety) (i : Nat) (x : Island) : Safety :=
  if i = 0 then { f with wha := x } else { f with whb := x }

/-- Island `i` of the state. -/
def State.island (s : State) (i : Nat) : Island := s.safety.island i

/-- Island `i` changed by `g`. -/
def State.modIsland (s : State) (i : Nat) (g : Island → Island) : State :=
  { s with safety := s.safety.setIsland i (g (s.safety.island i)) }

/-- The commanding island's index, if one commands (R363). -/
def State.commanding (s : State) : Option Nat :=
  if s.safety.commander = 1 then some 0 else if s.safety.commander = 2 then some 1 else none

/-- The CAN controllers a sender uses (R380): sender 0 the hub die, 1 WHA, 2 WHB. -/
def controllersOf (sender : Nat) : List Nat :=
  if sender = 0 then [0, 1] else if sender = 1 then [4, 5] else [6, 7]

/-- A message put in a controller's queue: a TRAJ or STATUS of the same sender that waits there is withdrawn, an EVENT
never is (R380). -/
def queueOn (q : List Message) (m : Message) : List Message :=
  (q.filter fun o => m.kind == 3 || o.kind != m.kind || o.sender != m.sender) ++ [m]

/-- The bus of a controller in the identifier table (Table 14.8): WHA0, WHA1, WHB0, WHB1, HD0, HD1. -/
def busOf (controller : Nat) : Nat := if controller < 4 then 4 + controller else controller - 4

/-- The message as it stands on a controller: with the identifier of its type there, and the rates of the buses (R357, R380, Tables 11.2
and 14.8). -/
def State.addressed (s : State) (m : Message) (controller : Nat) : Message :=
  { m with id := s.setting (48 + 4 * (5 * busOf controller + (m.kind - 1))) 4 0
           rates := (if s.setting 21 1 1 = 0 then 500 else 1000, s.setting 22 1 8) }

/-- The message put in the queues of its sender's controllers. -/
def State.queueMessage (s : State) (m : Message) : State :=
  { s with safety := { s.safety with
      canTx := s.safety.canTx.mapIdx fun i q => if (controllersOf m.sender).contains i then queueOn q (s.addressed m i) else q } }

/-- The sender's counter of messages of a kind (Table 11.9), and the state with it one higher. -/
def State.nextCounter (s : State) (sender kind : Nat) : Nat × State :=
  let bump := fun (l : List Nat) => setAt l (kind - 1) ((l.getD (kind - 1) 0 + 1) % 65536)
  if sender = 0 then
    (s.safety.hubTxCount.getD (kind - 1) 0,
     { s with safety := { s.safety with hubTxCount := bump s.safety.hubTxCount } })
  else
    let i := sender - 1
    ((s.island i).txCount.getD (kind - 1) 0, s.modIsland i fun x => { x with txCount := bump x.txCount })

/-- The kind of a payload (Table 11.10). -/
def Payload.kind : Payload → Nat
  | .traj .. => 1
  | .status .. => 2
  | .event .. => 3

/-- A sender queues a message with the common header of Table 11.9: its own view of authority and, for an island, its
island clock. -/
def State.send (s : State) (sender authority authSeq : Nat) (body : Payload) : State :=
  let (c, s) := s.nextCounter sender body.kind
  let t := if sender = 0 then s.now else (s.island (sender - 1)).clock
  s.queueMessage { sender := sender, roleB := s.fld .SEC_BOOT_STATUS_PAIR_ROLE == 1, inCommand := s.safety.inCommand, counter := c,
                   authSeq := authSeq, authority := authority, step := s.degrade.step, time := t, body := body }

/-- The commanding island queues an EVENT (R377, R380). -/
def State.event (s : State) (ev old new cause time : Nat) : State :=
  match s.commanding with
  | none => s
  | some i => s.send (i + 1) s.safety.authority s.safety.authSeq (.event ev old new cause time)

/-- The authority value of island `i`'s fallback. -/
def fallbackOf (i : Nat) : Nat := if i = 0 then 2 else 3

/-- The kind of TRAJ an island sends: CONTINUE, or STOP where it commands and D4 is in force (R369). -/
def State.trajKind (s : State) (i : Nat) : Nat := if s.commanding = some i ∧ s.degrade.step = 4 then 2 else 1

/-- An island queues its latest pilot output (R358, Table 11.10): in Drive, with a working accelerator. The manual states no
arbiter_seq for an island's TRAJ: a free value. -/
def State.islandTraj (s : State) (i : Nat) : State :=
  let x := s.island i
  match x.pilot.out with
  | none => s
  | some o =>
    if !(s.inDrive || (s.safety.holds && i == 1)) || !x.alive || !x.accelOk then s
    else
      let auth := s.commanding == some i && s.safety.authority == fallbackOf i
      let flags := (if auth then 1 else 0) + 4 + (if o.degraded then 8 else 0)
      let k := s.trajKind i
      let (q, s) := s.free 48
      s.send (i + 1) s.safety.authority s.safety.authSeq
        (.traj k flags 0xFF 0 o.edge o.base q (if k = 2 then o.stop else o.cont))

/-- Authority is `a` under the next sequence number (R363): the change is recorded and sent, and the fallback that takes it
sends its latest trajectory as AUTHORITATIVE (Table 11.4). -/
def State.newAuthority (s : State) (a cause time : Nat) : State :=
  let old := s.safety.authority
  let s := { s with safety := { s.safety with authority := a, authSeq := (s.safety.authSeq + 1) % 65536 } }
  let s := (s.report 0x830 0 (origin := if s.safety.commander = 2 then 8 else 7)).event 1 old a cause time
  match s.commanding with
  | some i => if a = fallbackOf i then s.islandTraj i else s
  | none => s

/-- Authority passes to `a` (R363). -/
def State.setAuthority (s : State) (a cause time : Nat) : State :=
  if s.safety.authority = a then s else s.newAuthority a cause time

/-- The fallback value of authority for the commanding island (R363). -/
def State.fallbackAuthority (s : State) : Nat := if s.safety.commander = 2 then 3 else 2

/-- The commanding island sends the hub die a heartbeat with authority and sequence number (R365). -/
def State.heartbeat (s : State) : State :=
  { s with safety :=
    { s.safety with hubView := some (s.safety.authority, s.safety.authSeq, s.now), mirrored := true } }

/-! ## Degradation requests -/

/-- The cycle of the plan-cycle grid that holds a time (R38). -/
def State.cycleOf (s : State) (t : Nat) : Int :=
  ((t : Int) - (s.fld .PLAN_CYCLE_PHASE_PHASE : Nat)) / ((s.fld .PLAN_CYCLE_PERIOD * 1000 : Nat) : Int)

/-- The cycle that holds the present time. -/
def State.cycleNow (s : State) : Int := s.cycleOf s.now

/-- The highest request (R209). -/
def maxReq (l : List Nat) : Nat := l.foldl max 0

/-- The severity of a DEGRADE_STEP record (R210). -/
def stepSev (old new : Nat) : Nat := if new < old then 0 else if new ≥ 3 then 3 else 2

/-- The step in force after the requests changed through `src` because of the record with number `cause` (R210): the
change is recorded and sent; D3 or D4 takes authority to the fallback (R364); D4 asks for the minimal-risk stop (R369). -/
def State.applyStep (s : State) (src cause code : Nat) : State :=
  let old := s.degrade.step
  let new := if s.inDrive then maxReq s.degrade.req else 0
  if old = new then s
  else
    let s := { s with degrade := { s.degrade with step := new } }
    let s := if old < new then { s with degrade := { s.degrade with raisedAt := some s.now } } else s
    let s := s.report 0x350 (stepSev old new) (some (new + old * 256 + src * 65536)) (some cause)
    let s := s.event 2 old new code s.now
    let s := if new ≥ 3 ∧ s.safety.authority = 1 then s.setAuthority s.fallbackAuthority code s.now else s
    if new = 4 then ({ s with safety := { s.safety with mrm := true } }).event 3 0 1 code s.now
    else if old = 4 then ({ s with safety := { s.safety with mrm := false } }).event 4 1 0 code s.now
    else s

/-- Source `src` requests step `d` (R209): a raise takes effect at once, and its request never falls by it (R38); a lowering of the
source that was deferred goes no lower than `d`. Outside Drive nothing is requested (R520). -/
def State.request (s : State) (src d cause code : Nat) : State :=
  if s.inDrive then
    if s.degrade.req.getD src 0 ≤ d then
      let s := { s with degrade := { s.degrade with
        req := setAt s.degrade.req src d, deferred := setAt s.degrade.deferred src none } }
      s.applyStep src cause code
    else
      { s with degrade := { s.degrade with
        deferred := setAt s.degrade.deferred src ((s.degrade.deferred.getD src none).map (max d)) } }
  else s

/-- No lowering takes effect within the cycle in which a raise occurred (R209). -/
def State.mayLower (s : State) : Bool :=
  match s.degrade.raisedAt with
  | none => true
  | some t => decide (s.cycleOf t < s.cycleNow)

/-- Source `src` lowers its request to `d`, now or, in a cycle with a raise, at the first moment after it (R209). -/
def State.lower (s : State) (src d cause : Nat) : State :=
  if s.degrade.req.getD src 0 ≤ d then s
  else if s.mayLower then
    let s := { s with degrade := { s.degrade with
      req := setAt s.degrade.req src d, deferred := setAt s.degrade.deferred src none } }
    s.applyStep src cause 0x350
  else { s with degrade := { s.degrade with deferred := setAt s.degrade.deferred src (some d) } }

/-- Source `src` withdraws its request (Table 6.8). -/
def State.withdraw (s : State) (src cause : Nat) : State := s.lower src 0 cause

/-- A lowering that was deferred past its cycle takes effect (R209); that of the sensing source waits for a release. -/
def State.lowerDeferred (s : State) : State :=
  if s.mayLower then
    (List.range 11).foldl (init := s) fun s k =>
      match s.degrade.deferred.getD k none with
      | some d => if k = 0 then s else s.lower k d 0
      | none => s
  else s

/-! ## Descriptors and rings -/

/-- The key of a ring of a function. -/
def ringKey (fn ring : Nat) : Nat := fn * 256 + ring

/-- A ring of a function. -/
def State.ring (s : State) (fn ring : Nat) : Ring := Tbl.get Ring.zero s.host.rings (ringKey fn ring)

/-- A ring replaced. -/
def State.setRing (s : State) (fn ring : Nat) (r : Ring) : State :=
  { s with host := { s.host with rings := Tbl.set Ring.zero s.host.rings (ringKey fn ring) r } }

/-- A little-endian field of a descriptor. -/
def Desc.val (x : Desc) (off n : Nat) : Nat := leVal ((x.bytes.drop off).take n)

/-- A flag of the header (Table 9.3): 0 KNOT, 1 IRQ, 2 WAIT_EN, 3 SIGNAL_EN, 4 SIGNAL_ALWAYS, 5 ABORT_ON_ERROR. -/
def Desc.flag (x : Desc) (k : Nat) : Bool := bit (x.val 1 1) k

/-- The descriptor a command names, if the ring holds one of that slot that its stop has not left behind. -/
def State.desc (s : State) (d : DescRef) : Option Desc :=
  (s.ring d.fn d.ring).descs.find? fun x => x.slot == d.slot && !x.orphan

/-- The name for good of a descriptor of a ring. -/
def ticketOf (d : DescRef) (x : Desc) : Ticket := ⟨ringKey d.fn d.ring, x.order⟩

/-- A started descriptor that a command names and `sel` takes; one of a stopped ring runs on (R290). -/
def State.startedDesc (s : State) (d : DescRef) (sel : Desc → Bool) : Option Desc :=
  (s.ring d.fn d.ring).descs.find? fun x => x.slot == d.slot && sel x

/-- A fetched descriptor changed by `g`. -/
def State.modTicket (s : State) (t : Ticket) (g : Desc → Desc) : State :=
  let r := Tbl.get Ring.zero s.host.rings t.ring
  let r := { r with descs := r.descs.map fun x => if x.order == t.order then g x else x }
  { s with host := { s.host with rings := Tbl.set Ring.zero s.host.rings t.ring r } }

/-- The effect of a descriptor is complete, with this status, severity and info; DESC_COMPLETE reports it (R300). -/
def State.finish (s : State) (t : Ticket) (status sev info : Nat) : State :=
  let s := if status / 256 = 12 ∧ t.ring / 256 ≠ 0 then s.stallCode (t.ring / 256) status else s
  s.modTicket t fun x => if x.done.isSome then x else { x with started := true, done := some (status, sev, info) }

/-! ## Stitch markers -/

/-- The value of a marker. -/
def State.marker (s : State) (m : Nat) : Nat := Tbl.get 0 s.host.markers m

/-- A marker of value `v` has reached threshold `t` (R319). -/
def reached (v t : Nat) : Bool := decide ((v + 4294967296 - t % 4294967296) % 4294967296 < 2147483648)

/-- A marker set, with no look at its waits. -/
def State.putMarker (s : State) (m v : Nat) : State :=
  { s with host := { s.host with markers := Tbl.set 0 s.host.markers m (v % 4294967296) } }

/-- The WAITs and ARRIVEs on a marker that are met at the value `v` (R322). -/
def metWaits (l : List MarkWait) (m v : Nat) : List MarkWait :=
  l.filter fun w => w.marker == m && w.kind != 1 && reached v w.threshold

/-- Header waits on a marker whose threshold it has reached are met (R298, R322). -/
def State.meetHeaders (s : State) (m : Nat) : State :=
  let meet := fun (x : Desc) => if x.flag 2 && x.val 2 2 % 8192 == m && reached (s.marker m) (x.val 8 4) then { x with met := true } else x
  { s with host := { s.host with rings := s.host.rings.map fun e => (e.1, { e.2 with descs := e.2.descs.map meet }) } }

/-- The WAITs and ARRIVEs on a marker that are met complete and leave its waits, and header waits are met (R322). -/
def State.completeMet (s : State) (m : Nat) : State :=
  let s := s.meetHeaders m
  let met := metWaits s.host.waits m (s.marker m)
  let s := { s with host := { s.host with waits := s.host.waits.filter fun w => !met.contains w } }
  met.foldl (fun s w => s.finish w.desc 0 0 0) s

/-- The name that the planning engine's TAKE has among the waits (R217). -/
def engineTake : Ticket := ⟨8192, 0⟩

/-- A TAKE that has waited is served. -/
def State.serveTake (s : State) (w : MarkWait) : State :=
  if w.desc = engineTake then { s with planner := { s.planner with taken := true } } else s.finish w.desc 0 0 0

/-- A marker's waits looked at after an operation: the met WAITs and ARRIVEs complete, and the oldest waiting TAKE is
served where the value reaches its threshold; each subtraction is an operation of its own, after which the device looks
at the waits again (R322). The fuel bounds the number of TAKEs served. -/
def serveTakes : Nat → State → Nat → State
  | 0, s, m => s.completeMet m
  | n + 1, s, m =>
    let s := s.completeMet m
    match s.host.waits.find? fun w => w.marker == m && w.kind == 1 with
    | none => s
    | some w =>
      if reached (s.marker m) w.threshold then
        let s := s.putMarker m (s.marker m + 4294967296 - w.threshold % 4294967296)
        let s := { s with host := { s.host with waits := s.host.waits.erase w } }
        serveTakes n (s.serveTake w) m
      else s

/-- A marker's waits evaluated again after an operation (R322). -/
def State.wakeWaits (s : State) (m : Nat) : State := serveTakes s.host.waits.length s m

/-- An operation on a marker: its value set, then its waits evaluated (R322). -/
def State.setMarker (s : State) (m v : Nat) : State := (s.putMarker m v).wakeWaits m

/-- ADD of Table 9.12. -/
def State.addMarker (s : State) (m v : Nat) : State := s.setMarker m (s.marker m + v)

/-- Does a fetched descriptor wait at its header (R298)? -/
def State.headerWaits (s : State) (x : Desc) : Bool :=
  !x.started && x.done.isNone && x.flag 2 && !x.met && !reached (s.marker (x.val 2 2 % 8192)) (x.val 8 4)

/-- Waits pending in the package, header waits included (R324). -/
def State.waitsPending (s : State) : Nat :=
  s.host.waits.length + s.host.rings.foldl (fun n r => n + (r.2.descs.filter s.headerWaits).length) 0

end Sys2Proof.Machine
end

