-- ==== Sys2Proof/Machine/Programs.lean ====
section
/-!
DEFINITION. Machine/Programs.lean: program slots, handover buffers and kills: what several families do to loaded programs
(R55, R66 to R69, R268, R283, R306, R307).
-/

namespace Sys2Proof.Machine

/-! ## Slots -/

/-- The key of a program slot of a function. -/
def slotKey (fn slot : Nat) : Nat := fn * 16 + slot

/-- A program slot. -/
def State.slot (s : State) (fn slot : Nat) : Slot := Tbl.get Slot.empty s.fabric.slots (slotKey fn slot)

/-- A program slot replaced. -/
def State.setSlot (s : State) (fn slot : Nat) (x : Slot) : State :=
  { s with fabric := { s.fabric with slots := Tbl.set Slot.empty s.fabric.slots (slotKey fn slot) x } }

/-- What a slot holds for a descriptor: a program that has been shed is one no longer (R268). -/
def State.slotFor (s : State) (fn slot : Nat) : Slot :=
  match s.slot fn slot with
  | .loaded p => if p.doomed then .shed else .loaded p
  | x => x

/-- The program of a slot, if one is loaded. -/
def State.program (s : State) (fn slot : Nat) : Option Program :=
  match s.slot fn slot with
  | .loaded p => some p
  | _ => none

/-- A loaded program changed by `g`. -/
def State.modProgram (s : State) (fn slot : Nat) (g : Program → Program) : State :=
  match s.program fn slot with
  | some p => s.setSlot fn slot (.loaded (g p))
  | none => s

/-- Every loaded program, in slot order. -/
def State.programs (s : State) : List Program :=
  s.fabric.slots.filterMap fun e => match e.2 with | .loaded p => some p | _ => none

/-- A started program's START in force changed by `g`. -/
def State.modRunning (s : State) (fn slot : Nat) (g : Running → Running) : State :=
  s.modProgram fn slot fun p => { p with running := p.running.map g }

/-- The iterations of a program: those in hand, and those that a kill ended with windows left to move. -/
def Program.iterations (p : Program) : List Iteration :=
  (match p.running with
    | some r => r.iters
    | none => []) ++ p.tail

/-- An iteration of a program. -/
def State.iteration (s : State) (fn slot n : Nat) : Option Iteration :=
  (s.program fn slot).bind fun p => p.iterations.find? (·.number == n)

/-- An iteration changed by `g`. -/
def State.modIteration (s : State) (fn slot n : Nat) (g : Iteration → Iteration) : State :=
  let m := fun (l : List Iteration) => l.map fun i => if i.number == n then g i else i
  s.modProgram fn slot fun p => { p with running := p.running.map fun r => { r with iters := m r.iters }, tail := m p.tail }

/-- The command of a reference with its run and iteration, if they exist. -/
def State.cmdRun (s : State) (c : CmdRef) : Option (Program × Iteration × Command × CmdRun) :=
  match s.program c.fn c.slot, s.iteration c.fn c.slot c.iter with
  | some p, some it =>
    match p.commands[c.cmd]?, it.runs[c.cmd]? with
    | some k, some r => some (p, it, k, r)
    | _, _ => none
  | _, _ => none

/-- A command's run changed by `g`. -/
def State.modRun (s : State) (c : CmdRef) (g : CmdRun → CmdRun) : State :=
  s.modIteration c.fn c.slot c.iter fun i =>
    match i.runs[c.cmd]? with
    | some r => { i with runs := setAt i.runs c.cmd (g r) }
    | none => i

/-! ## Handover buffers -/

/-- A buffer that a loaded program declares. -/
def State.buffer (s : State) (id : Nat) : Option Buffer := Tbl.get none s.fabric.buffers id

/-- A buffer replaced. -/
def State.setBuffer (s : State) (id : Nat) (b : Option Buffer) : State :=
  { s with fabric := { s.fabric with buffers := Tbl.set none s.fabric.buffers id b } }

/-- The context that backs a buffer, if an enabled one is bound to it (R179). -/
def State.backing (s : State) (id : Nat) : Option Nat :=
  (List.range 128).find? fun n =>
    s.fld .SENS_STREAM_CTX_ENABLE n == 1 && s.fld .SENS_STREAM_PARAM_BUFFER_ID n == id

/-- The offset in hub SRAM of byte 0 of a half (Table 2.11). -/
def Buffer.halfOffset (b : Buffer) (h : Nat) : Nat := b.entry.hubOffset + 256 + h * (256 + b.entry.size)

/-- The device address of byte 0 of a half. -/
def Buffer.halfAddr (b : Buffer) (h : Nat) : Nat := hubBase + b.halfOffset h

/-- A half's status word (02: [31:1] generation, [0] ready). -/
def Half.word (h : Half) : Nat := h.gen * 2 + (if h.ready then 1 else 0)

/-! ## Stream contexts and their buffers (R179) -/

/-- A stream context. -/
def State.ctx (s : State) (n : Nat) : Context := Tbl.get Context.zero s.sensing.contexts n

/-- A stream context replaced. -/
def State.setCtx (s : State) (n : Nat) (c : Context) : State :=
  { s with sensing := { s.sensing with contexts := Tbl.set Context.zero s.sensing.contexts n c } }

/-- A stream context changed by `g`. -/
def State.modCtx (s : State) (n : Nat) (g : Context → Context) : State := s.setCtx n (g (s.ctx n))

/-- The status words of a stream-backed buffer at hub_offset, at 0, 4 and 8 (R179). -/
def State.slotWords (s : State) (n : Nat) : State :=
  match s.buffer (s.fld .SENS_STREAM_PARAM_BUFFER_ID n) with
  | none => s
  | some b =>
    s.devWrite (hubBase + b.entry.hubOffset)
      ((s.ctx n).slots.flatMap fun x => leBytes 4 (x.gen * 2 + (if x.phase = .ready then 1 else 0)))

/-- The generation counter of a stream-backed buffer is 0 when its program is loaded (R55, R179). Generation 0 never marks data, so an item
that was ready before is taken back (log 49). -/
def State.resetGen (s : State) (n : Nat) : State :=
  State.slotWords (s.modCtx n fun c => { c with
    gen := 0, slots := c.slots.map fun x => if x.phase == .ready then FrameSlot.zero else { x with gen := 0 } }) n

/-- The next generation of a buffer: from 2³¹ - 1 to 1, never 0 (R55). -/
def nextGen (g : Nat) : Nat := if g = 2147483647 then 1 else g + 1

/-- The newest ready half (R55). -/
def Buffer.newest (b : Buffer) : Option Nat :=
  match b.halves[0]?, b.halves[1]? with
  | some x, some y =>
    if x.ready && y.ready then some (if x.filled < y.filled then 1 else 0)
    else if x.ready then some 0 else if y.ready then some 1 else none
  | _, _ => none

/-- The half that is filled next: of an inbound buffer the one that the fabric did not read last (R55, R56), of an outbound
one the one that no COPY holds (R309); of two such halves the one that was filled earlier. -/
def Buffer.freeHalf (b : Buffer) : Nat :=
  let half := fun i => (b.halves[i]?).getD Half.zero
  match b.lastRead with
  | some i => 1 - i
  | none =>
    if (half 0).held then 1
    else if (half 1).held then 0
    else if (half 1).filled < (half 0).filled then 1 else 0

/-- Half `h` of a buffer replaced, with its status word written to its head in hub SRAM (R521). -/
def State.putHalf (s : State) (id h : Nat) (x : Half) : State :=
  match s.buffer id with
  | none => s
  | some b =>
    let s := s.setBuffer id (some { b with halves := setAt b.halves h x })
    s.devPut (hubBase + b.entry.hubOffset + h * (256 + b.entry.size)) 4 x.word

/-- A fill of half `h` is complete: ready, stamped with the next generation (R55). -/
def State.fillHalf (s : State) (id h : Nat) (g : Half → Half) : State :=
  match s.buffer id with
  | none => s
  | some b =>
    let gen := nextGen b.gen
    let b' := { b with gen := gen, fills := b.fills + 1 }
    let old := (b.halves[h]?).getD Half.zero
    (s.setBuffer id (some b')).putHalf id h
      (g { old with gen := gen, ready := true, filled := b.fills + 1, held := false,
                    pendingVerdict := false, invalid := false, agreed := false, released := false, iter := none })

/-- A half's ready bit cleared. -/
def State.clearReady (s : State) (id h : Nat) : State :=
  match s.buffer id with
  | none => s
  | some b => match b.halves[h]? with
    | none => s
    | some x => s.putHalf id h { x with ready := false }

/-- A buffer declared, not ready and at generation 0 (R55: the counter is 0 when the program is loaded), with its status words in hub
SRAM: two heads, or the three words of a stream-backed buffer (R179, R521). -/
def State.declareBuffer (p : Program) (s : State) (h : Handover) : State :=
  let s := s.setBuffer h.bufId (some ⟨h, p.fn, p.slot, 0, 0, [Half.zero, Half.zero], none⟩)
  match s.backing h.bufId with
  | some n => s.resetGen n
  | none => (s.devPut (hubBase + h.hubOffset) 4 0).devPut (hubBase + h.hubOffset + 256 + h.size) 4 0

/-- The buffers of a program declared. -/
def State.declareBuffers (s : State) (p : Program) : State := p.handovers.foldl (State.declareBuffer p) s

/-- The buffers of a program taken back. -/
def State.dropBuffers (s : State) (p : Program) : State :=
  p.handovers.foldl (fun s h => s.setBuffer h.bufId none) s

/-! ## The pair link's sender -/

/-- The bytes of a flit that its CRC covers (Table 8.7). -/
def Flit.covered (f : Flit) : List Byte :=
  leBytes 1 f.kind ++ leBytes 1 ((if f.nak then 1 else 0) + if f.ackValid then 2 else 0) ++ leBytes 2 f.seq ++ leBytes 2 f.ack ++
    leBytes 2 f.credits ++ (f.body ++ List.replicate 112 0).take 112 ++ leBytes 4 0

/-- The CRC-32 of a flit (R276). -/
def Flit.crc (f : Flit) : Nat := crc32 f.covered

/-- The 128 bytes of a flit. -/
def Flit.bytes (f : Flit) : List Byte := f.covered ++ leBytes 4 f.crc

/-- One bit of the additive generator x³¹ + x²⁸ + 1 (R275): its output and its next state (log 108). -/
def scrambleStep (g : Nat) : Nat × Nat :=
  let o := ((g >>> 30) ^^^ (g >>> 27)) % 2
  (o, (2 * g + o) % 2147483648)

/-- A byte scrambled, its lowest bit first, with the generator's next state. -/
def scrambleByte (g : Nat) (b : Byte) : Byte × Nat :=
  let (k, g) := (List.range 8).foldl (fun (x : Nat × Nat) i =>
    let (o, g) := scrambleStep x.2
    (x.1 + o * 2 ^ i, g)) (0, g)
  (b ^^^ BitVec.ofNat 8 k, g)

/-- The data block of a lane scrambled (R275). -/
def scrambleBlock : Nat → List Byte → List Byte × Nat
  | g, [] => ([], g)
  | g, b :: l =>
    let (x, g) := scrambleByte g b
    let (y, g) := scrambleBlock g l
    (x :: y, g)

/-- The seed of a lane's scrambler at the end of training (R275). -/
def scrambleSeed (l : Nat) : Nat := 0x12345678 + l

/-- The blocks of a flit: byte j on lane j mod 8 (R276), each lane scrambled; after 2,048 data blocks a SKIP on every lane (R275). -/
def PairLink.putBlocks (p : PairLink) (l : List Byte) : PairLink :=
  let lanes := (List.range 8).map fun n => scrambleBlock (p.scramblers.getD n 0) ((List.range 16).map fun i => l.getD (8 * i + n) 0)
  let p : PairLink := { p with wire := p.wire ++ [.data (lanes.map (·.1))], scramblers := lanes.map (·.2), blocks := p.blocks + 1 }
  if p.blocks < 2048 then p else { p with wire := p.wire ++ [.control 0x78], blocks := 0 }

/-- A flit sent with the header of the moment (R277): what the receiver has found and freed since the last one goes with it (log 108). -/
def PairLink.transmit (p : PairLink) (seq kind : Nat) (body : List Byte) : PairLink :=
  let f : Flit := ⟨kind, p.nak, p.ackValid, seq, p.inOrder, p.freed % 65536, body⟩
  { p.putBlocks f.bytes with nak := false, freed := 0, sent := p.sent ++ [f] }

/-- Is there a place in the replay buffer of 256, and a credit, for one more sequenced flit (R277)? -/
def PairLink.room (p : PairLink) : Bool := decide (p.replay.length < 256) && decide (0 < p.credits)

/-- A sequenced flit sent under the next sequence number, and kept for a resend. -/
def PairLink.launch (p : PairLink) (kind : Nat) (body : List Byte) : PairLink :=
  let n := p.nextSeq
  { p.transmit n kind body with nextSeq := (n + 1) % 65536, credits := p.credits - 1, replay := p.replay ++ [⟨n, kind, body, 0⟩] }

/-- Flits that waited are sent as far as there is room; the fuel bounds their number. -/
def PairLink.drain : Nat → PairLink → PairLink
  | 0, p => p
  | n + 1, p =>
    match p.backlog with
    | [] => p
    | (k, b) :: l => if p.room then PairLink.drain n (PairLink.launch { p with backlog := l } k b) else p

/-- Is a flit of this type sequenced (Table 8.8)? -/
def sequencedKind (kind : Nat) : Bool := kind == 1 || kind == 4 || kind == 5 || kind == 6

/-- A flit to send: a sequenced one waits its turn for a sequence number and a place in the replay buffer (R277). -/
def State.sendFlit (s : State) (kind : Nat) (body : List Byte) : State :=
  if !sequencedKind kind then { s with pair := s.pair.transmit 0 kind body }
  else if s.pair.backlog.isEmpty && s.pair.room then { s with pair := s.pair.launch kind body }
  else { s with pair := { s.pair with backlog := s.pair.backlog ++ [(kind, body)] } }

/-- The body of an ABORT (Table 8.8). -/
def abortBody (kind id gen reason : Nat) : List Byte := leBytes 1 kind ++ leBytes 1 id ++ leBytes 2 gen ++ leBytes 1 reason

/-- An ABORT sent (R283): kind 0 transfer, 1 barrier; recorded as PAIR_ABORTED. -/
def State.sendAbort (s : State) (kind id gen reason : Nat) : State :=
  let s := s.sendFlit 6 (abortBody kind id gen reason)
  let s := { s with pair := { s.pair with aborted := (kind * 64 + id, gen) :: s.pair.aborted } }
  s.report 0x565 0

/-- A barrier of the pair link. -/
def State.barrier (s : State) (id : Nat) : Option Barrier := Tbl.get none s.pair.barriers id

/-- A barrier replaced. -/
def State.setBarrier (s : State) (id : Nat) (b : Option Barrier) : State :=
  { s with pair := { s.pair with barriers := Tbl.set none s.pair.barriers id b } }

/-- A transfer's progress. -/
def State.xfer (s : State) (n : Nat) : Xfer := Tbl.get Xfer.zero s.pair.xfers n

/-- A transfer's progress replaced. -/
def State.setXfer (s : State) (n : Nat) (x : Xfer) : State :=
  { s with pair := { s.pair with xfers := Tbl.set Xfer.zero s.pair.xfers n x } }

/-! ## Commands of a program -/

/-- The command of a program with an identifier. -/
def Program.command (p : Program) (id : Nat) : Option Command := p.commands.find? fun c => c.id == id

/-! ## Tiles that stay idle (Table 12.3) -/

/-- Does a command use a tile that stays idle: one that failed its swatch in Night Market, until the next main-path start (Table 12.3)? -/
def State.idleTile (s : State) (c : Command) : Bool :=
  s.mode == .nightMarket && s.fabric.repairs.any fun x =>
    (List.range 40).any fun t => bit (c.tiles.getD x.1 0) t && s.physOf x.1 t == x.2

/-! ## Kills -/

/-- Is the command's run neither committed nor failed nor killed? -/
def CmdRun.uncommitted (r : CmdRun) : Bool :=
  match r.phase with
  | .idle => true
  | .running => true
  | _ => false

/-- A run ended without a commit: everything it held in shadow is discarded (R61, R66). -/
def CmdRun.discard (r : CmdRun) (ph : CmdPhase) : CmdRun :=
  { CmdRun.fresh with phase := ph, began := r.began, verdicts := r.verdicts, attn := r.attn }

/-- The watches of a program's commands disarmed (R68); `only` names the iteration and the command. -/
def State.disarm (s : State) (fn slot : Nat) (only : Nat → Nat → Bool) : State :=
  { s with fabric := { s.fabric with watches :=
      (s.fabric.watches.map fun e =>
        if e.2.fn == fn && e.2.slot == slot && only e.2.iter e.2.index then (e.1, { e.2 with armed := false }) else e) } }

/-- Does a kill at `beat` come too late for a command of an iteration: it runs and commits at that beat or before (R67)? -/
def tooLate (it : Iteration) (c : Command) (x : CmdRun) (beat : Nat) : Bool :=
  x.phase == .running && decide (it.start + c.commit ≤ beat)

/-- The commands of a program that a kill at `beat` ends, over its iterations: those not committed whose start the entry allows and
that do not commit at that beat (R66, R67). -/
def killable (p : Program) (beat : Nat) : List (Nat × Nat) :=
  match p.running with
  | none => []
  | some r => r.iters.flatMap fun it =>
      ((List.range p.commands.length).filter fun k =>
        match it.runs[k]?, p.commands[k]? with
        | some x, some c => x.uncommitted && it.entryBeat ≤ c.start && !tooLate it c x beat
        | _, _ => false).map fun k => (it.number, k)

/-- An iteration that a kill at `beat` ends: what it holds uncommitted is discarded, but for commands that commit at that beat. -/
def Iteration.killAt (p : Program) (beat : Nat) (it : Iteration) : Iteration :=
  { it with killed := true, runs := it.runs.mapIdx fun k x =>
      if x.uncommitted && !((p.commands[k]?).any fun c => tooLate it c x beat) then x.discard .killed else x }

/-- Every uncommitted command of the program's iterations is killed and each kill counted (R66 to R68); later iterations
are cancelled. -/
def State.killIterations (s : State) (fn slot : Nat) : State :=
  match s.program fn slot with
  | none => s
  | some p =>
    let kills := killable p s.fabric.beat
    let s := kills.foldl (fun s k => s.tally 0x0A (((p.commands[k.2]?).map (·.id)).getD 0 % 65536)) s
    let s := s.disarm fn slot fun it k => kills.contains (it, k)
    s.modRunning fn slot fun r => { r with next := none, stopped := true, iters := r.iters.map (Iteration.killAt p s.fabric.beat) }

/-- The command that a killed START names (R312): the first uncommitted one, or 0 when none was running. -/
def firstKilled (p : Program) (beat : Nat) : Nat :=
  match killable p beat with
  | k :: _ => ((p.commands[k.2]?).map (·.id % 65536)).getD 0
  | [] => 0

/-- A barrier that a killed START was waiting at fails on both sides (R69, R283). -/
def State.killBarrier (s : State) (r : Running) : State :=
  match r.barrier with
  | none => s
  | some (id, gen) =>
    if r.iters.isEmpty then (s.setBarrier id none).sendAbort 1 id gen 0 else s

/-- Does a command that a kill ends wait on buffer `b`: it is to read it and has not (R283)? -/
def Program.waitsOn (p : Program) (beat b : Nat) : Bool :=
  (killable p beat).any fun k => (p.iterations.find? (·.number == k.1)).any fun it =>
    (List.range p.handovers.length).any fun i => match p.handovers[i]?, p.commands[k.2]? with
      | some h, some c => h.bufId == b && h.dir == 0 && h.cmd == c.id && !it.reads.any (·.1 == i)
      | _, _ => false

/-- A kill of commands that wait on a pair-fed inbound buffer: the peer is told to stop the half in flight, and what this side has of it is
discarded (R283). The ABORT names the generation that the half would have been given (log 39). -/
def State.killTransfers (s : State) (p : Program) : State :=
  (List.range 64).foldl (init := s) fun s n =>
    match (s.xfer n).feeds with
    | none => s
    | some b =>
      if decide (2 ≤ s.pair.state) && p.waitsOn s.fabric.beat b then
        let gen := nextGen (((s.buffer b).map (·.gen)).getD 0)
        let x := s.xfer n
        (s.setXfer n { x with receiving := none, dropping := x.dropping || x.receiving.isSome }).sendAbort 0 n (gen % 65536) 0
      else s

/-- The pages reserved for the re-issue of a program are free again (R171). -/
def State.unstarve (s : State) (fn slot : Nat) : State :=
  let keep := fun (x : Starved) => !(x.fn == fn && x.slot == slot && x.done)
  let pools := s.pools.map fun e => match e.2 with
    | some q => (e.1, some { q with starved := q.starved.filter keep })
    | none => e
  { s with pools := pools }

/-- Beats that a window of s bytes takes until its data is usable or its write complete (R50). -/
def windowBeats (size : Nat) : Nat := 96 + ceilDiv size 800

/-- The last beat of an iteration at which a window may move or complete. -/
def Program.windowsEnd (p : Program) (it : Iteration) : Nat :=
  it.start + p.windows.foldl (fun m w => max m (w.beat + windowBeats w.size)) 0

/-- Has a command of the iteration committed, or does it commit yet? -/
def Iteration.leavesWindows (it : Iteration) : Bool := it.runs.any fun x => x.phase == .committed || x.phase == .running

/-- A program's START leaves it: iterations whose committed commands still have windows stay until those have moved (R58, R67). -/
def State.leaveRunning (s : State) (fn slot : Nat) : State :=
  s.modProgram fn slot fun p =>
    let left := p.iterations.filter fun it => it.leavesWindows && decide (s.fabric.beat ≤ p.windowsEnd it)
    { p with running := none, tail := left }

/-- The KILLs that wait on a START complete. -/
def State.finishKill (s : State) (r : Running) (status : Nat) : State := r.kill.foldl (fun s k => s.finish k.2 status 0 0) s

/-- The status, severity and info that a START ends with when nothing kills it (R305, R312). -/
def Running.result (r : Running) : Nat × Nat × Nat :=
  match (if r.failure.isSome then r.first.or r.failure else none), r.final with
  | some (code, id, sev), _ => (code, sev, id % 65536)
  | none, some (code, sev) => (code, sev, 0)
  | none, none => if r.skipped then (0x220, 0, 0) else (0, 0, min r.ended 65535)

/-- Does a program wait for the re-issue of a starved iteration (R170)? -/
def Running.waitsReissue (r : Running) : Bool := r.iters.getLast?.any (·.killed)

/-- A START leaves its program with a result, and the KILL that waits on it completes. -/
def State.endStart (s : State) (fn slot : Nat) (r : Running) (code sev info kill : Nat) : State :=
  let s := match r.desc with
    | some d => s.finish d code sev info
    | none => s
  (s.finishKill r kill).leaveRunning fn slot

/-- A program's run is ended by a kill, and the program stays loaded: its commands are killed and its START completes with `status`
(R66 to R69, R306). A kill that comes after the last commit of the iteration has no further effect on it: no further iteration starts,
and the KILL that waits is too late (R67). -/
def State.killProgram (s : State) (fn slot status sev : Nat) : State :=
  match s.program fn slot with
  | none => s
  | some p => match p.running with
    | none => s
    | some r =>
      if !(killable p s.fabric.beat).isEmpty || r.count == 0 || r.waitsReissue then
        let info := firstKilled p s.fabric.beat
        let s := (((s.killIterations fn slot).killBarrier r).killTransfers p).unstarve fn slot
        s.endStart fn slot r status sev info 0
      else if r.iters.isEmpty then
        let (code, sv, info) := r.result
        s.endStart fn slot r code sv info 0
      else
        (s.finishKill r 0x121).modRunning fn slot fun r => { r with next := none, stopped := true, kill := [] }

/-- A stall event (Table 15.3) measured in the stall's log. -/
def State.logStall (s : State) (k event : Nat) (detail : List Byte) : State :=
  let size := s.stallSize k
  let e := leBytes 1 event ++ leBytes 1 k ++ leBytes 2 0 ++ leBytes 4 (s.stallQuarters k) ++
    leBytes 8 size ++ (detail ++ List.replicate 16 0).take 16
  s.measure k 9 (shake256 e 32)

/-- Every program of a function killed, its STARTs completing with a code (R66, R479). -/
def State.killFunction (s : State) (fn status sev : Nat) : State :=
  (List.range 16).foldl (fun s slot => s.killProgram fn slot status sev) s

/-- A severity-2 or severity-3 record that names a resource of stall `k` (R479). -/
def State.stallFault (s : State) (k code : Nat) : State :=
  if k = 0 ∨ s.stall k = .closed then s
  else
    let s := ((s.killFunction k code 2).report 0xC22 2).stallCode k 0xC22
    (s.logStall k 3 (leBytes 2 code)).stallEvent k 2

/-- COPYs that wait for the verdict of a half for which `p` holds complete with `status`. -/
def State.finishCopies (s : State) (p : Nat × Nat → Bool) (status sev : Nat) : State :=
  s.host.rings.foldl (init := s) fun s e =>
    e.2.descs.foldl (init := s) fun s x =>
      match x.waits with
      | some w => if p w then s.finish ⟨e.1, x.order⟩ status sev 0 else s
      | none => s

/-- COPYs that wait for a verdict on a buffer of a program that goes complete with COPY_BAD_TARGET (R309). -/
def State.failWaitingCopies (s : State) (p : Program) : State :=
  s.finishCopies (fun w => p.handovers.any (·.bufId == w.1)) 0x620 0

/-- The pairs of a program of a slot that are split when it is loaded (R347, R349). -/
def State.splitOf (s : State) (fn slot : Nat) : Nat :=
  s.gauge.forced ||| (if fn = 0 then s.gauge.splits.getD slot 0 else 0)

/-- Does any program still wait for a change or warm-up of the descriptor? -/
def State.pairPending (s : State) (t : Ticket) : Bool :=
  s.programs.any fun p => p.changes.any (fun c => c.desc == t) || p.warm.any fun w => w.desc == some t

/-- The descriptor of a change completes when no program waits for it any more; a JOIN is then logged (R347, Table 10.6). -/
def State.pairDone (s : State) (t : Ticket) (join : Bool) : State :=
  if s.pairPending t then s
  else (if join then s.report 0x743 0 else s).finish t 0 0 0

/-- The pair changes that wait for a program that has left its slot apply to the next START there (R347). -/
def State.settleChanges (s : State) (fn slot : Nat) (p : Program) : State :=
  let s := if fn = 0 ∧ !p.changes.isEmpty then
      { s with gauge := { s.gauge with splits := setAt s.gauge.splits slot (s.gauge.goals.getD slot 0) } } else s
  let s := p.changes.foldl (fun s c => s.pairDone c.desc (!c.split)) s
  (p.warm.filterMap (·.desc)).foldl (fun s t => s.pairDone t true) s

/-! ## Quadrants of compute dies (R406) -/

/-- Does the program use die `d` (R46)? -/
def Program.usesDie (p : Program) (d : Nat) : Bool :=
  (p.commands.any fun c => c.tiles.getD d 0 != 0) ||
  (p.sections.any fun x => (x.kind == 1 || x.kind == 5 || x.kind == 8) && x.die == d) ||
  (p.windows.any fun w => w.die == d || (w.target == 3 && w.addr % 8 == d)) || p.agrees.any fun a => a.die == d

/-- Does a program map the logical tile CDd.Tt (R406)? -/
def Program.usesTile (p : Program) (d t : Nat) : Bool :=
  (p.commands.any fun c => bit (c.tiles.getD d 0) t) ||
  (p.sections.any fun x => (x.kind == 1 || x.kind == 5) && (x.die == d || x.die == 255 && p.usesDie d) &&
    (x.tile == 255 || x.tile == t)) ||
  (p.windows.any fun w => w.tile == t && (w.die == d || (w.target == 3 && w.addr % 8 == d))) || p.agrees.any fun a => a.die == d && a.tile == t

/-- The quadrant of a physical tile (Table 13.2). -/
def quadrantOf (phys : Nat) : Nat := if phys ≤ 10 then 0 else if phys ≤ 20 then 1 else if phys ≤ 31 then 2 else 3

/-- Is a logical tile mapped by a loaded program, or does it hold data of a COPY (R406)? -/
def State.tileWanted (s : State) (d t : Nat) : Bool :=
  s.fabric.copied.contains (d, t) || s.programs.any fun p => p.usesTile d t

/-- Is quadrant `q` of die `d` powered for a program or a COPY (R406)? -/
def State.quadrantOn (s : State) (d q : Nat) : Bool :=
  s.fabric.dieOn.getD d false && (List.range 40).any fun t => quadrantOf (s.physOf d t) == q && s.tileWanted d t

/-- Quadrants that nothing needs are switched off: their tile SRAM reads as zero (R406). -/
def State.settleQuadrants (s : State) : State :=
  let on := (List.range 6).map fun d => (List.range 4).map fun q => s.quadrantOn d q
  let keep := fun (a : Nat) => match regionOf a with
    | .tile d t => (on.getD d []).getD (quadrantOf (s.physOf d t)) false
    | _ => true
  { s with mem := s.mem.filter fun p => keep p.1 }

/-- A compute die on or off. -/
def State.setDie (s : State) (d : Nat) (on : Bool) : State :=
  State.settleQuadrants { s with fabric := { s.fabric with dieOn := setAt s.fabric.dieOn d on } }

/-- An UNLOAD that leaves a die of the program without a program drops what COPYs placed there (R406). -/
def State.forgetCopied (s : State) (p : Program) : State :=
  { s with fabric := { s.fabric with
    copied := s.fabric.copied.filter fun x => !p.usesDie x.1 || s.programs.any fun q => q.usesDie x.1 } }

/-- A program leaves its slot (R307), a START still in force with the result it has: its buffers, its tile SRAM and its reservations are free. -/
def State.unload (s : State) (fn slot : Nat) (left : Slot) : State :=
  match s.program fn slot with
  | none => s.setSlot fn slot left
  | some p =>
    let s := match p.running with
      | some r =>
        let (code, sv, info) := r.result
        s.endStart fn slot r code sv info 0x121
      | none => s
    let s := ((s.failWaitingCopies p).dropBuffers p).setSlot fn slot left
    ((s.settleChanges fn slot p).forgetCopied p).settleQuadrants

/-- Does a command of a program commit at `beat` (R67)? -/
def Program.commitsAt (p : Program) (beat : Nat) : Bool :=
  p.iterations.any fun it => (List.range p.commands.length).any fun k =>
    match it.runs[k]?, p.commands[k]? with
    | some x, some c => x.phase == .running && it.start + c.commit == beat
    | _, _ => false

/-- A shed program leaves its slot once none of its commands commits at the present beat (R67, R268). -/
def State.reap (s : State) (fn slot : Nat) : State :=
  match s.program fn slot with
  | some p => if p.doomed && !p.commitsAt s.fabric.beat then s.unload fn slot .shed else s
  | none => s

end Sys2Proof.Machine
end

