-- ==== Sys2Proof/Machine/Settings.lean ====
section
/-!
DEFINITION. Machine/Settings.lean: the settings of the islands (Table 11.2), read from the safety section of the valid
configuration record (R357, Tables 14.7 and 14.8); without one, the defaults.
-/

namespace Sys2Proof.Machine

/-- PILOT_PERIOD in ns. -/
def State.pilotPeriod (s : State) : Nat := s.setting 0 1 20 * 1000000

/-- HUB_HB_TIMEOUT in ns. -/
def State.hubHbTimeout (s : State) : Nat := s.setting 1 1 3 * 1000000

/-- CROSS_HB_TIMEOUT in ns. -/
def State.crossHbTimeout (s : State) : Nat := s.setting 2 1 3 * 1000000

/-- HANDBACK_CYCLES. -/
def State.handbackCycles (s : State) : Nat := s.setting 3 1 3

/-- VS_TIMEOUT in ns. -/
def State.vsTimeout (s : State) : Nat := s.setting 4 2 50 * 1000000

/-- STATUS_PERIOD in ns. -/
def State.statusPeriod (s : State) : Nat := s.setting 6 1 10 * 1000000

/-- RESTART_LIMIT. -/
def State.restartLimit (s : State) : Nat := s.setting 7 1 2

/-- ACC_MAX, LAT_MAX and SPEED_TOL as FP32 patterns. -/
def State.accMax (s : State) : Nat := s.setting 8 4 0x40C00000
def State.latMax (s : State) : Nat := s.setting 12 4 0x40A00000
def State.speedTol (s : State) : Nat := s.setting 16 4 0x40000000

/-- OCC_THR. -/
def State.occThr (s : State) : Nat := s.setting 20 1 128

/-- SUP_HORIZON in ms. -/
def State.supHorizon (s : State) : Nat := s.setting 24 2 3000

/-- EGO_FRONT, EGO_REAR and EGO_HALF_WIDTH as FP32 patterns. -/
def State.egoFront (s : State) : Nat := s.setting 28 4 0
def State.egoRear (s : State) : Nat := s.setting 32 4 0
def State.egoHalf (s : State) : Nat := s.setting 36 4 0

/-- debug_window in ns (Table 14.7). -/
def State.debugWindow (s : State) : Nat := s.confField 6 2 0 * 1000000

end Sys2Proof.Machine
end

