-- ==== Sys2Proof/Machine/Records.lean ====
section
/-!
DEFINITION. Machine/Records.lean: the signed items of the boot flash (14): certificates, the device record, the configuration
record and the image, and the writing of the field part.
-/

namespace Sys2Proof.Machine

/-- A little-endian field of a byte list. -/
def fieldAt (b : List Byte) (o n : Nat) : Nat := leVal ((b.drop o).take n)

/-- `n` bytes from offset `o`. -/
def slice (b : List Byte) (o n : Nat) : List Byte := (b.drop o).take n

/-- Are the `n` bytes from `o` zero? -/
def zeroAt (b : List Byte) (o n : Nat) : Bool := (slice b o n).all fun x => x == 0

/-! ## The boot flash (R442) -/

/-- `n` bytes of a flash table from `a`; an unlisted byte is erased. -/
def flashBytes (t : Tbl Byte) (a : Nat) : Nat → List Byte
  | 0 => []
  | n + 1 => Tbl.get 255 t a :: flashBytes t (a + 1) n

/-- Bytes programmed to a flash table. -/
def flashPut (t : Tbl Byte) (a : Nat) : List Byte → Tbl Byte
  | [] => t
  | b :: l => flashPut (Tbl.set 255 t a b) (a + 1) l

/-- Bytes of the boot flash. -/
def State.flashRead (s : State) (a n : Nat) : List Byte := flashBytes s.flash a n

/-- Bytes written to the boot flash. -/
def State.flashWrite (s : State) (a : Nat) (l : List Byte) : State := { s with flash := flashPut s.flash a l }

/-- The [a, a + n) of the boot flash erased. -/
def State.flashErase (s : State) (a n : Nat) : State :=
  { s with flash := s.flash.filter fun p => p.1 < a || a + n ≤ p.1 }

/-! ## Certificates (R443) -/

/-- The root public key in flash. -/
def State.rootKey (s : State) : List Byte := s.flashRead 0 1793

/-- Is the root public key the one whose hash the mask ROM holds (R443)? -/
def rootOk (key : List Byte) : Bool := shake256 key 32 == Config.rootHash

/-- Is a certificate valid for a use (R443): usage bit 0 MANUFACTURING, 1 FIRMWARE, 2 OEM_CONFIG, 3 DEBUG_FULL, 4 DEBUG_OEM? -/
def certOk (root cert : List Byte) (usage : Nat) : Bool :=
  fieldAt cert 0 4 == 0x54524543 && bit (fieldAt cert 4 2) usage && zeroAt cert 6 2 && zeroAt cert 24 8 &&
  zeroAt cert 1825 7 && Config.falconVerify root (slice cert 0 1832) (slice cert 1832 1280)

/-- The public key of a certificate. -/
def certKey (cert : List Byte) : List Byte := slice cert 32 1793

/-- The subject_id of a certificate. -/
def certSubject (cert : List Byte) : List Byte := slice cert 8 16

/-! ## The device record (R445, R446) -/

/-- Is a factory part valid (Table 14.5)? -/
def factoryOk (root f : List Byte) : Bool :=
  let cert := slice f 10056 3112
  fieldAt f 0 4 == 0x43455244 && fieldAt f 4 2 == 1 && fieldAt f 24 4 == 0x8A6 && certOk root cert 0 &&
  Config.falconVerify (certKey cert) (slice f 0 13168) (slice f 13168 1280)

/-- The serial number of a factory part. -/
def factorySerial (f : List Byte) : List Byte := slice f 8 16

/-- Is a copy of the field part valid for an identity key and a factory part (R446)? -/
def fieldOk (key factory f : List Byte) : Bool :=
  fieldAt f 0 4 == 0x444C4644 && fieldAt f 4 2 == 1 && slice f 16 32 == shake256 factory 32 &&
  Config.falconVerify key (slice f 0 2248) (slice f 2248 1280)

/-- The valid copy of the field part with the higher sequence (R446), or none. -/
def State.fieldInUse (s : State) (key factory : List Byte) : Option (List Byte) :=
  let a := s.flashRead 0x20000 3528
  let b := s.flashRead 0x30000 3528
  let okA := fieldOk key factory a
  let okB := fieldOk key factory b
  if okA && okB then some (if fieldAt a 8 8 < fieldAt b 8 8 then b else a)
  else if okA then some a else if okB then some b else none

/-- The faulty tiles that a part of the device record lists for a die at offset `o + 2 * die`. -/
def listedTiles (part : List Byte) (o die : Nat) : List Nat :=
  ((slice part (o + 2 * die) 2).map BitVec.toNat).filter fun t => t != 255

/-- The faulty tiles of a die (R445): those of the factory part and those found in the field. -/
def State.faultyTiles (s : State) (d : Nat) : List Nat :=
  listedTiles s.boot.factory 28 d ++ s.fabric.faulty.filterMap fun x => if x.1 = d then some x.2 else none

/-- The physical tiles of a die that are not faulty, in ascending order. -/
def State.goodTiles (s : State) (d : Nat) : List Nat := (List.range 42).filter fun t => !(s.faultyTiles d).contains t

/-- The row repairs that a part lists for a physical tile (Tables 14.5, 14.6). -/
def rowRepairs (part : List Byte) (o die phys : Nat) : Nat :=
  ((List.range (fieldAt part 6 2)).filter fun i =>
    let e := fieldAt part (o + 4 * i) 4
    bits e 31 29 == die && bits e 28 23 == phys).length

/-- The row repairs of a physical tile: those of the factory part and those made in the field. -/
def State.rowRepairsOf (s : State) (d phys : Nat) : Nat :=
  rowRepairs s.boot.factory 5960 d phys + (s.fabric.rowRepairs.filter fun e => bits e 31 29 == d && bits e 28 23 == phys).length

/-- Physical tile `phys` carries logical tile `t`. -/
def State.mapTile (d : Nat) (s : State) (x : Nat × Nat) : State :=
  (s.setFld .CD_TILE_MAP_PHYS x.2 d x.1).setFld .CD_TILE_MAP_ROW_REPAIRS (s.rowRepairsOf d x.2) d x.1

/-- Where a target id goes when die `d` carries the physical tiles `new` in place of `old`: a tile's target follows its physical tile. -/
def moveTarget (d : Nat) (old new : List Nat) (target : Nat) : Option Nat :=
  if target / 40 = d ∧ target < 240 then (new.idxOf? (old.getD (target % 40) 0)).map (d * 40 + ·) else some target

/-- What the swatch scheduler holds of a die's tiles follows the physical tiles, and a full pass has the tiles to cover that take over
(R398). -/
def Swatch.remap (q : Swatch) (d : Nat) (old new : List Nat) : Swatch :=
  let go := moveTarget d old new
  let ref := fun (r : SliceRef) => (go r.target).map fun t => { r with target := t }
  let fresh := ((List.range 40).filter fun t => !old.contains (new.getD t 0)).map (d * 40 + ·)
  { q with
    running := q.running.filterMap fun x => (ref x.ref).map fun r => { x with ref := r }
    differed := q.differed.filterMap ref
    aborted := q.aborted.filterMap ref
    passed := q.passed.filterMap ref
    covered := q.covered.foldl (fun t e => match go e.1 with
      | some k => Tbl.set 0 t k e.2
      | none => t) []
    late := q.late.filterMap go
    toCover := q.toCover.filterMap go ++ (if q.fullPass then fresh else []) }

/-- The tile map of a die (R445): its 40 lowest-numbered good tiles carry T00 to T39. -/
def State.applyMap (s : State) (d : Nat) : State :=
  let good := s.goodTiles d
  let old := (List.range 40).map (s.physOf d)
  let s := { s with swatch := s.swatch.remap d old (good.take 40) }
  let s := ((List.range 40).zip good).foldl (State.mapTile d) s
  s.setFld .CD_TILE_STATE_SPARES_LEFT (good.length - 40) d

/-- The 2,248 bytes that the identity key signs in the next field part (Table 14.6): the repairs and retirements of now. -/
def State.fieldBody (s : State) : List Byte :=
  let old := s.boot.field
  let tiles := (List.range 6).flatMap fun d =>
    ((s.fabric.faulty.filterMap fun (x : Nat × Nat) => if x.1 = d then some x.2 else none) ++ [255, 255]).take 2
  let retired := (List.range 64).foldl (fun n k => n + s.fld .MEM_PC_ECC_RETIRED k * 2 ^ k) 0
  let slots := (List.range 64).map fun k => ((Tbl.get Channel.zero s.memSys.channels k).spare).getD 255
  let rows := s.fabric.rowRepairs.take 512
  leBytes 4 0x444C4644 ++ leBytes 2 1 ++ leBytes 2 rows.length ++ leBytes 8 (fieldAt old 8 8 + 1) ++
    shake256 s.boot.factory 32 ++ tiles.map (BitVec.ofNat 8) ++ leBytes 8 retired ++ slots.map (BitVec.ofNat 8) ++
    leBytes 132 0 ++ rows.flatMap (leBytes 4) ++ leBytes (2048 - 4 * rows.length) 0

/-- The device writes the next field part over the copy that is not in use (R53, R446); without an identity it writes none
(R453). -/
def State.writeField (s : State) : State :=
  match s.boot.seed with
  | none => s
  | some seed =>
    if s.fld .SEC_BOOT_STATUS_IDENTITY_OK = 0 then s
    else
      let body := s.fieldBody
      let part := body ++ Config.falconSign seed body
      let at_ := if !s.boot.field.isEmpty && s.flashRead 0x20000 3528 == s.boot.field then 0x30000 else 0x20000
      ({ s with boot := { s.boot with field := part } }).flashWrite at_ part

/-! ## The configuration record (R447) -/

/-- An FP32 pattern of a value from `lo` to `hi`, both given as patterns of values not below 0. -/
def fpWithin (lo hi p : Nat) : Bool := decide (lo ≤ p) && decide (p ≤ hi) || (lo == 0 && p == 0x80000000)

/-- The settings of Table 11.2 in their ranges. -/
def settingsOk (c : List Byte) : Bool :=
  let within := fun (o n lo hi : Nat) => decide (lo ≤ fieldAt c (256 + o) n) && decide (fieldAt c (256 + o) n ≤ hi)
  let fp := fun (o lo hi : Nat) => fpWithin lo hi (fieldAt c (256 + o) 4)
  within 0 1 10 20 && within 1 1 2 10 && within 2 1 2 10 && within 3 1 1 25 && within 4 2 20 200 && within 6 1 5 100 &&
  within 7 1 1 5 && fp 8 0x3F800000 0x41700000 && fp 12 0x3F800000 0x41700000 && fp 16 0x3F000000 0x41200000 &&
  within 20 1 1 255 && within 21 1 0 1 && within 22 1 1 10 && within 24 2 500 6400 && fp 28 0 0x41200000 &&
  fp 32 0 0x41200000 && fp 36 0 0x41200000 && decide (fieldAt c 6 2 ≤ 1000)

/-- The format of the CAN identifier of a bus and type (Table 14.8). -/
def canFormat (c : List Byte) (bus type : Nat) : Nat := bits (fieldAt c (256 + 48 + 4 * (5 * bus + type)) 4) 30 29

/-- The CAN identifiers of a record (R447). -/
def canOk (c : List Byte) : Bool :=
  ([0, 1, 2, 3].all fun b => (List.range 5).all fun t => canFormat c b t != 0) &&
  ([4, 5].all fun b => canFormat c b 0 != 0 && canFormat c b 1 != 0) &&
  ((List.range 6).all fun b => canFormat c b 0 == 3) &&
  (decide (fieldAt c (256 + 22) 1 ≤ 8) || [0, 1, 2, 3].all fun b => (List.range 5).all fun t =>
    canFormat c b t != 1 && canFormat c b t != 2)

/-- Is an FP32 pattern a value above 0? -/
def fpAbove0 (p : Nat) : Bool := decide (0 < p) && decide (p < 0x80000000)

/-- Is a configuration record valid (R447)? -/
def confOk (root factory c : List Byte) : Bool :=
  let cert := slice c 768 3112
  let bind_ := slice c 32 16
  fieldAt c 0 4 == 0x464E4F43 && fieldAt c 4 2 == 1 && fieldAt c 8 4 == 0x8A6 &&
  (bind_ == leBytes 16 0 || bind_ == factorySerial factory) && settingsOk c &&
  fpAbove0 (fieldAt c (256 + 36) 4) && (fpAbove0 (fieldAt c (256 + 28) 4) || fpAbove0 (fieldAt c (256 + 32) 4)) &&
  canOk c && zeroAt c 24 8 && zeroAt c 80 176 && zeroAt c (256 + 26) 2 && zeroAt c (256 + 40) 8 &&
  zeroAt c (256 + 168) 344 && zeroAt c 3880 216 && certOk root cert 2 &&
  Config.falconVerify (certKey cert) (slice c 0 4096) (slice c 4096 1280)

/-! ## The image (R449) -/

/-- Does the header of an image meet R449, its payload apart? -/
def headerValid (root h : List Byte) : Bool :=
  let cert := slice h 768 3112
  let n := fieldAt h 24 8
  fieldAt h 0 4 == 0x4E465645 && fieldAt h 4 2 == 1 && decide (1 ≤ fieldAt h 6 2) && decide (fieldAt h 6 2 ≤ 32) &&
  fieldAt h 8 4 == 0x8A6 && decide (n ≤ 62906368) &&
  ((List.range (fieldAt h 6 2)).all fun i =>
    decide (fieldAt h (256 + 16 * i + 4) 4 + fieldAt h (256 + 16 * i + 8) 4 ≤ n)) &&
  certOk root cert 1 && Config.falconVerify (certKey cert) (slice h 0 4096) (slice h 4096 1280)

/-- The code that an image earns (R449): none when it is valid. -/
def imageCode (root h : List Byte) (payload : Nat → List Byte) (floor : Nat) : Option Nat :=
  if !headerValid root h then some 0xB03
  else if shake256 (payload (fieldAt h 24 8)) 64 != slice h 32 64 then some 0xB03
  else if fieldAt h 12 4 < floor then some 0xB04 else none

end Sys2Proof.Machine
end

