-- ==== Sys2Proof/Machine/Bookings.lean ====
section
/-!
DEFINITION. Machine/Bookings.lean: what the schedule of a program books (R387), and the swatches that a new booking ends (R390).
-/

namespace Sys2Proof.Machine

/-! ## What a program books (R387) -/

/-- The beats in which a tile is booked (R387). -/
def Program.tileBusy (p : Program) (d t : Nat) : List (Nat × Nat) :=
  (p.commands.filterMap fun c => if bit (c.tiles.getD d 0) t then some (c.start, c.commit) else none) ++
  p.windows.filterMap fun w =>
    if w.die = d ∧ w.tile = t then
      some (w.beat, w.beat + ceilDiv w.size (if w.target = 3 then 256 else 800)) else none

/-- The beats in which the engine of a kind of a die has a job. -/
def Program.engineBusy (p : Program) (d kind : Nat) : List (Nat × Nat) :=
  p.engines.filterMap fun e =>
    if e.kind == kind && (p.command e.cmd).any fun c => c.tiles.getD d 0 != 0 then some (e.start, e.stop) else none

/-! ## Slices and new bookings (R390) -/

/-- The tile or engine die that a beat-clocked slice holds: die, and the logical tile for a tile slice. -/
def slicePlace (r : SliceRef) : Option (Nat × Option Nat) :=
  match r.kind with
  | .tileLogic => some (r.target / 40, some (r.target % 40))
  | .tileMem => some (r.target / 40, some (r.target % 40))
  | .tileFull => some (r.target / 40, some (r.target % 40))
  | .engine => some (r.target - 240, none)
  | _ => none

/-- Does a program use what a slice holds? -/
def Program.usesSlice (p : Program) (r : SliceRef) : Bool :=
  match slicePlace r with
  | some (d, some t) => !(p.tileBusy d t).isEmpty
  | some (d, none) => (List.range 3).any fun k => !(p.engineBusy d k).isEmpty
  | none => false

/-- A slice aborted: its target is back in its scheduled state, and SWATCH_INCOMPLETE is logged (R389). -/
def State.abortSlice (s : State) (x : SliceRun) (sev : Nat) : State :=
  let s := { s with swatch := { s.swatch with running := s.swatch.running.erase x } }
  (s.count .HUB_CFG_SWATCH_CNT_COUNT 2).report 0x902 sev

/-- The slices that hold their targets: those that have not ended (R385). -/
def State.holding (s : State) : List SliceRun := s.swatch.running.filter fun x => !x.returned

/-- A booking of a program at `beat` is fixed: slices on its resources with a later guard beat are aborted at once (R390). -/
def State.bookAt (s : State) (p : Program) (beat : Nat) : State :=
  (s.holding.filter fun x => p.usesSlice x.ref && decide (beat < x.guard)).foldl (fun s x => s.abortSlice x 0) s

/-- `bookAt` for the program of a function's slot, if one is loaded. -/
def State.bookSlot (s : State) (fn slot beat : Nat) : State :=
  match s.program fn slot with
  | some p => s.bookAt p beat
  | none => s

end Sys2Proof.Machine
end

