-- ==== Sys2Proof/Machine/Admission.lean ====
section
/-!
DEFINITION. Machine/Admission.lean: the interleave of HBM, the reservations of windows and the admission evaluation with
its shedding order (R244, R250, R252, R263 to R270).
-/

namespace Sys2Proof.Machine

/-- The pseudo-channel of a granule (R244). -/
def channelOf (g : Nat) : Nat := (g % 64) ^^^ (g / 64 % 64)

/-- The state of pseudo-channel `k`. -/
def State.channel (s : State) (k : Nat) : Channel := Tbl.get Channel.zero s.memSys.channels k

/-- Is pseudo-channel `k` retired? -/
def State.retired (s : State) (k : Nat) : Bool := (s.channel k).spare.isSome

/-- The pseudo-channels in service when spare slot `j` was taken: those not retired to it or an earlier slot. -/
def State.inServiceFor (s : State) (j k : Nat) : Bool :=
  match (s.channel k).spare with
  | none => true
  | some x => decide (j < x)

/-- The granule of spare slot `j` that takes the `i`-th granule of a retired pseudo-channel: the granules of the slot on
pseudo-channels in service, in ascending order (R250). -/
def State.spareGranule (s : State) (j i : Nat) : Nat :=
  let base := (s.fld .MEM_SPARE_CFG_BASE + j) * 4194304
  let good := (List.range 64).filter (s.inServiceFor j)
  let n := max 1 good.length
  let block := base + i / n * 64
  let inBlock := (List.range 64).filter fun o => s.inServiceFor j (channelOf (block + o))
  block + inBlock.getD (i % n) 0

/-- The granule that holds granule `g` after the redirections of R250; the fuel bounds the retirements. -/
def State.redirect : Nat → State → Nat → Nat
  | 0, _, g => g
  | n + 1, s, g =>
    let c := s.channel (channelOf g)
    match c.spare with
    | none => g
    | some j => if g / 64 < c.copied then State.redirect n s (s.spareGranule j (g / 64)) else g

/-- The pseudo-channel that serves granule `g` (R244, R250). -/
def State.serving (s : State) (g : Nat) : Nat := channelOf (State.redirect 3 s g)

/-! ## Reservations -/

/-- The device address of a regulated access of function or stall `stall` (R462). -/
def State.devAddr (s : State) (stall addr : Nat) : Nat := if stall = 0 then addr else s.stallBase stall + addr

/-- The beats a window occupies. -/
def Window.beats (w : Window) : Nat := ceilDiv w.size 800

/-- Bytes of a window moved before beat `b` of the iteration, 800 each beat (R252). -/
def Window.movedBefore (w : Window) (b : Nat) : Nat := min w.size ((b - w.beat) * 800)

/-- Bytes of a window moved in the slot of 64 beats that starts at beat `a`. -/
def Window.movedIn (w : Window) (a : Nat) : Nat := w.movedBefore (a + 64) - w.movedBefore a

/-- The HBM addresses that a window may move its data from or to, each possible start (R252): one for a target-0 window
into HBM, three for a stream-backed inbound buffer, none otherwise. -/
def State.windowBases (s : State) (fn : Nat) (w : Window) : List Nat :=
  if w.target = 0 then (if s.devAddr fn w.addr < hbmSize then [s.devAddr fn w.addr] else [])
  else if w.target = 1 then
    match s.backing (w.addr % 1024) with
    | none => []
    | some n =>
      let base := s.fld .SENS_STREAM_SLOT_BASE_BASE n * 4096
      let size := s.fld .SENS_STREAM_SLOT_SIZE_SIZE n
      [base, base + size, base + 2 * size]
  else []

/-- The frames an iteration's windows reach into. -/
def Program.frames (p : Program) : Nat :=
  p.windows.foldl (fun m w => max m ((w.beat + w.beats) / 8192 + 1)) 1

/-- res[q] of a program (R252). -/
def State.res (s : State) (p : Program) (q : Nat) : Nat :=
  let ws := p.windows.filter fun w => !p.doomed && !(s.windowBases p.fn w).isEmpty
  if ws.isEmpty then 0
  else ((List.range p.frames).map fun f =>
    (ws.map fun w => w.movedIn (f * 8192 + q * 64)).foldl (· + ·) 0).foldl max 0

/-- Bytes of the range [a, a + n) that pseudo-channel `k` serves. -/
def State.bytesOn (s : State) (k a n : Nat) : Nat :=
  if n = 0 then 0
  else ((List.range ((a + n - 1) / 256 - a / 256 + 1)).map fun i =>
    let g := a / 256 + i
    if s.serving g = k then min (a + n) (g * 256 + 256) - max a (g * 256) else 0).foldl (· + ·) 0

/-- Bytes a window moves on pseudo-channel `k` in the slot that starts at beat `a`: the largest over its bases. -/
def State.windowOn (s : State) (fn k : Nat) (w : Window) (a : Nat) : Nat :=
  ((s.windowBases fn w).map fun b => s.bytesOn k (b + w.movedBefore a) (w.movedIn a)).foldl max 0

/-- The load of a program on pseudo-channel `k` in slot position `q`. -/
def State.resOn (s : State) (p : Program) (q k : Nat) : Nat :=
  let ws := p.windows.filter fun w => !p.doomed && !(s.windowBases p.fn w).isEmpty
  if ws.isEmpty then 0
  else ((List.range p.frames).map fun f =>
    (ws.map fun w => s.windowOn p.fn k w (f * 8192 + q * 64)).foldl (· + ·) 0).foldl max 0

/-- The sum of res[q] over all loaded programs: MEM_WIN_BOOK_q. -/
def State.booked (s : State) (q : Nat) : Nat := (s.programs.map fun p => s.res p q).foldl (· + ·) 0

/-! ## Limits and minimums -/

/-- Is stack `k` at doubled refresh? -/
def State.hot (s : State) (k : Nat) : Bool := ((s.memSys.hbmStacks[k]?).map (·.doubled)).getD false

/-- 1,000 × (0.85 - 0.035 h) for stack `k` (R263). -/
def State.share (s : State) (k : Nat) : Nat := if s.hot k then 815 else 850

/-- Pseudo-channels in service of stack `k`. -/
def State.inService (s : State) (k : Nat) : Nat :=
  ((List.range 32).filter fun c => !s.retired (32 * k + c)).length

/-- L_slot (R263). -/
def State.lSlot (s : State) : Nat :=
  (s.inService 0 * 4096 * s.share 0 + s.inService 1 * 4096 * s.share 1) / 1000

/-- The limit of a pseudo-channel (R263). -/
def State.channelLimit (s : State) (c : Nat) : Nat := 4096 * s.share (c / 32) / 1000

/-- The value of a regulation field that is in effect: the one before a write until the next refill (R262). -/
def State.eff (s : State) (f : Fld) (i : Nat := 0) : Nat := (s.memSys.inEffect.lookup (f.key i 0)).getD (s.fld f i)

/-- Written values in effect, as they are from the next refill on (R262). -/
def State.written (s : State) : State := { s with memSys := { s.memSys with inEffect := [] } }

/-- The minimum of partition `n`: 0 when it is not enabled or shed (R265, R268). -/
def State.partMinimum (s : State) (n : Nat) : Nat :=
  if s.eff .MEM_PART_CFG_ENABLE n = 1 ∧ !s.memSys.shed.contains (.partMin n) then
    s.eff .MEM_PART_RATE_MIN_RATE n
  else 0

/-- The minimum of stall `k`. -/
def State.stallMinimum (s : State) (k : Nat) : Nat :=
  if s.eff .MEM_STALL_RATE_RATE k ≠ 0 ∧ !s.memSys.shed.contains (.stallMin k) then
    s.eff .MEM_STALL_RATE_MIN_RATE k
  else 0

/-- M of R265. -/
def State.minimums (s : State) : Nat :=
  ((List.range 15).map s.partMinimum).foldl (· + ·) 0 +
  ((List.range 31).map fun k => s.stallMinimum (k + 1)).foldl (· + ·) 0

/-- R265 for one slot position. -/
def State.admitsAt (s : State) (m q : Nat) : Bool :=
  decide (s.booked q + ceilDiv (16 * m) 100 ≤ s.lSlot) &&
  (List.range 64).all fun k =>
    s.retired k || decide ((s.programs.map fun p => s.resOn p q k).foldl (· + ·) 0 + ceilDiv (16 * m) 6400
      ≤ s.channelLimit k)

/-- The admission evaluation (R265). -/
def State.admits (s : State) : Bool := (List.range 128).all (s.admitsAt s.minimums)

/-! ## Shedding -/

/-- A program's class (R267): 0 SAFETY, 1 DRIVE, 2 STALL. -/
def Program.cls (p : Program) : Nat := if p.fn ≠ 0 then 2 else if p.safety then 0 else 1

/-- Does a program hold a reservation? -/
def State.reserves (s : State) (p : Program) : Bool := !p.doomed && p.windows.any fun w => !(s.windowBases p.fn w).isEmpty

/-- Programs for which `q` holds, the most recently loaded first. -/
def State.newestFirst (s : State) (q : Program → Bool) : List Program :=
  (s.programs.filter q).mergeSort fun a b => decide (b.order ≤ a.order)

/-- The guarantees that may be shed, in the order of R267. -/
def State.shedOrder (s : State) : List Guarantee :=
  let stalls := (List.range 31).reverse.flatMap fun k =>
    let k := k + 1
    (if s.stallMinimum k ≠ 0 then [Guarantee.stallMin k] else []) ++
      (s.newestFirst fun p => p.fn == k && s.reserves p).map fun p => .program p.fn p.slot
  let parts := fun c => (List.range 15).reverse.flatMap fun n =>
    if s.eff .MEM_PART_CFG_CLASS n = c ∧ s.partMinimum n ≠ 0 then [Guarantee.partMin n] else []
  stalls ++ parts 2 ++ parts 1 ++
    (s.newestFirst fun p => p.cls == 1 && s.reserves p).map fun p => .program p.fn p.slot

/-- detail0 and detail1 of MEM_SHED and MEM_RESTORED (R268). -/
def Guarantee.details : Guarantee → Nat × Nat
  | .partMin n => (n, 0)
  | .stallMin k => (k, 1)
  | .program fn slot => (slot, 2 + fn * 256)

/-- A guarantee is shed (R268): a minimum counts as 0; a program is killed, unloaded and its slot is shed. -/
def State.shedOne (s : State) (g : Guarantee) : State :=
  let s := { s with memSys := { s.memSys with shed := s.memSys.shed ++ [g] } }
  let s := match g with
    | .program fn slot => ((s.killProgram fn slot 0x522 2).modProgram fn slot fun p => { p with doomed := true }).reap fn slot
    | _ => s
  let s := match g with
    | .stallMin k => s.stallEvent k 1
    | .program fn _ => if fn = 0 then s else s.stallEvent fn 1
    | .partMin _ => s
  s.report 0x522 2 (some g.details.1) (some g.details.2)

/-- Shedding until R265 holds (R267); the fuel bounds the guarantees. When only SAFETY guarantees are left and R265 still
fails, MEM_SAFETY_UNMET is logged and D3 requested by the memory source (R270). -/
def State.shedUntil : Nat → State → State
  | 0, s => s
  | n + 1, s =>
    if s.admits then s
    else match s.shedOrder with
      | [] =>
        if s.memSys.safetyUnmet then s
        else ({ s with memSys := { s.memSys with safetyUnmet := true } }).report 0x524 3 (request := some (5, 3))
      | g :: _ => State.shedUntil n (s.shedOne g)

/-- Shedding after capacity fell. -/
def State.shed (s : State) : State := State.shedUntil 600 s

/-- The last shed minimum of a list, if one is left. -/
def lastMinimum (l : List Guarantee) : Option Guarantee :=
  l.reverse.find? fun g => match g with | .program _ _ => false | _ => true

/-- Restoring of shed minimums in reverse order as long as R265 holds (R269), and the end of R270. -/
def State.restoreUntil : Nat → State → State
  | 0, s => s
  | n + 1, s =>
    match lastMinimum s.memSys.shed with
    | none => s
    | some g =>
      let s' := { s with memSys := { s.memSys with shed := s.memSys.shed.erase g } }
      if s'.admits then
        State.restoreUntil n (s'.report 0x523 0 (some g.details.1) (some g.details.2))
      else s

/-- The condition of R270 is left when R265 holds again. -/
def State.leaveUnmet (s : State) : State :=
  if s.memSys.safetyUnmet && s.admits then
    ({ s with memSys := { s.memSys with safetyUnmet := false } }).withdraw 5 0
  else s

/-- Restoring after capacity rose (R269, R270). -/
def State.restore (s : State) : State := (State.restoreUntil 50 s).leaveUnmet

end Sys2Proof.Machine
end

