-- ==== Sys2Proof/Machine/Map.lean ====
section
/-!
DEFINITION. Machine/Map.lean: which register stands at an offset of a function's BAR0 (R10 to R13, R485, R486, Tables 16.1
and 16.2), and how a register's value is put together from its fields and taken apart into them.
-/

namespace Sys2Proof.Machine

/-- A register's place: the register, its two indices, and whether the offset names the upper half of 64 bits. -/
structure Place where
  reg : Reg
  i : Nat
  j : Nat
  high : Bool
deriving DecidableEq, Repr

/-- The instance of register `r` that an offset of the PF's BAR0 lies in. -/
def Reg.at (r : Reg) (o : Nat) : Option Place :=
  let p := r.spec
  if o < p.base then none
  else
    let rel := o - p.base
    let i := if 1 < p.iCount then rel / p.iStride else 0
    let rest := if 1 < p.iCount then rel % p.iStride else rel
    let j := if 1 < p.jCount then rest / p.jStride else 0
    let b := if 1 < p.jCount then rest % p.jStride else rest
    if i < p.iCount ∧ j < p.jCount ∧ b < (if p.wide then 8 else 4) then
      some ⟨r, i + p.iLo, j + p.jLo, decide (4 ≤ b)⟩
    else none

/-- The first register of a list that an offset lies in. -/
def locateIn (l : List Reg) (o : Nat) : Option Place := l.findSome? fun r => r.at o

/-- The register at an offset of a VF's BAR0 (Table 16.2): VF s is instance s of each. -/
def locateVf (fn o : Nat) : Option Place :=
  let own := fun (p : Option Place) => p.map fun x => { x with i := fn }
  if o < 0x4000 then
    own (locateIn [.RING_CFG, .RING_IRQ, .RING_SQ_BASE, .RING_CQ_BASE, .RING_HEAD_WB, .RING_STATUS] (o + 0x200000))
  else if 0x80010 ≤ o ∧ o < 0x80014 then some ⟨.HUB_CFG_STALL_STATUS, fn, 0, false⟩
  else if 0x80018 ≤ o ∧ o < 0x80038 then
    some ⟨.HUB_CFG_STALL_CNT, fn, (o - 0x80018) / 8, decide (4 ≤ (o - 0x80018) % 8)⟩
  else if 0xF0000 ≤ o ∧ o < 0xF0000 + 16 * 56 then some ⟨.MSIX_TABLE, fn, (o - 0xF0000) / 4, false⟩
  else if 0xF1000 ≤ o ∧ o < 0xF1008 then some ⟨.MSIX_PBA, fn, (o - 0xF1000) / 4, false⟩
  else own (locateIn [.VF_INFO, .VF_MARKER_GROUPS] o)

/-- The register at an offset of a function's BAR0; none in a gap (R485). -/
def locate (fn o : Nat) : Option Place := if fn = 0 then locateIn pfRegs o else locateVf fn o

/-- The offset of an instance in the BAR0 of function `fn`. -/
def Reg.offsetIn (fn : Nat) (r : Reg) (i j : Nat) : Nat :=
  if fn = 0 then r.offset i j
  else match r with
    | .HUB_CFG_STALL_STATUS => 0x80010
    | .HUB_CFG_STALL_CNT => 0x80018 + 8 * j
    | .MSIX_TABLE => 0xF0000 + 4 * j
    | .MSIX_PBA => 0xF1000 + 4 * j
    | .VF_INFO => 0x80000
    | .VF_MARKER_GROUPS => 0x80040 + 8 * j
    | r => r.offset 0 j - 0x200000

/-- The bits of a field in a register's value. -/
def Fld.of (f : Fld) (v : Nat) : Nat := bits v f.spec.msb f.spec.lsb

/-- A register's value put together from a reading of each of its fields. -/
def Reg.assemble (r : Reg) (g : Fld → Nat) : Nat :=
  r.fields.foldl (fun v f => v + g f % 2 ^ f.width * 2 ^ f.spec.lsb) 0

/-- Every writable field of an instance set from a whole value; RO, W1C and WO fields keep what they hold. -/
def State.putReg (s : State) (r : Reg) (i j v : Nat) : State :=
  r.fields.foldl (init := s) fun s f =>
    match f.spec.access with
    | .rw => s.setFld f (f.of v) i j
    | .rwl => s.setFld f (f.of v) i j
    | _ => s

end Sys2Proof.Machine
end

