-- ==== Sys2Proof/Machine/Memory.lean ====
section
/-!
DEFINITION. Machine/Memory.lean: the memory commands (08): regulated requests, the regulators, error correction, scrub,
retirement, refresh, the writes of R262 and the purl links.
-/

namespace Sys2Proof.Machine

/-! ## Addresses (R243, R462, R463) -/

/-- Is the region of stall `k` its own at present? -/
def State.stallOpen (s : State) (k : Nat) : Bool := s.stall k != .closed

/-- Does [a, a + n) touch the region of an open stall (R463)? -/
def State.inOpenStall (s : State) (a n : Nat) : Bool :=
  (List.range 31).any fun k =>
    s.stallOpen (k + 1) && decide (a < s.stallBase (k + 1) + s.stallSize (k + 1)) && decide (s.stallBase (k + 1) < a + n)

/-- The bytes of the region of a stall as the stacks hold them (R469): ciphertext under the key in its slot, granule by granule. State holds
a region in plaintext while its key exists, since only the stall and CHECKPOINT reach it then, through the key (R463, log 55). -/
def State.sealRegion (s : State) (k : Nat) : State :=
  match (s.stallOf k).key with
  | none => s
  | some key =>
    let first := s.stallBase k / 256
    { s with mem := (List.range (s.stallSize k / 256)).foldl (init := s.mem) fun m g =>
        writeBytes m ((first + g) * 256) ((List.range 256).map fun i =>
          Config.xtsByte key (first + g) (readBytes s.mem ((first + g) * 256) 256) i) }

/-- The regions of all stalls left as ciphertext: their keys are gone (R403, R489). -/
def State.sealStalls (s : State) : State := s.stalls.foldl (fun s e => s.sealRegion e.1) s

/-- Is a program that uses die `d` loaded (R46)? -/
def State.dieLoaded (s : State) (d : Nat) : Bool := s.programs.any fun p => p.usesDie d

/-- May a regulated access of `n` bytes be performed (R243, R462, R463)? Memory maintenance (master 10) reaches every
region. -/
def State.accessOk (s : State) (master stall addr n : Nat) : Bool :=
  if stall ≠ 0 then decide (addr + n ≤ s.stallSize stall)
  else match regionOf addr, regionOf (addr + n - 1) with
    | .hbm, .hbm => master == 10 || !s.inOpenStall addr n
    | .hub, .hub => true
    | .tile d t, .tile d' t' => d == d' && t == t' && !s.dieLoaded d
    | _, _ => false

/-- May a regulated write be performed: `accessOk`, and tile SRAM only of a die that is on (R406, log 29)? -/
def State.writeOk (s : State) (master stall addr n : Nat) : Bool :=
  s.accessOk master stall addr n && (decide (stall ≠ 0) || match regionOf addr with
    | .tile d _ => s.fabric.dieOn.getD d false
    | _ => true)

/-- Does the memory at [a, a + n) answer: the controllers of its pseudo-channels, or for the hub's SRAM the hub fabric, have power (R407)? -/
def State.memoryUp (s : State) (a n : Nat) : Bool :=
  if a < hbmSize then
    (List.range (min 64 ((a + n - 1) / 256 - a / 256 + 1))).all fun i => s.domainOn (35 + s.serving (a / 256 + i) / 32)
  else match regionOf a with
    | .hub => s.domainOn 37
    | _ => true

/-- MEM_BAD_ADDRESS (R243). -/
def State.badAddress (s : State) (master stall addr : Nat) : State :=
  s.report 0x504 1 (some (master + stall * 256)) (some addr)

/-- Bytes that a master of the device writes of its own accord: into the region of an open stall nothing is written (R243, R463). -/
def State.ownWrite (s : State) (master a : Nat) (l : List Byte) : State :=
  if s.inOpenStall a l.length then s.badAddress master 0 a else s.devWrite a l

/-- A master is told the outcome of a request. -/
def State.answer (s : State) (master stall : Nat) (a : Answer) : State :=
  { s with memSys := { s.memSys with answers := Tbl.set none s.memSys.answers (master + 16 * stall) (some a) } }

/-- A regulated access that is not performed (R243): it is logged, a write is discarded, and a read returns zeros with an error. -/
def State.refuseAccess (s : State) (master stall addr size : Nat) (isWrite : Bool) : State :=
  let id := s.memSys.nextId
  let s := { s with memSys := { s.memSys with nextId := id + 1 } }
  (s.answer master stall ⟨id, true, if isWrite then [] else List.replicate size 0⟩).badAddress master stall addr

/-! ## Regulators (R256 to R258) -/

/-- The key of a regulator: partition 0 to 14, or 16 + s for stall s. -/
def regKey (part stall : Nat) : Nat := if stall = 0 then part else 16 + stall

/-- What a regulator holds at reset: a stall's bucket is empty because its RATE is 0. -/
def regDefault (k : Nat) : Regulator := if k < 16 then Regulator.zero else { Regulator.zero with tokens := 0 }

/-- A regulator. -/
def State.regulator (s : State) (k : Nat) : Regulator := Tbl.get (regDefault k) s.memSys.regs k

/-- A regulator replaced. -/
def State.setRegulator (s : State) (k : Nat) (r : Regulator) : State :=
  { s with memSys := { s.memSys with regs := Tbl.set (regDefault k) s.memSys.regs k r } }

/-- A field written with effect at the next refill (R262). -/
def State.setLater (s : State) (f : Fld) (v : Nat) (i : Nat := 0) : State :=
  let old := s.eff f i
  let s := if (s.memSys.inEffect.lookup (f.key i 0)).isSome then s
    else { s with memSys := { s.memSys with inEffect := s.memSys.inEffect ++ [(f.key i 0, old)] } }
  s.setFld f v i

/-- The partition of a master (R256). -/
def State.partOf (s : State) (master : Nat) : Nat := bits (s.eff .MEM_MASTER_MAP_PART) (4 * master + 3) (4 * master)

/-- Does regulator `k` limit its requests at present? A stall's bucket always does: with RATE 0 it covers nothing. -/
def State.limits (s : State) (k : Nat) : Bool := if k < 16 then s.eff .MEM_PART_CFG_ENABLE k == 1 else true

/-- The bucket's depth, refill and guaranteed credit, by the values written. -/
def State.depth (s : State) (k : Nat) : Nat :=
  if k < 16 then s.fld .MEM_PART_CFG_DEPTH k else 4 * s.fld .MEM_STALL_RATE_RATE (k - 16)

/-- Bytes a bucket gains per µs. -/
def State.rate (s : State) (k : Nat) : Nat :=
  if k < 16 then s.fld .MEM_PART_RATE_RATE k else s.fld .MEM_STALL_RATE_RATE (k - 16)

/-- The credit of a refill: the minimum, 0 when shed (R268). -/
def State.minRate (s : State) (k : Nat) : Nat := if k < 16 then s.partMinimum k else s.stallMinimum (k - 16)

/-- The cost of a request: its size rounded up to 64 bytes (R257); a stall's write of part of a granule counts the whole
granule (R470). -/
def Request.cost (r : Request) : Nat :=
  if r.stall ≠ 0 ∧ r.write then alignUp (r.addr + r.size) 256 - r.addr / 256 * 256 else alignUp r.size 64

/-- Masters that can set a deadline (Table 8.4). -/
def deadlineCapable (m : Nat) : Bool := m == 2 || m == 5 || m == 6 || m == 7

/-- What leaves of a waiting list and what stays: a request leaves when the tokens cover its cost and no earlier request
of its master stays, here or, as `bars` says, in another regulator (R257, R258). -/
def leaving (limited : Bool) (bars : Request → Bool) :
    List Request → Nat → Nat → List Nat → List (Request × Bool) × List Request × Nat × Nat
  | [], tokens, credit, _ => ([], [], tokens, credit)
  | r :: l, tokens, credit, held =>
    if held.contains r.master || bars r || (limited && decide (tokens < r.cost)) then
      let (a, b, t, c) := leaving limited bars l tokens credit (r.master :: held)
      (a, r :: b, t, c)
    else if limited then
      let (a, b, t, c) := leaving limited bars l (tokens - r.cost) (credit - r.cost) held
      ((r, decide (0 < credit)) :: a, b, t, c)
    else
      let (a, b, t, c) := leaving limited bars l tokens credit held
      ((r, false) :: a, b, t, c)

/-- Does an earlier request of the master of `r` wait in another partition's regulator, from before a change of the map (R257)? -/
def State.bars (s : State) (k : Nat) (r : Request) : Bool :=
  decide (k < 16) && (List.range 15).any fun n =>
    n != k && (s.regulator n).waiting.any fun x => x.master == r.master && decide (x.id < r.id)

/-- A request on its way to command slots: its deadline counts from now (R260); one that names no HBM needs no slot. -/
def State.sendOn (s : State) (r : Request) (minimum : Bool) : State :=
  let m := s.memSys
  let a := s.devAddr r.stall r.addr
  let todo := if a < hbmSize then
      (List.range ((a + r.size - 1) / 256 - a / 256 + 1)).map fun i => s.serving (a / 256 + i)
    else []
  let r := { r with minimum := minimum, left := s.now, order := m.nextId, todo := todo,
                    deadline := r.deadline.map fun d => s.now + 10 * d }
  let m := { m with nextId := m.nextId + 1 }
  if todo.isEmpty then { s with memSys := { m with issued := m.issued ++ [r] } }
  else { s with memSys := { m with queue := m.queue ++ [r] } }

/-- Every request that may leave regulator `k` leaves it. -/
def State.letGo (s : State) (k : Nat) : State :=
  let g := s.regulator k
  let (out, stay, tokens, credit) := leaving (s.limits k) (s.bars k) g.waiting g.tokens g.credit []
  let s := s.setRegulator k { g with waiting := stay, tokens := tokens, credit := credit }
  out.foldl (fun s r => s.sendOn r.1 r.2) s

/-- A request joins its regulator and leaves it when the tokens cover its cost (R257, R260). -/
def State.askMemory (s : State) (master stall addr size : Nat) (isWrite : Bool) (deadline : Nat) : State :=
  let part := if stall = 0 then s.partOf master else 15
  let k := regKey part stall
  let timed := stall == 0 && deadlineCapable master && s.eff .MEM_PART_CFG_DEADLINE_EN part == 1
  let r : Request := { id := s.memSys.nextId, master := master, stall := stall, addr := addr, size := size,
                       write := isWrite, deadline := if timed then some (deadline % 65536) else none,
                       minimum := false, left := 0, order := 0, part := part, todo := [] }
  let s := { s with memSys := { s.memSys with nextId := s.memSys.nextId + 1 } }
  let g := s.regulator k
  (s.setRegulator k { g with waiting := g.waiting ++ [r] }).letGo k

/-- Is a Weighhouse die, master 5 or 6, cut off from hub resources (R272)? -/
def State.cutOff (s : State) (master : Nat) : Bool :=
  (master == 5 || master == 6) && !s.memSys.linkUp.getD (7 + master) false

/-- REGULATED_REQUEST_ISSUE (R257, R260): the request joins its regulator and leaves it when the tokens cover its cost. A
request to an address of R243 is not performed. -/
def execRegulatedRequestIssue (master : Fin 12) (stall : Fin 32) (addr size : Nat) (isWrite : Bool) (deadline : Nat)
    (s : State) : Out :=
  if size = 0 ∨ 4096 < size ∨ s.cutOff master then .next s
  else if !(if isWrite then s.writeOk master stall addr size else s.accessOk master stall addr size) then .next (s.refuseAccess master stall addr size isWrite)
  else .next (s.askMemory master stall addr size isWrite deadline)

/-- The keys of the regulators. -/
def regulatorKeys : List Nat := List.range 15 ++ (List.range 31).map (· + 17)

/-- A regulator at a refill (R257, R258), `old` being the state before it: filled when it has just been enabled, otherwise one RATE
fuller; the credit is set anew. -/
def State.refill (old s : State) (k : Nat) : State :=
  let g := s.regulator k
  let fresh := if k < 16 then old.eff .MEM_PART_CFG_ENABLE k == 0 && s.fld .MEM_PART_CFG_ENABLE k == 1
    else old.eff .MEM_STALL_RATE_RATE (k - 16) == 0 && s.fld .MEM_STALL_RATE_RATE (k - 16) != 0
  let tokens := if fresh then s.depth k else min (s.depth k) (g.tokens + s.rate k)
  s.setRegulator k { g with tokens := tokens, credit := s.minRate k }

/-- The requests that wait in regulators. -/
def State.waitingCount (s : State) : Nat := (regulatorKeys.map fun k => (s.regulator k).waiting.length).foldl (· + ·) 0

/-- Every request that may leave leaves, again while one of a master lets a later one in another partition follow (R257). -/
def letAllGo : Nat → State → State
  | 0, s => s
  | n + 1, s =>
    let t := regulatorKeys.foldl State.letGo s
    if t.waitingCount = s.waitingCount then t else letAllGo n t

/-- REGULATOR_REFILL (R257, R258, R262): written values come into effect, every bucket gains its RATE, and what can now leave does. The
condition of R270 ends when they let R265 hold again. -/
def execRegulatorRefill (s : State) : Out :=
  let t := regulatorKeys.foldl (State.refill s) s.written
  .next (letAllGo 16 t).leaveUnmet

/-- `cost` tokens of the regulator of a master of the PF, or of a stall, taken (R257): none where the bucket does not cover them yet or an
earlier request of the master waits. -/
def State.charge (s : State) (master stall cost : Nat) : Option State :=
  let k := regKey (s.partOf master) stall
  let g := s.regulator k
  let held := if stall = 0 then (List.range 15).any fun j => (s.regulator j).waiting.any fun x => x.master == master else !g.waiting.isEmpty
  if held then none
  else if !s.limits k then some s
  else if g.tokens < cost then none
  else some (s.setRegulator k { g with tokens := g.tokens - cost, credit := g.credit - cost })

/-- The tokens of one transfer of `n` bytes by memory maintenance, master 10 (R248, R250). -/
def State.spend (s : State) (n : Nat) : Option State := s.charge 10 0 (alignUp n 64)

/-- The tokens of a transfer of `n` bytes in requests of their own: one larger than its bucket needs the bucket full, and what was over went
in earlier refills, which the model does not follow (log 117). -/
def State.chargeBulk (s : State) (master stall n : Nat) : Option State :=
  s.charge master stall (min (alignUp n 64) (max 64 (s.depth (regKey (s.partOf master) stall))))

/-! ## Command slots (R259) -/

/-- A list of numbers before another, read from the front. -/
def lexLess : List Nat → List Nat → Bool
  | a :: l, b :: m => decide (a < b) || (a == b && lexLess l m)
  | _, _ => false

/-- The rank of a waiting request at pseudo-channel `pc` (R259): its group, its deadline or the inverse of its priority,
its partition's place in the round after the one served last, and its order of leaving. -/
def State.slotRank (s : State) (pc : Nat) (r : Request) : List Nat :=
  let last := Tbl.get 0 s.memSys.lastPart pc
  let turn := (r.part + 15 - last) % 16
  let pri := 7 - s.eff .MEM_PART_CFG_PRIORITY r.part
  match r.deadline with
  | some d => [if r.minimum then 0 else 2, d, turn, r.order]
  | none => [if r.minimum then 1 else 3, pri, turn, r.order]

/-- The request that a command slot of pseudo-channel `pc` serves. -/
def State.slotChoice (s : State) (pc : Nat) : Option Request :=
  match s.memSys.queue.filter fun r => r.todo.contains pc with
  | [] => none
  | r :: l => some (l.foldl (fun a b => if lexLess (s.slotRank pc b) (s.slotRank pc a) then b else a) r)

/-- COMMAND_SLOT_ARBITRATION (R253, R259, R407): a slot that no window needs serves one granule of the request chosen, while the controller
of the pseudo-channel has power. -/
def execCommandSlotArbitration (pc : Fin 64) (windowNeeds : Bool) (s : State) : Out :=
  if windowNeeds || !s.domainOn (35 + pc.val / 32) then .next s
  else match s.slotChoice pc with
    | none => .next s
    | some r =>
      let r' := { r with todo := r.todo.erase pc.val }
      let m := { s.memSys with lastPart := Tbl.set 0 s.memSys.lastPart pc r.part }
      if r'.todo.isEmpty then
        .next { s with memSys := { m with queue := m.queue.erase r, issued := m.issued ++ [r'] } }
      else
        .next { s with memSys := { m with queue := m.queue.map fun x => if x.id == r.id then r' else x } }

/-! ## Error correction and retirement (R245 to R250) -/

/-- A pseudo-channel replaced. -/
def State.setChannel (s : State) (k : Nat) (c : Channel) : State :=
  { s with memSys := { s.memSys with channels := Tbl.set Channel.zero s.memSys.channels k c } }

/-- Pseudo-channel `k` is retired if R249 allows it: it takes the next free spare slot, admission is evaluated with it
counted out, and the retirement is logged. -/
def State.retire (s : State) (k : Nat) : State :=
  if s.fld .MEM_ECC_CFG_RETIRE_EN = 0 ∨ s.retired k then s
  else
    let used := s.fld .MEM_SPARE_CFG_USED
    if s.fld .MEM_SPARE_CFG_SLOTS ≤ used then s.report 0x513 2
    else
      let s := s.setChannel k { s.channel k with spare := some used, copied := 0 }
      let s := s.setFld .MEM_SPARE_CFG_USED (used + 1)
      let s := s.setFld .MEM_PC_ECC_RETIRED 1 k
      (s.shed.report 0x512 2).writeField

/-- A corrected burst on pseudo-channel `k` (R246, R249). -/
def State.corrected (s : State) (k : Nat) : State :=
  let s := s.count .MEM_PC_ECC_CE k
  let c := s.channel k
  let recent := s.now :: c.recent.filter fun t => decide (s.now < t + 1000000000)
  let log := match c.lastCe with
    | some t => decide (t + 1000000000 ≤ s.now)
    | none => true
  let s := s.setChannel k { c with recent := recent, lastCe := if log then some s.now else c.lastCe }
  let s := if log then s.report 0x511 1 else s
  if s.fld .MEM_ECC_CFG_CE_LIMIT < recent.length then s.retire k else s

/-- An uncorrectable burst on pseudo-channel `k` (R247, R249), received by a SAFETY_RELEVANT command or not. -/
def State.uncorrectable (s : State) (k : Nat) (safety : Bool) : State :=
  ((s.count .MEM_PC_ECC_UE k).report 0x510 (s.sev32 safety)).retire k

/-- The granules of [a, a + n) marked poisoned. -/
def State.poisonedIn (s : State) (a n : Nat) : Bool :=
  s.memSys.poisoned.any fun g => decide (a / 256 ≤ g) && decide (g ≤ (a + n - 1) / 256)

/-- Poisoned data in the region of a stall that is open is a fault of the stall (R479). -/
def State.regionFault (s : State) (a : Nat) : State :=
  match (List.range 32).find? fun k => k != 0 && s.stall k != .closed && decide (s.stallBase k ≤ a) &&
      decide (a < s.stallBase k + s.stallSize k) with
  | some k => s.stallFault k 0x510
  | none => s

/-- What the check bytes make of a burst by the number of its bad symbols (R245): one is corrected, two are detected; with more it is a
free value whether they are (log 109). The flag says whether the burst is uncorrectable. -/
def State.burst (s : State) (a : Nat) (safety : Bool) (b : BadBurst) : State × Bool :=
  let k := s.serving ((a + b.offset) / 256)
  match b.symbols.eraseDups with
  | [] => (s, false)
  | [_] => (s.corrected k, false)
  | l => if l.length = 2 || Config.detects (l.map (·.val)) then (s.uncorrectable k safety, true) else (s.corrected k, false)

/-- The bad bursts of a read, one after the other; is any uncorrectable? -/
def State.bursts (s : State) (a : Nat) (safety : Bool) : EccResult → State × Bool
  | [] => (s, false)
  | b :: l =>
    let (s, x) := s.burst a safety b
    let (s, y) := State.bursts s a safety l
    (s, x || y)

/-- The effect of the ECC outcome of a read of [a, a + n) in HBM; the flag says whether the data arrives poisoned. A
granule marked poisoned reads as uncorrectable whatever the stack says (R250). -/
def State.eccRead (s : State) (a n : Nat) (ecc : EccResult) (safety : Bool) : State × Bool :=
  let (t, bad) := s.bursts a safety ecc
  if bad || s.poisonedIn a n then (t.regionFault a, true) else (t, false)

/-! ## Completion (R260, R261) -/

/-- No record of this kind in the last ms? -/
def State.msPassed (s : State) (last : Option Nat) : Bool :=
  match last with
  | some t => decide (t + 1000000 ≤ s.now)
  | none => true

/-- The latency monitor of a request's partition (R261). -/
def State.monitor (s : State) (r : Request) : State :=
  let lat := s.now - r.left
  let k := regKey r.part r.stall
  let s := if s.fld .MEM_PART_STAT_MAX_LAT r.part < lat then
      s.setFld .MEM_PART_STAT_MAX_LAT (min lat 4294967295) r.part else s
  let limit := s.eff .MEM_PART_CFG_LAT_LIMIT r.part * 10
  let g := s.regulator k
  if limit ≠ 0 ∧ limit < lat ∧ s.msPassed g.lastHigh then
    (s.setRegulator k { g with lastHigh := some s.now }).report 0x541 1
  else s

/-- A request that completes after its deadline (R260). -/
def State.deadlineMiss (s : State) (r : Request) : State :=
  match r.deadline with
  | none => s
  | some d =>
    if s.now ≤ d then s
    else
      let s := s.count .MEM_PART_STAT_DL_MISSES r.part
      let g := s.regulator r.part
      if s.msPassed g.lastMiss then
        (s.setRegulator r.part { g with lastMiss := some s.now }).report 0x542 1
      else s

/-- REGULATED_REQUEST_COMPLETE (R246, R247, R260, R261): a request that has been served completes, with the data of a read, or with an
error where it arrives poisoned. -/
def execRegulatedRequestComplete (req : Nat) (ecc : EccResult) (s : State) : Out :=
  match s.memSys.issued.find? (·.id == req) with
  | none => .next s
  | some r =>
    let s := { s with memSys := { s.memSys with issued := s.memSys.issued.erase r } }
    if s.cutOff r.master then .next s
    else
    let a := s.devAddr r.stall r.addr
    let (s, bad) := if hbmSize ≤ a then (s, false)
      else if r.write then (s.unpoison a r.size, false)
      else s.eccRead a r.size ecc false
    let s := s.answer r.master r.stall ⟨r.id, bad, if r.write then [] else s.devRead a r.size⟩
    .next ((s.monitor r).deadlineMiss r)

/-! ## Maintenance -/

/-- The granule at position `i` of pseudo-channel `k` (R244). -/
def granuleAt (k i : Nat) : Nat := i * 64 + (k ^^^ (i % 64))

/-- RETIRE_GRANULE_COPIED (R250): the next granule of a retired pseudo-channel, read and written through the regulator of master 10, is
redirected to the spare slot; one whose copy reads an uncorrectable burst is marked poisoned there. -/
def execRetireGranuleCopied (pc : Fin 64) (ecc : EccResult) (s : State) : Out :=
  let c := s.channel pc
  if c.spare.isSome ∧ c.copied < 3145728 then
    let g := granuleAt pc c.copied
    match s.spend 512 with
    | none => .next s
    | some s =>
      let (s, bad) := s.eccRead (g * 256) 256 ecc false
      let s := if bad then { s with memSys := { s.memSys with poisoned := g :: s.memSys.poisoned.erase g } } else s
      .next (s.setChannel pc { s.channel pc with copied := c.copied + 1 })
  else .next s

/-- SCRUB_BURST (R248): the next 32 bytes of HBM are read through the regulator of master 10, counted by R246 and R247, and a corrected
burst written back. -/
def execScrubBurst (ecc : EccResult) (s : State) : Out :=
  match s.spend 32 with
  | none => .next s
  | some s =>
    let a := s.memSys.scrub
    let s := (s.eccRead a 32 (ecc.map fun b => { b with offset := 0 }) false).1
    .next { s with memSys := { s.memSys with scrub := (a + 32) % hbmSize } }

/-- Does the beat hold a refresh position of a pseudo-channel (R254)? Positions are fixed on the beat counter, at a rate that the beat step
and the refresh rate of the channel's stack set. -/
def State.refreshDue (s : State) (pc : Nat) : Bool :=
  let doubled : Bool := (s.memSys.hbmStacks[pc / 32]?).any (·.doubled)
  let n := max 1 (Config.refreshBeats s.fabric.step doubled)
  s.fabric.beat % n == Config.refreshPhase pc % n && (Tbl.get (0, 0) s.memSys.rotation pc).2 != s.fabric.beat + 1

/-- REFRESH_SLOT (R254): at a refresh position, the bank whose turn it is in the rotation of the pseudo-channel is refreshed. -/
def execRefreshSlot (pc : Fin 64) (bank : Nat) (s : State) : Out :=
  let turn := (Tbl.get (0, 0) s.memSys.rotation pc.val).1
  if !s.refreshDue pc || bank != turn then .next s
  else
    let k := pc.val * 65536 + bank % 65536
    .next { s with memSys := { s.memSys with
      refreshes := Tbl.set 0 s.memSys.refreshes k (Tbl.get 0 s.memSys.refreshes k + 1)
      rotation := Tbl.set (0, 0) s.memSys.rotation pc.val ((turn + 1) % max 1 Config.refreshBanks, s.fabric.beat + 1) } }

/-- A stack replaced. -/
def State.setStack (s : State) (k : Nat) (x : Stack) : State :=
  { s with memSys := { s.memSys with hbmStacks := setAt s.memSys.hbmStacks k x } }

/-- One stack's temperature read (R255): above 85 °C decides on doubled refresh; 82 °C or less for 100 ms on normal. -/
def State.stackTemp (s : State) (k : Nat) (t : Int) : State :=
  match s.memSys.hbmStacks[k]? with
  | none => s
  | some x =>
    if 85 < t then
      let s := s.setStack k { x with temp := t, coolSince := none,
                                     pending := if x.doubled then none else some true }
      if x.doubled ∨ x.pending = some true then s else s.report 0x520 1
    else if t ≤ 82 then
      let since := x.coolSince.getD s.now
      if x.doubled ∧ since + 100000000 ≤ s.now ∧ x.pending = none then
        (s.setStack k { x with temp := t, coolSince := some since, pending := some false }).report 0x521 0
      else s.setStack k { x with temp := t, coolSince := some since }
    else s.setStack k { x with temp := t, coolSince := none }

/-- STACK_TEMP_READ (R255). -/
def execStackTempRead (t0 t1 : Int) (s : State) : Out := .next ((s.stackTemp 0 t0).stackTemp 1 t1)

/-- REFRESH_RATE_CHANGE (R255): a decided change takes effect at a frame boundary, after the shedding it requires; normal
refresh lets shed minimums return (R269). -/
def execRefreshRateChange (stack : Fin 2) (s : State) : Out :=
  match s.memSys.hbmStacks[stack.val]? with
  | none => .next s
  | some x =>
    if s.fabric.beat % 8192 ≠ 0 then .next s
    else match x.pending with
      | none => .next s
      | some true => .next (s.setStack stack { x with doubled := true, pending := none }).shed
      | some false => .next (s.setStack stack { x with doubled := false, pending := none, coolSince := none }).restore

/-! ## Writes of R262 -/

/-- Is a master that cannot set deadlines mapped to partition `n` by the value `map`? -/
def incapableIn (map n : Nat) : Bool :=
  (List.range 12).any fun m => bits map (4 * m + 3) (4 * m) == n && !deadlineCapable m

/-- A refused write of the PF to a 64-bit register, or to its half `hi` bytes above its offset. -/
def State.refuseHalf (s : State) (r : Reg) (code i hi : Nat) : State := s.refuseAt 0 (r.offset i 0 + hi) code (some i)

/-- The admission evaluation failed: the write is refused with MEM_OVERCOMMIT and nothing changes (R262, R270: SAFETY
guarantees that stay unmet are not the write's matter). -/
def State.admitWrite (s s' : State) (r : Reg) (i hi : Nat) (mustAdmit : Bool) : State :=
  if mustAdmit && !s'.written.admits then s.refuseHalf r 0x501 i hi else s'

/-- A write of MEM_PART_CFG_n (R262, R519). -/
def State.writePartCfg (s : State) (n v : Nat) (hi : Nat := 0) : State :=
  let depth := Fld.of .MEM_PART_CFG_DEPTH v
  let dl := Fld.of .MEM_PART_CFG_DEADLINE_EN v
  let cls := Fld.of .MEM_PART_CFG_CLASS v
  let en := Fld.of .MEM_PART_CFG_ENABLE v
  if (n ≠ 15 ∧ depth < 4096) ∨ (dl = 1 ∧ incapableIn (s.fld .MEM_MASTER_MAP_PART) n) then
    s.refuseHalf .MEM_PART_CFG 0x503 n hi
  else if n ≠ 15 ∧ cls = 3 then s.refuseHalf .MEM_PART_CFG 0x005 n hi
  else
    let s' := s.setLater .MEM_PART_CFG_LAT_LIMIT (Fld.of .MEM_PART_CFG_LAT_LIMIT v) n
    let s' := s'.setLater .MEM_PART_CFG_DEPTH depth n
    let s' := if n = 15 then s' else s'.setLater .MEM_PART_CFG_CLASS cls n
    let s' := s'.setLater .MEM_PART_CFG_DEADLINE_EN dl n
    let s' := s'.setLater .MEM_PART_CFG_ENABLE en n
    let s' := s'.setLater .MEM_PART_CFG_PRIORITY (Fld.of .MEM_PART_CFG_PRIORITY v) n
    s.admitWrite s' .MEM_PART_CFG n hi (s.fld .MEM_PART_CFG_ENABLE n == 0 && en == 1)

/-- A write of MEM_PART_RATE_n (R262). -/
def State.writePartRate (s : State) (n v : Nat) (hi : Nat := 0) : State :=
  let rate := Fld.of .MEM_PART_RATE_RATE v
  let min := Fld.of .MEM_PART_RATE_MIN_RATE v
  if rate < min then s.refuseHalf .MEM_PART_RATE 0x503 n hi
  else
    let s' := (s.setLater .MEM_PART_RATE_RATE rate n).setLater .MEM_PART_RATE_MIN_RATE min n
    s.admitWrite s' .MEM_PART_RATE n hi (decide (s.fld .MEM_PART_RATE_MIN_RATE n < min))

/-- A write of MEM_STALL_RATE_s (R262). -/
def State.writeStallRate (s : State) (k v : Nat) (hi : Nat := 0) : State :=
  let rate := Fld.of .MEM_STALL_RATE_RATE v
  let min := Fld.of .MEM_STALL_RATE_MIN_RATE v
  if rate < min ∨ (1 ≤ rate ∧ rate ≤ 1023) then s.refuseHalf .MEM_STALL_RATE 0x503 k hi
  else
    let s' := (s.setLater .MEM_STALL_RATE_RATE rate k).setLater .MEM_STALL_RATE_MIN_RATE min k
    s.admitWrite s' .MEM_STALL_RATE k hi (decide (s.fld .MEM_STALL_RATE_MIN_RATE k < min))

/-- A write of MEM_MASTER_MAP (R262). -/
def State.writeMasterMap (s : State) (v : Nat) (hi : Nat := 0) : State :=
  let map := Fld.of .MEM_MASTER_MAP_PART v
  let bad := (List.range 12).any fun m => bits map (4 * m + 3) (4 * m) == 15
  let dl := (List.range 15).any fun n => s.fld .MEM_PART_CFG_DEADLINE_EN n == 1 && incapableIn map n
  if bad || dl then s.refuseHalf .MEM_MASTER_MAP 0x503 0 hi else s.setLater .MEM_MASTER_MAP_PART map

/-- MEM_REGULATION_WRITE (R262): a 64-bit write of one of those registers by the PF; another offset changes nothing. -/
def execMemRegulationWrite (offset value : Nat) (s : State) : Out :=
  match locate 0 offset with
  | none => .next s
  | some p =>
    if p.high then .next s
    else match p.reg with
      | .MEM_PART_CFG => .next (s.writePartCfg p.i value)
      | .MEM_PART_RATE => .next (s.writePartRate p.i value)
      | .MEM_STALL_RATE => .next (s.writeStallRate p.i value)
      | .MEM_MASTER_MAP => .next (s.writeMasterMap value)
      | _ => .next s

/-- MEM_PART_STAT_n cleared. -/
def State.clearPartStat (s : State) (n : Nat) : State :=
  (s.setFld .MEM_PART_STAT_DL_MISSES 0 n).setFld .MEM_PART_STAT_MAX_LAT 0 n

/-- CLR_PART_STAT (R261). -/
def execClrPartStat (n : Fin 16) (s : State) : Out := .next (s.clearPartStat n)

/-! ## Purl links (R271, R272) -/

/-- Is a purl link in service? Links 0-5 are the ring links, 6-11 the hub links of CD0-CD5, 12 and 13 those of WHA and
WHB. -/
def State.purlUp (s : State) (link : Nat) : Bool := s.memSys.linkUp.getD link false

/-- A resend counted (R271). -/
def State.countResend (s : State) (link : Nat) : State :=
  if link < 6 then s.count .CD_PURL_RETRY_COUNT link 1
  else if link < 12 then s.count .CD_PURL_RETRY_COUNT (link - 6) 0
  else s.count .HUB_CFG_PURL_WH_RETRY_COUNT (link - 12)

/-- PURL_CRC_RESEND (R271): a resend on a link in service is counted. -/
def execPurlCrcResend (link : Fin 14) (s : State) : Out :=
  if s.purlUp link then .next (s.countResend link) else .next s

/-- A link in service goes down (R272). -/
def State.linkLost (s : State) (link : Nat) : State :=
  if s.purlUp link then
    State.report { s with memSys := { s.memSys with linkUp := setAt s.memSys.linkUp link false } } 0x530
      (if s.inDrive then 3 else 2)
  else s

/-- PURL_LINK_DOWN (R272). -/
def execPurlLinkDown (link : Fin 14) (s : State) : Out := .next (s.linkLost link)

/-- CLR_PURL_RETRY (R271). -/
def execClrPurlRetry (die : Fin 6) (k : Fin 2) (s : State) : Out := .next (s.setFld .CD_PURL_RETRY_COUNT 0 die k)

/-- CLR_PURL_WH_RETRY (R271). -/
def execClrPurlWhRetry (k : Fin 2) (s : State) : Out := .next (s.setFld .HUB_CFG_PURL_WH_RETRY_COUNT 0 k)

end Sys2Proof.Machine
end

