-- ==== Sys2Proof/Machine/PairLink.lean ====
section
/-!
DEFINITION. Machine/PairLink.lean: the pair link (R275 to R285): training, flits, beat alignment, transfers, cross-package
barriers and the loss of the link.
-/

namespace Sys2Proof.Machine

/-! ## Shared parts -/

/-- The link's state replaced. -/
def State.setPair (s : State) (p : PairLink) : State := { s with pair := p }

/-- This package's PAIR_ROLE strap: 0 A, 1 B. -/
def State.pairRole (s : State) : Nat := s.fld .SEC_BOOT_STATUS_PAIR_ROLE

/-- Do flits flow (UP or ALIGNED)? -/
def State.pairUp (s : State) : Bool := decide (2 ≤ s.pair.state)

/-- Is the link ALIGNED (R279)? -/
def State.aligned (s : State) : Bool := s.pair.state == 3

/-- A training attempt that failed (R278): three in a row are logged once. -/
def State.trainFail (s : State) : State :=
  let f := s.pair.failures + 1
  let s := s.setPair { s.pair with state := 0, phase := 0, failures := f }
  if 3 ≤ f ∧ !s.pair.failLogged then (s.setPair { s.pair with failLogged := true }).report 0x560 2 else s

/-- The vehicle controller is told whether this package is in command (R284, R370), with the code of the record that caused it. -/
def State.tellCommand (s : State) (old : Bool) (cause : Nat) : State :=
  s.event 9 (if old then 1 else 0) (if s.safety.inCommand then 1 else 0) cause s.now

/-- This package's outputs become command or cease to be (R370): the change is logged and sent. -/
def State.setCommand (s : State) (c : Bool) (cause : Nat := 0x831) : State :=
  let old := s.safety.inCommand
  if old = c then s
  else (State.report { s with safety := { s.safety with inCommand := c } } 0x831 0).tellCommand old cause

/-- What is left of a barrier whose own generation is over: an ARRIVE that the peer has sent for another. -/
def Barrier.over (b : Barrier) : Option Barrier :=
  if b.peerGen.isSome && b.peerGen != b.ownGen then some ⟨none, b.peerGen, b.peerAt, 0, none, 0, 0⟩ else none

/-- A barrier fails (R282): the EXEC that waits at it completes with PAIR_BARRIER_FAIL and nothing has started. -/
def State.failBarrier (s : State) (id : Nat) : State :=
  match s.barrier id with
  | none => s
  | some b =>
    let s := s.setBarrier id b.over
    if b.ownGen.isNone then s
    else match s.program b.fn b.slot with
      | none => s
      | some p => match p.running with
        | none => s
        | some r =>
          let s := match r.desc with
            | some d => s.finish d 0x564 1 0
            | none => s.report 0x564 1
          let s := s.finishKill r 0
          s.modProgram b.fn b.slot fun p => { p with running := none }

/-- Has a barrier not reached its release beat? -/
def State.beforeRelease (s : State) (b : Barrier) : Bool :=
  match b.release with
  | none => true
  | some r => decide (s.fabric.beat < r)

/-- The iteration of a barrier is to start at `rel` (R282). -/
def State.releaseAt (s : State) (id : Nat) (b : Barrier) (rel : Nat) : State :=
  let s := (s.setBarrier id (some { b with release := some rel })).modRunning b.fn b.slot fun r => { r with next := some rel }
  s.bookSlot b.fn b.slot rel

/-- The bodies of ARRIVE and RELEASE (Table 8.8). -/
def arriveBody (id gen : Nat) : List Byte := leBytes 2 id ++ leBytes 2 gen
def releaseBody (id gen rel : Nat) : List Byte := leBytes 2 id ++ leBytes 2 gen ++ leBytes 4 0 ++ leBytes 8 rel

/-- Role A, on holding both ARRIVEs of a generation within BARRIER_TIMEOUT of its own, fixes the release beat and sends
RELEASE (R282). -/
def State.tryRelease (s : State) (id : Nat) : State :=
  match s.barrier id with
  | none => s
  | some b =>
    match b.ownGen, b.peerGen, b.release with
    | some g, some g', none =>
      if s.pairRole = 0 ∧ g = g' ∧ s.now ≤ b.armedAt + s.fld .MEM_PAIR_CFG_BARRIER_TIMEOUT * 1000 then
        let rel := alignUp (s.fabric.beat + 4096) 8192
        let s := s.sendFlit 5 (releaseBody id g rel)
        s.releaseAt id b rel
      else s
    | _, _, _ => s

/-- This side's EXEC is ready at a barrier: ARRIVE is sent (R282). -/
def State.arriveOwn (s : State) (id gen fn slot : Nat) : State :=
  let peer := match s.barrier id with
    | some b => (b.peerGen, b.peerAt)
    | none => (none, 0)
  let s := s.setBarrier id (some ⟨some gen, peer.1, peer.2, s.now, none, fn, slot⟩)
  let s := s.setPair { s.pair with aborted := s.pair.aborted.filter fun k => k != (64 + id, gen) }
  (s.sendFlit 4 (arriveBody id gen)).tryRelease id

/-- The pair link is lost (R284). -/
def State.pairLost (s : State) : State :=
  let s := s.setPair { s.pair with state := 0, phase := 0, alignedRun := 0, trim := 0, xfers := [], replay := [], backlog := [] }
  let s := s.report 0x562 2
  let s := (List.range 64).foldl (init := s) fun s id =>
    match s.barrier id with
    | some b =>
      let s := s.setBarrier id (some { b with peerGen := if b.peerGen = b.ownGen then b.peerGen else none })
      if s.beforeRelease b then s.failBarrier id else s
    | none => s
  let c := s.pairRole != 1
  let s := s.setPair { s.pair with advisory := !c }
  if s.safety.inCommand = c then s.tellCommand c 0x562 else s.setCommand c 0x562

/-- The link leaves ALIGNED when the beat steps of the packages differ (R279). -/
def State.checkSteps (s : State) : State :=
  if s.aligned && s.pair.peerBeatStep != s.fabric.step then
    s.setPair { s.pair with state := 2, alignedRun := 0 }
  else s

/-! ## Training (R278) -/

/-- PAIR_ENABLE (R278): refused with MEM_CFG_BAD when SAFE_ALONE is strapped. -/
def State.pairEnable (s : State) : State :=
  if s.fld .SEC_BOOT_STATUS_SAFE_ALONE = 1 then (s.refuse .MEM_PAIR_CFG 0x503)
  else (s.setFld .MEM_PAIR_CFG_ENABLE 1)

/-- PAIR_ENABLE: the command. -/
def execPairEnable (s : State) : Out := .next (s.pairEnable)

/-- PAIR_TRAIN_ATTEMPT (R278): every 100 ms while enabled and not UP. -/
def execPairTrainAttempt (s : State) : Out :=
  let due : Bool := match s.pair.lastAttempt with
    | none => true
    | some t => decide (t + 100000000 ≤ s.now)
  if s.fld .MEM_PAIR_CFG_ENABLE = 1 ∧ s.pair.state = 0 ∧ due ∧ !s.swatch.pairHeld then
    .next ((s.count .MEM_PAIR_STATUS_RETRAINS).setPair
      { s.pair with state := 1, phase := 0, lastAttempt := some s.now, wire := s.pair.wire ++ [.control 0x1E] })
  else .next s

/-- Time since the attempt began, while training. -/
def State.trainAge (s : State) : Nat := s.now - s.pair.lastAttempt.getD s.now

/-- PAIR_TRAIN_TIMEOUT (R278): an attempt that is not UP within 30 ms is abandoned. -/
def execPairTrainTimeout (s : State) : Out :=
  if s.pair.state = 1 ∧ 30000000 ≤ s.trainAge then .next s.trainFail else .next s

/-- TRAIN_A (Table 8.9): bit and block lock within 2 ms, else the attempt fails; equalisation follows. -/
def execTrainA (s : State) : Out :=
  if s.pair.state = 1 ∧ s.pair.phase = 0 then
    if s.trainAge ≤ 2000000 then .next (s.setPair { s.pair with phase := 1 }) else .next s.trainFail
  else .next s

/-- Is the attempt too old to reach UP (R278)? -/
def State.trainLate (s : State) : Bool := decide (30000000 < s.trainAge)

/-- TRAIN_B (Table 8.9): lane numbers, reversal, polarity and skew; an attempt of more than 30 ms is abandoned. -/
def execTrainB (s : State) : Out :=
  if s.pair.state = 1 ∧ s.pair.phase = 1 then
    if s.trainLate then .next s.trainFail
    else .next (s.setPair { s.pair with phase := 2, wire := s.pair.wire ++ [.control 0x2D] })
  else .next s

/-- TRAIN_C (Table 8.9): equal roles fail the attempt with PAIR_ROLE_CONFLICT; otherwise the scramblers are seeded, flits
start with empty replay buffers and the link is UP. -/
def execTrainC (peerRole : Bool) (s : State) : Out :=
  if s.pair.state = 1 ∧ s.pair.phase = 2 then
    if s.trainLate then .next s.trainFail
    else if (if peerRole then 1 else 0) = s.pairRole then .next (s.report 0x561 2).trainFail
    else
      .next ((s.setPair { s.pair with
        state := 2, phase := 0, failures := 0, failLogged := false, nextSeq := 1, inOrder := 0, replay := [], backlog := [],
        credits := Config.pairBuffer, freed := 0, ackValid := false, nak := false, lastGood := s.now, peerRole := peerRole,
        lastTimeSent := none, alignedRun := 0, xfers := [], sent := [], wire := s.pair.wire ++ [.control 0x4B], blocks := 0,
        scramblers := (List.range 8).map scrambleSeed }).report 0x563 0)
  else .next s

/-- SKIP (R275): a SKIP block may be dropped or repeated; it changes nothing above the lanes and is counted. -/
def execSkip (s : State) : Out :=
  if 1 ≤ s.pair.state then .next (s.setPair { s.pair with skips := s.pair.skips + 1 }) else .next s

/-! ## Flit headers (R276, R277) -/

/-- The sequence number `a` lies at or before `b` in the round of 65,536. -/
def seqLe (a b : Nat) : Bool := decide ((b + 65536 - a) % 65536 < 32768)

/-- A received flit, of its header, its type and its body. -/
def hdrFlit (h : FlitHdr) (kind : Nat) (body : List Byte) : Flit := ⟨kind, h.nak, h.ackValid, h.seq, h.ack, h.credits, body⟩

/-- Is the CRC-32 of a received flit good (R276)? -/
def goodFlit (h : FlitHdr) (kind : Nat) (body : List Byte) : Bool := h.crc == (hdrFlit h kind body).crc

/-- The flits of the replay buffer sent again, in order, each counted (R277). -/
def PairLink.resendAll (p : PairLink) : PairLink :=
  { p.replay.foldl (fun p r => p.transmit r.seq r.kind r.body) p with
    replay := p.replay.map fun r => { r with resends := r.resends + 1 } }

/-- What the header of a good flit says, taken in (R277): the link's time is renewed, what is acknowledged leaves the replay buffer, credits
are added, a NAK has the sender resend from the flit after ack, and flits that waited follow. -/
def PairLink.heard (p : PairLink) (now : Nat) (h : FlitHdr) : PairLink :=
  let p := { p with lastGood := now, credits := p.credits + h.credits,
                    replay := if h.ackValid then p.replay.filter fun e => !seqLe e.seq h.ack else p.replay }
  let p := if h.nak then p.resendAll else p
  p.drain p.backlog.length

/-- A flit arrives (R276, R277): a bad CRC sets NAK. The flag says whether the flit is accepted. -/
def State.header (s : State) (h : FlitHdr) (kind : Nat) (body : List Byte) : State × Bool :=
  if !s.pairUp then (s, false)
  else if !goodFlit h kind body then (s.setPair { s.pair with nak := true }, false)
  else (s.setPair (s.pair.heard s.now h), true)

/-- A sequenced flit arrives (R277): a gap in seq sets NAK, a flit already accepted is passed over, one accepted frees its place in the
receive buffer at once. -/
def State.sequenced (s : State) (h : FlitHdr) (kind : Nat) (body : List Byte) : State × Bool :=
  let (s, ok) := s.header h kind body
  if !ok then (s, false)
  else if h.seq = (s.pair.inOrder + 1) % 65536 then
    (s.setPair { s.pair with inOrder := h.seq, nak := false, ackValid := true, freed := s.pair.freed + 1 }, true)
  else if s.pair.ackValid && seqLe h.seq s.pair.inOrder then (s, false)
  else (s.setPair { s.pair with nak := true }, false)

/-- IDLE (R277): acks and credits only. -/
def execIdle (h : FlitHdr) (s : State) : Out := .next (s.header h 0 []).1

/-- The body of a STATUS flit (Table 8.8). -/
def statusBody (role mode step beatStep authority : Nat) : List Byte :=
  leBytes 1 role ++ leBytes 1 mode ++ leBytes 1 step ++ leBytes 1 beatStep ++ leBytes 1 authority

/-- STATUS_FLIT (R277): the view of the peer. -/
def execStatusFlit (h : FlitHdr) (role : Bool) (mode step beatStep authority : Nat) (s : State) : Out :=
  let (s, ok) := s.header h 2 (statusBody (if role then 1 else 0) mode step beatStep authority)
  if ok then
    .next (s.setPair { s.pair with peerRole := role, peerMode := mode, peerStep := step, peerBeatStep := beatStep,
                                   peerAuthority := authority }).checkSteps
  else .next s

/-! ## Beat alignment (R279) -/

/-- Twice the offset of the peer's exchange: ((t2 - t1) - (t4 - t3)) of R279, B's counter minus A's, each difference taken
in 64 bits. -/
def State.twiceOffset (s : State) (sent echo echoRecv : Nat) : Int :=
  let d := fun (a b : Nat) => signed 64 (a + two64 - b)
  if s.pairRole = 1 then d s.fabric.beat sent - d echoRecv echo
  else d echoRecv echo - d s.fabric.beat sent

/-- Is any iteration running? -/
def State.anyIteration (s : State) : Bool :=
  s.programs.any fun p => match p.running with
    | some r => !r.iters.isEmpty
    | none => false

/-- An exchange completed with twice the offset `o2` (R279). B steps its counter when idle and more than 4,096 beats away,
otherwise it trims its clock; both sides judge alignment. -/
def State.exchange (s : State) (o2 : Int) : State :=
  let off := divEven o2 2
  let s := s.setPair { s.pair with offset := clampInt (-2147483648) 2147483647 off }
  if s.pairRole = 1 ∧ !s.anyIteration ∧ 4096 < off.natAbs then
    let beat := (((s.fabric.beat : Int) - off) % (two64 : Int)).toNat
    { s with fabric := { s.fabric with beat := beat },
             pair := { s.pair with alignedRun := 0, state := 2, trim := 0 } }
  else
    let s := if s.pairRole = 1 then s.setPair { s.pair with trim := clampInt (-200) 200 (-off) } else s
    if o2.natAbs ≤ 4 then
      let run := s.pair.alignedRun + 1
      let up := 16 ≤ run ∧ s.pair.peerBeatStep = s.fabric.step
      s.setPair { s.pair with alignedRun := run, state := if up then 3 else s.pair.state }
    else s.setPair { s.pair with alignedRun := 0, state := 2 }

/-- The body of a TIME flit (Table 8.8). -/
def timeBody (sent echo echoRecv beatStep : Nat) : List Byte :=
  leBytes 8 sent ++ leBytes 8 echo ++ leBytes 8 echoRecv ++ leBytes 1 beatStep

/-- TIME (R279): an exchange is complete when the flit echoes the last TIME flit that this side sent. -/
def execTime (h : FlitHdr) (sent echo echoRecv beatStep : Nat) (s : State) : Out :=
  let (s, ok) := s.header h 3 (timeBody sent echo echoRecv beatStep)
  if !ok then .next s
  else
    let s := s.setPair { s.pair with lastTimeRecv := sent, lastTimeRecvAt := s.fabric.beat, peerBeatStep := beatStep }
    let s := s.checkSteps
    if s.pair.lastTimeSent = some echo then .next (s.exchange (s.twiceOffset sent echo echoRecv)).checkSteps
    else .next s

/-- PAIR_TIME_SEND (R279): at a frame boundary of the local beat counter. -/
def execPairTimeSend (s : State) : Out :=
  if s.pairUp && s.fabric.beat % 8192 == 0 then
    let s := s.sendFlit 3 (timeBody s.fabric.beat s.pair.lastTimeRecv s.pair.lastTimeRecvAt s.fabric.step)
    .next (s.setPair { s.pair with lastTimeSent := some s.fabric.beat })
  else .next s

/-- PAIR_STATUS_SEND (R277): a STATUS flit, with authority held 0 while this package is not in command (R370, log 110), and an IDLE flit
after it where nothing else is to send (log 108). -/
def execPairStatusSend (s : State) : Out :=
  if s.pairUp then
    let s := s.sendFlit 2 (statusBody s.pairRole s.mode.code s.degrade.step s.fabric.step
      (if s.safety.inCommand then s.safety.authority else 0))
    .next (if s.pair.backlog.isEmpty then s.sendFlit 0 [] else s)
  else .next s

/-! ## Transfers (R281) -/

/-- The body of a DATA flit (Table 8.8). -/
def dataBody (xfer : Nat) (last : Bool) (offset : Nat) (bytes : List Byte) : List Byte :=
  leBytes 1 xfer ++ leBytes 1 (if last then 1 else 0) ++ leBytes 2 bytes.length ++ leBytes 4 offset ++ bytes

/-- DATA (R281): the bytes go into the free half of the inbound buffer, which is set ready when LAST has been accepted. -/
def execData (h : FlitHdr) (xfer : Fin 64) (buffer : Fin 1024) (last : Bool) (offset : Nat) (bytes : List Byte)
    (s : State) : Out :=
  let (s, ok) := s.sequenced h 1 (dataBody xfer last offset bytes)
  if !ok then .next s
  else match s.buffer buffer with
    | none => .next s
    | some b =>
      let x := s.xfer xfer
      if b.entry.dir ≠ 0 ∨ (x.dropping ∧ offset ≠ 0) then .next s
      else
        let x := { x with dropping := false }
        let (s, half) := match x.receiving with
          | some (_, k) => (s, k)
          | none => (s.clearReady buffer b.freeHalf, b.freeHalf)
        let room := bytes.take (min 104 (b.entry.size - offset))
        let s := s.devWrite (b.halfAddr half + offset) room
        if last then .next ((s.fillHalf buffer half id).setXfer xfer { x with receiving := none, feeds := some buffer })
        else .next (s.setXfer xfer { x with receiving := some (buffer, half), feeds := some buffer })

/-- The DATA flits of a half from `off` on, as many as the replay buffer and the credits have room for (R277), with the offset reached. -/
def State.sendHalf (s : State) (xfer size addr : Nat) : Nat → Nat → State × Nat
  | 0, off => (s, off)
  | n + 1, off =>
    if size ≤ off ∨ !(s.pair.backlog.isEmpty && s.pair.room) then (s, off)
    else
      let len := min 104 (size - off)
      let s' := s.sendFlit 1 (dataBody xfer (decide (size ≤ off + len)) off (s.devRead (addr + off) len))
      s'.sendHalf xfer size addr n (off + len)

/-- PAIR_XFER_SEND (R281, R342): a bound outbound half that is ready and agreed is sent in ascending offset; its ready bit
is cleared with the LAST flit. -/
def execPairXferSend (xfer : Fin 64) (s : State) : Out :=
  if s.fld .MEM_PAIR_XFER_ENABLE xfer = 0 ∨ !s.pairUp then .next s
  else
    let id := s.fld .MEM_PAIR_XFER_LOCAL_BUF xfer
    match s.buffer id with
    | none => .next s
    | some b =>
      let x := s.xfer xfer
      let start := match x.sending with
        | some (k, off) => some (k, off)
        | none => b.newest.map fun k => (k, 0)
      match start with
      | none => .next s
      | some (k, off) =>
        let half := (b.halves[k]?).getD Half.zero
        if b.entry.dir ≠ 1 ∨ half.pendingVerdict ∨ half.invalid then .next s
        else
          let (s, off) := s.sendHalf xfer b.entry.size (b.halfAddr k) 256 off
          if b.entry.size ≤ off then .next ((s.clearReady id k).setXfer xfer { x with sending := none })
          else .next (s.setXfer xfer { x with sending := some (k, off) })

/-- The sender stops the half in flight of a transfer (R283). The half counts as sent, so its ready bit clears (log 39). -/
def State.stopXfer (s : State) (n : Nat) : State :=
  let x := s.xfer n
  let s := match x.sending with
    | some (k, _) => s.clearReady (s.fld .MEM_PAIR_XFER_LOCAL_BUF n) k
    | none => s
  s.setXfer n { x with sending := none }

/-! ## Barriers (R282, R283) -/

/-- ARRIVE (R282). -/
def execArrive (h : FlitHdr) (barrier : Fin 64) (gen : Nat) (s : State) : Out :=
  let (s, ok) := s.sequenced h 4 (arriveBody barrier gen)
  if !ok then .next s
  else
    let b := match s.barrier barrier with
      | some b => { b with peerGen := some gen, peerAt := s.now }
      | none => ⟨none, some gen, s.now, 0, none, 0, 0⟩
    .next ((s.setBarrier barrier (some b)).tryRelease barrier)

/-- RELEASE (R282): role B starts the iteration at the release beat if it lies far enough ahead, else aborts. -/
def execRelease (h : FlitHdr) (barrier : Fin 64) (gen rel : Nat) (s : State) : Out :=
  let (s, ok) := s.sequenced h 5 (releaseBody barrier gen rel)
  if !ok ∨ s.pairRole = 0 then .next s
  else match s.barrier barrier with
    | none => .next s
    | some b =>
      if b.ownGen ≠ some gen ∨ b.release.isSome then .next s
      else if s.aligned ∧ s.fabric.beat + 2048 ≤ rel then .next (s.releaseAt barrier b rel)
      else .next ((s.sendAbort 1 barrier gen 3).failBarrier barrier)

/-- ABORT (R283): each is logged; the first of its generation fails a barrier before its release beat, kills the iteration
after it, or stops a transfer. -/
def execAbort (h : FlitHdr) (isBarrier : Bool) (id : Fin 64) (gen reason : Nat) (s : State) : Out :=
  let (s, ok) := s.sequenced h 6 (abortBody (if isBarrier then 1 else 0) id gen reason)
  if !ok then .next s
  else
    let key := ((if isBarrier then 64 else 0) + id.val, gen)
    let seen := s.pair.aborted.contains key
    let s := s.report 0x565 0
    if seen then .next s
    else
      let s := s.setPair { s.pair with aborted := key :: s.pair.aborted }
      if !isBarrier then .next (s.stopXfer id)
      else match s.barrier id with
        | none => .next s
        | some b =>
          if b.ownGen ≠ some gen then
            .next (if b.peerGen ≠ some gen then s
              else s.setBarrier id (if b.ownGen.isNone then none else some { b with peerGen := none }))
          else if s.beforeRelease b then .next (s.failBarrier id)
          else .next ((s.killProgram b.fn b.slot 0x120 0).setBarrier id b.over)

/-- PAIR_LOST_TIMEOUT (R277, R284): eight resends without acceptance, or LOST_TIMEOUT without a good flit. -/
def execPairLostTimeout (s : State) : Out :=
  if s.pairUp ∧ (s.pair.replay.any (8 ≤ ·.resends) ∨ s.pair.lastGood + s.fld .MEM_PAIR_CFG_LOST_TIMEOUT * 1000 ≤ s.now) then
    .next s.pairLost
  else .next s

/-- BARRIER_TIMEOUT (R282): the peer's ARRIVE is not held within BARRIER_TIMEOUT of the own one. -/
def execBarrierTimeout (barrier : Fin 64) (s : State) : Out :=
  match s.barrier barrier with
  | none => .next s
  | some b =>
    match b.ownGen with
    | none => .next s
    | some g =>
      let until_ := b.armedAt + s.fld .MEM_PAIR_CFG_BARRIER_TIMEOUT * 1000
      if (b.peerGen ≠ b.ownGen ∨ until_ < b.peerAt) ∧ b.release.isNone ∧ until_ ≤ s.now then
        .next ((s.sendAbort 1 barrier g 1).failBarrier barrier)
      else .next s

end Sys2Proof.Machine
end

