-- ==== Sys2Proof/Machine/Sensing.lean ====
section
/-!
DEFINITION. Machine/Sensing.lean: the sensing commands (06): trigger lines, stream contexts, frames and their alignment
and health, fusion instants and the released result.
-/

namespace Sys2Proof.Machine

/-! ## Accessors -/

/-- A trigger line. -/
def State.trig (s : State) (n : Nat) : Trigger := Tbl.get Trigger.zero s.sensing.triggers n

/-- A trigger line replaced. -/
def State.setTrig (s : State) (n : Nat) (t : Trigger) : State :=
  { s with sensing := { s.sensing with triggers := Tbl.set Trigger.zero s.sensing.triggers n t } }

/-- Is context `n` enabled? -/
def State.ctxOn (s : State) (n : Nat) : Bool := s.fld .SENS_STREAM_CTX_ENABLE n == 1

/-- The trigger line of context `n`. -/
def State.lineOf (s : State) (n : Nat) : Nat := s.fld .SENS_STREAM_CTX_TRIGGER n

/-- The period of a trigger line in ns. -/
def State.period (s : State) (line : Nat) : Nat := s.fld .SENS_TRIG_TIMING_PERIOD line

/-- The trigger time of edge `k` (R190). -/
def State.edgeTime (s : State) (line k : Nat) : Nat := s.fld .SENS_TRIG_TIMING_PHASE line + k * s.period line

/-- The state of a context by its conditions (R201): 0 OK, 1 LATE, 2 UNSYNC, 3 SUSPECT, 4 LOST. -/
def Context.health (c : Context) : Nat :=
  if c.lost then 4 else if c.unsync then 2 else if c.suspect then 3 else if c.late then 1 else 0

/-- Is the stream fusable (R203)? -/
def Context.fusable (c : Context) : Bool := c.health ≤ 1

/-! ## Fusion instants -/

/-- T_i (R197). -/
def State.instantTime (s : State) (i : Nat) : Nat :=
  s.fld .SENS_FUSION_PHASE_PHASE + i * s.fld .SENS_FUSION_PERIOD_PERIOD

/-- The largest i with T_i ≤ t (R198), none before T_0. -/
def State.instantAt (s : State) (t : Nat) : Option Nat :=
  if t < s.fld .SENS_FUSION_PHASE_PHASE then none
  else some ((t - s.fld .SENS_FUSION_PHASE_PHASE) / s.fld .SENS_FUSION_PERIOD_PERIOD)

/-- The instant a frame of an edge at time `t` belongs to: the smallest T_i at or after it (R197). -/
def State.instantOf (s : State) (t : Nat) : Nat :=
  ceilDiv (t - s.fld .SENS_FUSION_PHASE_PHASE) (s.fld .SENS_FUSION_PERIOD_PERIOD)

/-- Is fusion enabled? -/
def State.fusing (s : State) : Bool := s.fld .SENS_FUSION_CFG_ENABLE == 1

/-! ## The sensing step (R208) -/

/-- The enabled contexts of a group. -/
def State.groupCtx (s : State) (g : Nat) : List Nat :=
  (List.range 128).filter fun n => s.ctxOn n && s.fld .SENS_STREAM_CTX_GROUP n == g

/-- Is group `g` lost? -/
def State.groupLost (s : State) (g : Nat) : Bool :=
  let l := s.groupCtx g
  !l.isEmpty && decide ((l.filter fun n => (s.ctx n).fusable).length < s.fld .SENS_GROUP_MIN_STREAMS g)

/-- The groups with an enabled context that cover sector `k`. -/
def State.covering (s : State) (k : Nat) : List Nat :=
  (List.range 16).filter fun g => !(s.groupCtx g).isEmpty && bit (s.fld .SENS_GROUP_SECTORS g) k

/-- Is sector `k` blind? -/
def State.blind (s : State) (k : Nat) : Bool :=
  let l := s.covering k
  !l.isEmpty && l.all s.groupLost

/-- The sensing step (R208). -/
def State.sensingStep (s : State) : Nat :=
  let blind := (List.range 8).filter s.blind
  let crit := blind.any fun k => bit (s.fld .SENS_DEGRADE_CFG_CRIT_SECTORS) k
  if (List.range 16).all fun g => !s.groupLost g then 0
  else if blind.isEmpty then 1
  else if blind.length ≤ s.fld .SENS_DEGRADE_CFG_MAX_BLIND && !crit then 2
  else 3

/-- The sensing step computed again after a change of stream state; a new value begins its time without interruption (R209). -/
def State.recompute (s : State) : State :=
  let v := s.sensingStep
  if s.sensing.lowerSince.any fun x => x.1 == v then s
  else { s with sensing := { s.sensing with lowerSince := some (v, s.now) } }

/-! ## Slots -/

/-- The device address of slot `k` of a context (R179). -/
def State.slotAddr (s : State) (n k : Nat) : Nat :=
  s.fld .SENS_STREAM_SLOT_BASE_BASE n * 4096 + k * s.fld .SENS_STREAM_SLOT_SIZE_SIZE n

/-- A slot of a context replaced. -/
def State.putSlot (s : State) (n k : Nat) (x : FrameSlot) : State :=
  s.modCtx n fun c => { c with slots := setAt c.slots k x }

/-- The frame record (Table 6.2). -/
def frameRecord (x : FrameSlot) (health score : Nat) : List Byte :=
  leBytes 8 x.instant ++ leBytes 8 (if x.fuse then x.edge else 0) ++ leBytes 4 (if x.fuse then x.bytes else 0) ++
  leBytes 2 x.number ++ leBytes 1 health ++
  leBytes 1 ((if x.fuse then 1 else 0) + (if x.missedBefore then 2 else 0)) ++
  leBytes 4 (unsign 32 (clampInt (-2147483647) 2147483647 x.delta)) ++ leBytes 2 score ++ List.replicate 226 0

/-- The slot an arriving item takes (R182): a free one, else that of the oldest complete item that is not held; the
flag says that an item was displaced. -/
def Context.take (c : Context) : Option (Nat × Bool) :=
  match c.slots.findIdx? (·.phase == .free) with
  | some k => some (k, false)
  | none =>
    let l := (List.range c.slots.length).filter fun k =>
      match c.slots[k]? with
      | some x => x.phase == .complete || x.phase == .ready
      | none => false
    let order := fun k => ((c.slots[k]?).map (·.order)).getD 0
    match l with
    | [] => none
    | k :: t => some (t.foldl (fun a b => if order b < order a then b else a) k, true)

/-- Slot `k` of context `n` becomes ready for its instant (R199): an older ready item is freed, and a frame's replacement of an item of
the same instant is counted (cause 0x0C). -/
def State.makeReady (s : State) (n k : Nat) : State :=
  let c := s.ctx n
  match c.slots[k]? with
  | none => s
  | some x =>
    let old := c.slots.find? fun y => y.phase == .ready
    let s := match old with
      | some y => if y.instant = x.instant ∧ x.fuse then s.tally 0x0C n else s
      | none => s
    let c := s.ctx n
    let gen := nextGen c.gen
    let slots := c.slots.map fun y => if y.phase == .ready then { y with phase := SlotPhase.free } else y
    let s := s.setCtx n { c with gen := gen, slots := setAt slots k { x with phase := .ready, gen := gen } }
    let s := s.ownWrite 2 (s.slotAddr n k) (frameRecord x c.health c.score)
    s.slotWords n

/-- A void record made ready for instant `i` of an excluded context when no item of that instant is ready (R199). -/
def State.makeVoid (s : State) (n i : Nat) : State :=
  let c := s.ctx n
  if c.fusable || c.slots.any fun y => y.phase == .ready && y.instant == i then s
  else match c.take with
    | none => s
    | some (k, _) =>
      let x : FrameSlot := ⟨.complete, 0, c.order + 1, i, 0, 0, 0, false, false, 0⟩
      ((s.setCtx n { c with order := c.order + 1, slots := setAt c.slots k x })).makeReady n k

/-- A void record made ready for the current instant of an excluded context, at the moment of its exclusion (R199). -/
def State.voidNow (s : State) (n : Nat) : State :=
  match s.sensing.instant with
  | some i => if s.fusing && !(s.ctx n).fusable then s.makeVoid n i else s
  | none => s

/-! ## Health -/

/-- The code and severity of a stream state (Table 6.9). -/
def healthCode (h : Nat) : Nat × Nat :=
  if h = 0 then (0x310, 0) else if h = 1 then (0x311, 2) else if h = 2 then (0x312, 2)
  else if h = 3 then (0x313, 2) else (0x314, 2)

/-- The conditions of a context changed by `g` (Table 6.5): a change of its state is recorded with the request the
sensing step now calls for (R204, R208, R209), and an exclusion makes a void record for the current instant (R199). -/
def State.conds (s : State) (n : Nat) (g : Context → Context) : State :=
  let old := (s.ctx n).health
  let s := s.modCtx n g
  let new := (s.ctx n).health
  if old = new then s
  else
    let s := s.setFld .SENS_STREAM_STATUS_LAST_CAUSE (healthCode new).1 n
    let s := s.recompute
    let v := s.sensingStep
    let req := if v > s.degrade.req.getD 0 0 then some (0, v) else none
    (s.report (healthCode new).1 (healthCode new).2 (some n) none req).voidNow n

/-- The slot of the frame under way freed. -/
def State.freeFrameSlot (s : State) (n : Nat) (f : Frame) : State :=
  match f.slot with
  | some k => s.modCtx n fun c => { c with slots := setAt c.slots k FrameSlot.zero }
  | none => s

/-- A frame that a re-arm overtakes before it is matched arrives during the hold: it is discarded and not counted (R195). -/
def State.dropUnmatched (s : State) (n : Nat) : State :=
  match (s.ctx n).frame with
  | none => s
  | some f => if f.edge.isSome || f.discard then s
    else (s.freeFrameSlot n f).modCtx n fun c => { c with frame := some { f with discard := true, slot := none } }

/-- The line of a context is re-armed (R193): the edges up to one period from now are suppressed and every context of
the line is anchored anew; a second UNSYNC during the hold does not extend it. -/
def State.rearm (s : State) (line : Nat) : State :=
  let t := s.trig line
  if t.holdEnd.isSome then s
  else
    let e := s.now + s.period line
    let s := s.setTrig line { t with holdEnd := some e, gaps := ((s.now, e) :: t.gaps).take 8 }
    let s := s.setFld .SENS_TRIG_CTRL_HOLDING 1 line
    let s := s.report 0x330 0 (some line)
    (List.range 128).foldl (init := s) fun s n =>
      if s.ctxOn n && s.lineOf n == line then (s.dropUnmatched n).modCtx n fun c => { c with anchored := false } else s

/-- RUN 0 (R196, R201, R202). -/
def Context.runZero (c : Context) : Context := { c with run := 0, lowSinceZero := false }

/-- UNSYNC set by the alignment rule (Table 6.5): late and RUN are cleared and the line is re-armed. -/
def State.setUnsync (s : State) (n : Nat) : State :=
  let s := s.conds n fun c => { c.runZero with unsync := true, late := false, misaligned := 0 }
  s.rearm (s.lineOf n)

/-- A frame that is no plausibility failure joins the last 8 frames (Table 6.5). -/
def Context.notePlausible (c : Context) : Context := { c with plaus := (false :: c.plaus).take 8 }

/-- A plausibility failure of a frame (R202): counted, shown, RUN 0; the second within 8 consecutive frames sets
suspect (Table 6.5). -/
def State.plausFail (s : State) (n code : Nat) : State :=
  let s := s.count .SENS_STREAM_FAULTS_PLAUS_FAIL n
  let s := s.setFld .SENS_STREAM_STATUS_LAST_CAUSE code n
  let h := (true :: (s.ctx n).plaus).take 8
  let s := s.modCtx n fun c => { c.runZero with plaus := h, misaligned := 0 }
  if 2 ≤ (h.filter id).length then s.conds n fun c => { c with suspect := true } else s

/-- Missed frames counted (R182, R195). -/
def State.missed (s : State) (n k : Nat) : State :=
  if k = 0 then s
  else (s.count .SENS_STREAM_FAULTS_MISSED n 0 k).modCtx n fun c => { c with missed := true }

/-! ## Matching (R195) -/

/-- Does edge `k` of a line exist for matching: at or after the first allowed time, and neither suppressed nor skipped (R191 to R193)? -/
def State.edgeExists (s : State) (line k : Nat) : Bool :=
  let t := s.edgeTime line k
  let x := s.trig line
  decide (x.earliest ≤ t) && x.gaps.all fun g => !(decide (g.1 < t) && decide (t ≤ g.2))

/-- Index of the first edge of a line at or after a time, and of the last at or before it, whether generated or not. -/
def State.indexFrom (s : State) (line t : Nat) : Nat := ceilDiv (t - s.fld .SENS_TRIG_TIMING_PHASE line) (max 1 (s.period line))
def State.indexTo (s : State) (line t : Nat) : Option Nat :=
  let ph := s.fld .SENS_TRIG_TIMING_PHASE line
  if t < ph then none else some ((t - ph) / max 1 (s.period line))

/-- The first existing edge at or after index `k`. The fuel bounds the gaps that are passed: a gap once passed lies behind. -/
def State.edgeUp (s : State) (line : Nat) : Nat → Nat → Option Nat
  | 0, _ => none
  | f + 1, k =>
    let x := s.trig line
    let t := s.edgeTime line k
    if t < x.earliest then s.edgeUp line f (s.indexFrom line x.earliest)
    else match x.gaps.find? fun g => decide (g.1 < t) && decide (t ≤ g.2) with
      | some g => s.edgeUp line f (s.indexFrom line (g.2 + 1))
      | none => some k

/-- The last existing edge at or before index `k`. -/
def State.edgeDown (s : State) (line : Nat) : Nat → Nat → Option Nat
  | 0, _ => none
  | f + 1, k =>
    let x := s.trig line
    let t := s.edgeTime line k
    if t < x.earliest then none
    else match x.gaps.find? fun g => decide (g.1 < t) && decide (t ≤ g.2) with
      | some g => (s.indexTo line g.1).bind fun j => s.edgeDown line f j
      | none => some k

/-- Jumps that pass every gap of a line. -/
def State.edgeFuel (s : State) (line : Nat) : Nat := (s.trig line).gaps.length + 2

/-- The existing edge after `lo` (or any, when none) whose time lies nearest to `x`; a tie goes to the earlier edge. -/
def State.nearestEdge (s : State) (line : Nat) (x : Int) (lo : Option Nat) : Option Nat :=
  let k := ((x - (s.fld .SENS_TRIG_TIMING_PHASE line : Nat)) / (max 1 (s.period line) : Nat)).toNat
  let first := match lo with
    | some l => l + 1
    | none => 0
  let f := s.edgeFuel line
  let ok := [s.edgeDown line f k, s.edgeUp line f (max k first), s.edgeUp line f (max (k + 1) first)].filterMap fun e =>
    e.filter fun e => decide (first ≤ e)
  let dist := fun e => ((s.edgeTime line e : Int) - x).natAbs
  match ok with
  | [] => none
  | e :: l => some (l.foldl (fun a b => if dist b < dist a ∨ (dist b = dist a ∧ b < a) then b else a) e)

/-- The `d`-th existing edge after `k`. -/
def State.advanceEdge (s : State) (line : Nat) : Nat → Nat → Option Nat
  | 0, k => some k
  | d + 1, k => (s.edgeUp line (s.edgeFuel line) (k + 1)).bind fun e => s.advanceEdge line d e

/-- The number of existing edges strictly between `a` and `b`. -/
def State.edgesBetween (s : State) (line a b : Nat) : Nat :=
  ((List.range (b - a - 1)).filter fun i => s.edgeExists line (a + 1 + i)).length

/-- How a frame matches: its edge, or the code of a frame-counter failure, with the frames missed before it. -/
inductive Match where
  | edge (k missed : Nat)
  | counter
  | nothing
deriving DecidableEq, Repr

/-- Matching of a frame with reference time `r` and number `fn` (R195). -/
def State.matchFrame (s : State) (n r fn : Nat) : Match :=
  let c := s.ctx n
  let line := s.lineOf n
  let x := (r : Int) - (s.fld .SENS_STREAM_DELAY_EXPECT_DELAY n : Nat)
  if !c.anchored then
    match s.nearestEdge line x none with
    | some k => .edge k 0
    | none => .nothing
  else if s.fld .SENS_STREAM_CTX_FRAME_NUM n = 1 then
    let d := if fn > c.fnPrev then fn - c.fnPrev else fn + 65535 - c.fnPrev
    if fn = 0 ∨ d = 0 ∨ d > 8 ∨ (fn = c.fnPrev) then .counter
    else match s.advanceEdge line d c.kPrev with
      | some k => .edge k (d - 1)
      | none => .nothing
  else
    match s.nearestEdge line x (some c.kPrev) with
    | some k => .edge k (s.edgesBetween line c.kPrev k)
    | none => .nothing

/-- The frame of a context replaced. -/
def State.putFrame (s : State) (n : Nat) (f : Option Frame) : State := s.modCtx n fun c => { c with frame := f }

/-- The frame under way is classed by its reference time (R194 to R196): an edge is matched, δ computed, missed frames
counted, and an out-of-sync or misaligned frame discarded. -/
def State.classFrame (s : State) (n r : Nat) : State :=
  match (s.ctx n).frame with
  | none => s
  | some f =>
    match s.matchFrame n r f.number with
    | .nothing => s.putFrame n (some { f with ref := r, discard := true })
    | .counter => s.putFrame n (some { f with ref := r, failed := some 0x321 })
    | .edge k m =>
      let line := s.lineOf n
      let delta := (r : Int) - ((s.edgeTime line k : Int) + (s.fld .SENS_STREAM_DELAY_EXPECT_DELAY n : Nat))
      let s := s.missed n m
      let s := s.modCtx n fun c => { c with anchored := true, kPrev := k, fnPrev := f.number }
      let f := { f with ref := r, edge := some k, delta := delta }
      if delta.natAbs > s.period line then
        let s := (s.freeFrameSlot n f).putFrame n (some { f with discard := true, slot := none })
        (s.modCtx n Context.notePlausible).setUnsync n
      else if delta.natAbs > s.fld .SENS_STREAM_LIMITS_ALIGN_TOL n * 1000 then
        let s := (s.freeFrameSlot n f).putFrame n (some { f with discard := true, slot := none })
        let s := s.count .SENS_STREAM_FAULTS_MISALIGNED n
        let s := s.setFld .SENS_STREAM_STATUS_LAST_CAUSE 0x324 n
        let s := s.modCtx n fun c => { c.runZero.notePlausible with misaligned := c.misaligned + 1 }
        if 8 ≤ (s.ctx n).misaligned then s.setUnsync n else s
      else (s.putFrame n (some f)).modCtx n fun c => { c with misaligned := 0 }

/-- A frame starts at the present time (R182, R194): one that starts during a re-arm hold is discarded and not counted
(R195); any other takes a slot, and with TS_SRC 0 it is classed at once. -/
def State.startFrame (s : State) (n number : Nat) : State :=
  let c := s.ctx n
  let s := match c.frame with
    | some f => s.freeFrameSlot n f
    | none => s
  let s := s.modCtx n fun c => { c with lastStart := s.now }
  let f : Frame := ⟨s.now, number, none, 0, false, 0, 0, none, none, false, false, none⟩
  if (s.trig (s.lineOf n)).holdEnd.isSome then s.putFrame n (some { f with discard := true })
  else
    let s := match (s.ctx n).take with
      | none => (s.missed n 1).putFrame n (some { f with discard := true })
      | some (k, displaced) =>
        let s := if displaced then s.missed n 1 else s
        let s := s.modCtx n fun c =>
          { c with order := c.order + 1,
                   slots := setAt c.slots k { FrameSlot.zero with phase := .filling, order := c.order + 1 } }
        (s.slotWords n).putFrame n (some { f with slot := some k })
    match (s.ctx n).frame with
    | some f =>
      if f.discard || (s.ctx n).lost || s.fld .SENS_STREAM_CTX_TS_SRC n == 1 then s else s.classFrame n s.now
    | none => s

/-- Payload bytes of the frame under way written into its slot (R180); a frame that needs more than its slot holds fails
with FRAME_OVERFLOW (R178). -/
def State.feedFrame (s : State) (n : Nat) (l : List Byte) (bad : Option Nat) : State :=
  match (s.ctx n).frame with
  | none => s
  | some f =>
    if f.discard then s
    else
      let tooBig := decide (256 + f.bytes + l.length > s.fld .SENS_STREAM_SLOT_SIZE_SIZE n)
      let bad := if tooBig then some 0x323 else bad
      let f' := { f with failed := if f.failed.isSome then f.failed else bad }
      match f.slot, f'.failed with
      | some k, none =>
        let s := s.ownWrite 2 (s.slotAddr n k + 256 + f.bytes) l
        s.putFrame n (some { f' with bytes := f.bytes + l.length })
      | _, _ => s.putFrame n (some f')

/-- The exposure timestamp of the frame under way, from the first line that may hold it (R194, R202): 0 or not later than that of
the previous frame is a failure. -/
def State.stampFrame (s : State) (n : Nat) (l : List Byte) : State :=
  match (s.ctx n).frame with
  | none => s
  | some f =>
    let o := s.fld .SENS_STREAM_TSOFF_TS_OFFSET n
    if f.discard || f.lineSeen || (s.ctx n).lost || s.fld .SENS_STREAM_CTX_TS_SRC n == 0 || l.length < o + 8 then s
    else
      let t := leVal ((l.drop o).take 8)
      let late := decide (t = 0) || decide (t ≤ (s.ctx n).prevExposure)
      let s := s.modCtx n fun c => { c with prevExposure := t }
      let s := s.putFrame n (some { f with exposure := some t, failed := if late && f.failed.isNone then some 0x322 else f.failed })
      if late then s else s.classFrame n t

/-- The first line of the frame under way that may hold its timestamp has come. -/
def State.noteLine (s : State) (n : Nat) : State :=
  match (s.ctx n).frame with
  | some f => s.putFrame n (some { f with lineSeen := true })
  | none => s

/-- The late history of a context with the outcome of instant `i` (R201): the last eight instants in which the stream was
fusable. -/
def Context.noteInstant (c : Context) (i : Nat) (late : Bool) : Context :=
  if c.lateHist.any (·.1 == i) then
    { c with lateHist := c.lateHist.map fun p => if p.1 == i then (i, p.2 || late) else p }
  else { c with lateHist := ((i, late) :: c.lateHist).take 8 }

/-- The late condition evaluated (Table 6.5): set by late frames in 3 of the last 8 instants, cleared by 8 without. -/
def State.evalLate (s : State) (n : Nat) : State :=
  let h := (s.ctx n).lateHist
  let k := (h.filter (·.2)).length
  if 3 ≤ k then s.conds n fun c => { c with late := true }
  else if k = 0 ∧ h.length = 8 then s.conds n fun c => { c with late := false }
  else s

/-- Has instant `i` closed for context `n` (R200)? -/
def State.closed (s : State) (n i : Nat) : Bool :=
  (match (s.ctx n).lastRead with | some r => decide (i ≤ r) | none => false) ||
  (match s.sensing.instant with | some j => decide (i < j) | none => false)

/-- A completed, aligned, plausible frame is offered (R199, R200, R203). -/
def State.offer (s : State) (n : Nat) (f : Frame) : State :=
  match f.slot, f.edge with
  | some k, some e =>
    let i := s.instantOf (s.edgeTime (s.lineOf n) e)
    if !s.fusing || !(s.ctx n).fusable then s.freeFrameSlot n f
    else if s.closed n i then
      let s := s.freeFrameSlot n f
      let s := s.count .SENS_STREAM_LATE_DROPS_COUNT n
      let s := s.tally 0x07 n
      (s.modCtx n fun c => c.noteInstant i true).evalLate n
    else
      let c := s.ctx n
      let x : FrameSlot :=
        ⟨.complete, ((c.slots[k]?).map (·.gen)).getD 0, ((c.slots[k]?).map (·.order)).getD 0, i, e, f.bytes,
         f.number, true, c.missed, f.delta⟩
      let s := s.setCtx n { c with slots := setAt c.slots k x, missed := false }
      if s.sensing.instant = some i then s.makeReady n k else s
  | _, _ => s.freeFrameSlot n f

/-- The frame under way is complete (R194): lost is cleared by it once the link is back (Table 6.5); a discarded frame
ends uncounted; a failed one is a plausibility failure; an aligned one raises RUN and is offered. -/
def State.endFrame (s : State) (n : Nat) : State :=
  match (s.ctx n).frame with
  | none => s
  | some f =>
    let s := s.putFrame n none
    let c := s.ctx n
    if c.lost then
      let s := s.freeFrameSlot n f
      if c.linkUp then s.conds n fun c => { c with lost := false, unsync := true, anchored := false } else s
    else if f.discard then s.freeFrameSlot n f
    else
      let missing := s.fld .SENS_STREAM_CTX_TS_SRC n == 1 && f.exposure.isNone
      match (if f.failed.isSome then f.failed else if missing then some 0x322 else none) with
      | some code => (s.freeFrameSlot n f).plausFail n code
      | none =>
        let s := s.modCtx n fun c => { c.notePlausible with run := min 255 (c.run + 1) }
        let s := if 16 ≤ (s.ctx n).run then
            s.conds n fun c => { c with unsync := false, suspect := c.suspect && c.lowSinceZero }
          else s
        s.offer n f

/-- The lost condition set (Table 6.5): suspect, late and RUN are cleared. -/
def State.setLost (s : State) (n : Nat) : State :=
  let s := match (s.ctx n).frame with
    | some f => (s.freeFrameSlot n f).putFrame n none
    | none => s
  s.conds n fun c => { c with lost := true, suspect := false, late := false, run := 0, lowSinceZero := false }

/-! ## Checks of R184 -/

/-- The data types a context accepts (R176). -/
def acceptsType (dt : Nat) : Bool :=
  [0x2B, 0x2C, 0x2D, 0x2E, 0x1E, 0x1F, 0x12].contains dt || (0x30 ≤ dt && dt ≤ 0x37)

/-- May the driving function use the HBM bytes [a, a + n) (08: all HBM except the spare slots, the retain area and the
regions of open stalls)? -/
def State.drivingHbm (s : State) (a n : Nat) : Bool :=
  decide (a + n ≤ hbmSize) &&
  !touch a n (s.fld .MEM_SPARE_CFG_BASE * 1073741824) (s.fld .MEM_SPARE_CFG_SLOTS * 1073741824) &&
  !touch a n (s.fld .HUB_CFG_RETAIN_BASE_BASE * 4096) (s.fld .HUB_CFG_RETAIN_SIZE_MIB * 1048576) &&
  (List.range 31).all fun k =>
    s.stall (k + 1) == .closed ||
    !touch a n (s.stallBase (k + 1)) (s.stallSize (k + 1))

/-- Two contexts take the same packets (R184). -/
def State.sameSource (s : State) (a b : Nat) : Bool :=
  let eq := fun f => s.fld f a == s.fld f b
  eq .SENS_STREAM_CTX_KIND && eq .SENS_STREAM_CTX_PORT &&
  if s.fld .SENS_STREAM_CTX_KIND a = 0 then eq .SENS_STREAM_CTX_VC && eq .SENS_STREAM_CTX_DT
  else eq .SENS_STREAM_MATCH_VLAN_ID && eq .SENS_STREAM_MATCH_UDP_PORT

/-- Every field of context `n` in its range (R184, "Sensing registers"). -/
def State.ctxInRange (s : State) (n : Nat) : Bool :=
  let kind := s.fld .SENS_STREAM_CTX_KIND n
  let p := s.period (s.lineOf n)
  let size := s.fld .SENS_STREAM_SLOT_SIZE_SIZE n
  (kind == 0 || (s.fld .SENS_STREAM_CTX_FRAME_NUM n == 0 && decide (s.fld .SENS_STREAM_CTX_PORT n ≤ 5))) &&
  (if kind == 0 then s.fld .SENS_STREAM_LIMITS_PKTS_PER_FRAME n == 0
    else decide (1 ≤ s.fld .SENS_STREAM_LIMITS_PKTS_PER_FRAME n)) &&
  decide (1 ≤ s.fld .SENS_STREAM_PARAM_LOST_PERIODS n) &&
  decide (s.fld .SENS_STREAM_DELAY_EXPECT_DELAY n < p) &&
  decide (1 ≤ s.fld .SENS_STREAM_LIMITS_ALIGN_TOL n) && decide (s.fld .SENS_STREAM_LIMITS_ALIGN_TOL n * 1000 < p) &&
  decide (size % 256 = 0) && decide (512 ≤ size) && decide (size ≤ 16777216)

/-- The enable checks of R184, but for the admission evaluation. -/
def State.ctxGood (s : State) (n : Nat) : Bool :=
  s.ctxInRange n &&
  !s.swatch.badPorts.contains (s.fld .SENS_STREAM_CTX_KIND n * 16 + s.fld .SENS_STREAM_CTX_PORT n) &&
  (s.fld .SENS_STREAM_CTX_KIND n == 1 || acceptsType (s.fld .SENS_STREAM_CTX_DT n)) &&
  s.fld .SENS_TRIG_CTRL_ENABLE (s.lineOf n) == 1 &&
  s.drivingHbm (s.fld .SENS_STREAM_SLOT_BASE_BASE n * 4096) (3 * s.fld .SENS_STREAM_SLOT_SIZE_SIZE n) &&
  (List.range 128).all fun m =>
    m == n || !s.ctxOn m || (!s.sameSource n m &&
      s.fld .SENS_STREAM_PARAM_BUFFER_ID m != s.fld .SENS_STREAM_PARAM_BUFFER_ID n)

/-- Does a loaded program declare context `n`'s buffer as inbound (R184)? -/
def State.ctxDeclared (s : State) (n : Nat) : Bool :=
  match s.buffer (s.fld .SENS_STREAM_PARAM_BUFFER_ID n) with
  | some b => b.entry.dir == 0
  | none => false

/-- The sensing source requests the step it computes when that is higher than its request (R209); no record causes it. -/
def State.raiseSensing (s : State) (code : Nat) : State :=
  if s.degrade.req.getD 0 0 < s.sensingStep then s.request 0 s.sensingStep 0 code else s

/-- STREAM_CTX_ENABLE (R184, R185): refused with STREAM_CTX_BAD or MEM_OVERCOMMIT, else the context starts in UNSYNC,
unanchored. -/
def State.ctxEnable (s : State) (ctx : Nat) : State :=
  if s.ctxOn ctx then s
  else if !s.ctxGood ctx then (s.refuse .SENS_STREAM_CTX 0x301 ctx)
  else
    let gen := ((s.buffer (s.fld .SENS_STREAM_PARAM_BUFFER_ID ctx)).map (·.gen)).getD 0
    let t := (s.setFld .SENS_STREAM_CTX_ENABLE 1 ctx).setCtx ctx { Context.zero with lastStart := s.now, gen := gen }
    if t.ctxDeclared ctx && !t.admits then (s.refuse .SENS_STREAM_CTX 0x501 ctx)
    else
      (((t.slotWords ctx).voidNow ctx).recompute).raiseSensing 0x312

/-- STREAM_CTX_ENABLE: the command. -/
def execStreamCtxEnable (ctx : Fin 128) (s : State) : Out := .next (s.ctxEnable ctx)

/-- STREAM_CTX_DISABLE (R209, R211): the context stops, and a sensing step that rises by it is requested at once; STATE reads 2 while ENABLE is 0. Its buffer keeps its generation counter (R55). -/
def State.ctxDisable (s : State) (ctx : Nat) : State :=
  let id := s.fld .SENS_STREAM_PARAM_BUFFER_ID ctx
  let s := match s.buffer id with
    | some b => s.setBuffer id (some { b with gen := (s.ctx ctx).gen })
    | none => s
  let s := (s.setFld .SENS_STREAM_CTX_ENABLE 0 ctx).setCtx ctx Context.zero
  s.recompute.raiseSensing 0x350

/-- STREAM_CTX_DISABLE: the command. -/
def execStreamCtxDisable (ctx : Fin 128) (s : State) : Out := .next (s.ctxDisable ctx)

/-- CLR_FAULTS (R202). -/
def State.clearFaults (s : State) (ctx : Nat) : State :=
  (((s.setFld .SENS_STREAM_FAULTS_MISSED 0 ctx).setFld .SENS_STREAM_FAULTS_MISALIGNED 0 ctx).setFld
    .SENS_STREAM_FAULTS_PLAUS_FAIL 0 ctx)

/-- CLR_FAULTS: the command. -/
def execClrFaults (ctx : Fin 128) (s : State) : Out := .next (s.clearFaults ctx)

/-- CLR_LATE (R200). -/
def execClrLate (ctx : Fin 128) (s : State) : Out := .next (s.setFld .SENS_STREAM_LATE_DROPS_COUNT 0 ctx)

/-! ## Trigger lines -/

/-- The fields of a trigger line in range (R211). -/
def State.triggerGood (s : State) (n : Nat) : Bool :=
  let p := s.period n
  let w := s.fld .SENS_TRIG_CTRL_WIDTH n
  decide (100000 ≤ p) && decide (p ≤ 4000000000) && decide (s.fld .SENS_TRIG_TIMING_PHASE n < p) &&
  decide (10 ≤ w) && decide (w ≤ (p - 100) / 10)

/-- TRIGGER_ENABLE (R191, R211): TRIGGER_BAD, or the line is driven and its first edge lies 1 µs after the write. Edges counted in another
PERIOD or PHASE bar none of the new ones. -/
def State.triggerEnable (s : State) (line : Nat) : State :=
  if s.fld .SENS_TRIG_CTRL_ENABLE line = 1 then s
  else if !s.triggerGood line then (s.refuse .SENS_TRIG_CTRL 0x303 line)
  else
    let t := s.trig line
    let timing := (s.period line, s.fld .SENS_TRIG_TIMING_PHASE line)
    let kept := t.timing == timing
    (s.setFld .SENS_TRIG_CTRL_ENABLE 1 line).setTrig line
      { t with driven := true, earliest := s.now + 1000, gaps := [], timing := timing,
               lastEdge := if kept then t.lastEdge else none, barred := if kept then t.barred else none }

/-- TRIGGER_ENABLE: the command. -/
def execTriggerEnable (line : Fin 32) (s : State) : Out := .next (s.triggerEnable line)

/-- Is an enabled context bound to the line? -/
def State.lineBound (s : State) (line : Nat) : Bool :=
  (List.range 128).any fun n => s.ctxOn n && s.lineOf n == line

/-- TRIGGER_DISABLE (R211): refused with BUSY_CONFIG while an enabled context is bound to the line. -/
def State.triggerDisable (s : State) (line : Nat) : State :=
  if s.fld .SENS_TRIG_CTRL_ENABLE line = 0 then s
  else if s.lineBound line then (s.refuse .SENS_TRIG_CTRL 0x004 line)
  else (s.setFld .SENS_TRIG_CTRL_ENABLE 0 line)

/-- TRIGGER_DISABLE: the command. -/
def execTriggerDisable (line : Fin 32) (s : State) : Out := .next (s.triggerDisable line)

/-- The index of the edge at the present time, if a line has one there (R190). -/
def State.edgeNow (s : State) (line : Nat) : Option Nat :=
  let ph := s.fld .SENS_TRIG_TIMING_PHASE line
  let p := s.period line
  if ph ≤ s.now ∧ p ≠ 0 ∧ (s.now - ph) % p = 0 then some ((s.now - ph) / p) else none

/-- TRIGGER_EDGE (R190 to R193): at t_k an enabled line generates edge k, unless it is suppressed or, after a backward
step, at or below the last edge generated (R192). -/
def execTriggerEdge (line : Fin 32) (s : State) : Out :=
  match s.edgeNow line with
  | none => .next s
  | some k =>
    let t := s.trig line
    let fresh : Bool := match t.barred with | some l => decide (l < k) | none => true
    if s.fld .SENS_TRIG_CTRL_ENABLE line == 1 && s.edgeExists line k && fresh then
      .next (s.setTrig line
        { t with lastEdge := some k, pulseEnd := some (s.now + s.fld .SENS_TRIG_CTRL_WIDTH line * 10) })
    else .next s

/-- TRIGGER_PULSE_END (R190): after WIDTH × 10 ns the line is at its inactive level again. -/
def execTriggerPulseEnd (line : Fin 32) (s : State) : Out :=
  let t := s.trig line
  match t.pulseEnd with
  | some e => if e ≤ s.now then .next (s.setTrig line { t with pulseEnd := none }) else .next s
  | none => .next s

/-- TRIGGER_HOLD_END (R193): at the end of the hold HOLDING clears. -/
def execTriggerHoldEnd (line : Fin 32) (s : State) : Out :=
  let t := s.trig line
  match t.holdEnd with
  | some e =>
    if e ≤ s.now then
      .next ((s.setTrig line { t with holdEnd := none }).setFld .SENS_TRIG_CTRL_HOLDING 0 line)
    else .next s
  | none => .next s

/-! ## Frames -/

/-- The enabled CSI-2 contexts of a port and virtual channel, while sensor ingest is on. -/
def State.csiContexts (s : State) (port vc : Nat) : List Nat :=
  (List.range 128).filter fun n =>
    s.domainOn 32 && s.ctxOn n && s.fld .SENS_STREAM_CTX_KIND n == 0 && s.fld .SENS_STREAM_CTX_PORT n == port &&
    s.fld .SENS_STREAM_CTX_VC n == vc

/-- CSI2_FRAME_START (R194). -/
def execCsi2FrameStart (port vc : Fin 16) (frameNumber : Nat) (s : State) : Out :=
  .next ((s.csiContexts port vc).foldl (fun s n => s.startFrame n (frameNumber % 65536)) s)

/-- CSI2_LONG_PACKET (R180): the payload goes to the contexts of its data type; the first embedded line (0x12) of a frame also carries the
exposure timestamp of the virtual channel's contexts with TS_SRC 1 (R194). An error of R178 or R202 fails the frame of every context of
the virtual channel, whose packet it is (DEDUCED, log 49). -/
def execCsi2LongPacket (port vc : Fin 16) (dt : Nat) (payload : List Byte) (eccOk crcOk fifoOk : Bool) (s : State) :
    Out :=
  let bad := if !fifoOk then some 0x323 else if eccOk && crcOk then none else some 0x320
  .next ((s.csiContexts port vc).foldl (init := s) fun s n =>
    let s := if dt = 0x12 then (if bad.isNone then s.stampFrame n payload else s).noteLine n else s
    if s.fld .SENS_STREAM_CTX_DT n = dt then s.feedFrame n payload bad
    else if bad.isSome then s.feedFrame n [] bad else s)

/-- CSI2_FRAME_END (R194). -/
def execCsi2FrameEnd (port vc : Fin 16) (s : State) : Out :=
  .next ((s.csiContexts port vc).foldl (fun s n => s.endFrame n) s)

/-- The lowest-numbered enabled Ethernet context that takes a packet (R177). -/
def State.ethContext (s : State) (mac vlan port : Nat) : Option Nat :=
  (List.range 128).find? fun n =>
    s.domainOn 32 && s.ctxOn n && s.fld .SENS_STREAM_CTX_KIND n == 1 && s.fld .SENS_STREAM_CTX_PORT n == mac &&
    s.fld .SENS_STREAM_MATCH_VLAN_ID n == vlan && s.fld .SENS_STREAM_MATCH_UDP_PORT n == port

/-- A UDP payload as it stands in a slot (R180): its length, then the bytes, padded to 4. -/
def ethItem (l : List Byte) : List Byte :=
  leBytes 4 l.length ++ l ++ List.replicate ((4 - l.length % 4) % 4) 0

/-- A packet of a frame of an Ethernet context (R194, R202). -/
def State.ethPacket (s : State) (n : Nat) (payload : List Byte) (fcsOk fifoOk : Bool) : State :=
  let s := if (s.ctx n).frame.isNone then s.startFrame n 0 else s
  let first := match (s.ctx n).frame with | some f => f.packets == 0 | none => false
  let bad := if !fifoOk then some 0x323 else if fcsOk then none else some 0x320
  let s := if first then (if bad.isNone then s.stampFrame n payload else s).noteLine n else s
  let s := s.feedFrame n (ethItem payload) bad
  match (s.ctx n).frame with
  | none => s
  | some f =>
    let s := s.putFrame n (some { f with packets := f.packets + 1 })
    if s.fld .SENS_STREAM_LIMITS_PKTS_PER_FRAME n ≤ f.packets + 1 then s.endFrame n else s

/-- The depth of the control cluster's receive queue. PRESUMED (log 8): the manual counts frames discarded because it is
full (NET_MAC_CNT, k = 2) and gives no depth. -/
def clusterDepth : Nat := 256

/-- The length of a received frame, destination address to FCS, tags included (NET_MAC_CFG): its payload, the Ethernet header, a VLAN tag,
the FCS, and for a UDP packet the IP and UDP headers. -/
def frameLength (udp : Bool) (vlan port : Nat) (payload : List Byte) : Nat :=
  payload.length + 18 + (if vlan = 0 then 0 else 4) + (if udp then 8 + max 20 (Config.ipHeader vlan port payload).val else 0)

/-- ETH_PACKET_RX (R177, NET_MAC_CNT): a frame of an enabled MAC is counted; a UDP packet goes to its context, anything
else to the control cluster's queue. An FCS error is counted and, when the packet is one of a frame, fails the frame. -/
def execEthPacketRx (mac : Fin 6) (udp : Bool) (vlan port : Nat) (payload : List Byte) (fcsOk fifoOk : Bool)
    (s : State) : Out :=
  if !s.domainOn 33 ∨ s.fld .NET_MAC_CFG_ENABLE mac = 0 ∨
      frameLength udp vlan port payload > s.fld .NET_MAC_CFG_MAX_FRAME mac then .next s
  else
    let s := s.count .NET_MAC_CNT_COUNT mac (if fcsOk then 0 else 1)
    let target := if udp then s.ethContext mac vlan port else none
    match target with
    | some n => .next (s.ethPacket n payload fcsOk fifoOk)
    | none =>
      if !fcsOk then .next s
      else if s.sensing.clusterQueue.length < clusterDepth then
        .next { s with sensing := { s.sensing with clusterQueue := s.sensing.clusterQueue ++ [(mac.val, payload)] } }
      else .next (s.count .NET_MAC_CNT_COUNT mac 2)

/-- The enabled contexts of a sensor port. -/
def State.portContexts (s : State) (p : SensorPort) : List Nat :=
  let (kind, i) := match p with
    | .csi q => (0, q.val)
    | .mac m => (1, m.val)
  (List.range 128).filter fun n =>
    s.ctxOn n && s.fld .SENS_STREAM_CTX_KIND n == kind && s.fld .SENS_STREAM_CTX_PORT n == i

/-- The LINK bit of a MAC follows its PHY. -/
def State.portLink (s : State) (p : SensorPort) (up : Nat) : State :=
  match p with
  | .csi _ => s
  | .mac m => s.setFld .NET_MAC_CFG_LINK up m

/-- SENSOR_LINK_LOST (R201): the lost condition of the port's contexts is set. -/
def execSensorLinkLost (port : SensorPort) (s : State) : Out :=
  let l := s.portContexts port
  let s := s.portLink port 0
  .next (l.foldl (fun s n => (s.modCtx n fun c => { c with linkUp := false }).setLost n) s)

/-- SENSOR_LINK_RESTORED (R201): the next frame that completes clears lost. -/
def execSensorLinkRestored (port : SensorPort) (s : State) : Out :=
  let l := s.portContexts port
  let s := s.portLink port 1
  .next (l.foldl (fun s n => s.modCtx n fun c => { c with linkUp := true }) s)

/-- STREAM_LOST_TIMEOUT (R201): no frame start for LOST_PERIODS × PERIOD after the last one. -/
def execStreamLostTimeout (ctx : Fin 128) (s : State) : Out :=
  let n := ctx.val
  let c := s.ctx n
  if s.ctxOn n ∧ !c.lost ∧
      c.lastStart + s.fld .SENS_STREAM_PARAM_LOST_PERIODS n * s.period (s.lineOf n) ≤ s.now then
    .next (s.setLost n)
  else .next s

/-! ## Fusion -/

/-- A context without what instants of an earlier numbering left it: items that wait or are ready, its last read, its late history. -/
def Context.forget (c : Context) : Context :=
  { c with lastRead := none, lateHist := [], slots := c.slots.map fun x =>
      if x.phase == .ready || x.phase == .complete then { x with phase := SlotPhase.free } else x }

/-- What instants of an earlier numbering left behind is given up: items, reads, masks and the instant of the inputs (R197, R199 to R201,
R205, R206). -/
def State.clearInstants (s : State) : State :=
  let held := s.sensing.contexts.filter fun e => e.2.slots.any (·.phase == .ready)
  let contexts := s.sensing.contexts.map fun e => (e.1, e.2.forget)
  let s := { s with sensing := { s.sensing with contexts := contexts } }
  let s := held.foldl (fun s e => if s.ctxOn e.1 then s.slotWords e.1 else s) s
  { s with sensing := { s.sensing with instant := none, fused := [], excluded := [], readInstant := none } }

/-- FUSION_ENABLE (R197): instants, reads by instant and releases start. -/
def State.fusionEnable (s : State) : State :=
  let s := s.clearInstants
  { s.setFld .SENS_FUSION_CFG_ENABLE 1 with
    sensing := { s.sensing with instant := s.instantAt s.now } }

/-- FUSION_ENABLE: the command. -/
def execFusionEnable (s : State) : Out := .next (s.fusionEnable)

/-- At T_i an unread ready item of an earlier instant is dropped; the complete frames of instant i of a fusable stream become ready, the
older first, and an excluded context's give way to a void record (R199, R203). -/
def State.instantCtx (i : Nat) (s : State) (n : Nat) : State :=
  if !s.ctxOn n then s
  else
    let c := s.ctx n
    let gone := fun (x : FrameSlot) => (x.phase == .ready && decide (x.instant < i)) ||
      (x.phase == .complete && (decide (x.instant < i) || (x.instant == i && !c.fusable)))
    let s := s.setCtx n { c with slots := c.slots.map fun x => if gone x then { x with phase := SlotPhase.free } else x }
    let s := s.slotWords n
    let slot := fun (k : Nat) => (s.ctx n).slots.getD k FrameSlot.zero
    let due := ((List.range 3).filter fun k => (slot k).phase == .complete && (slot k).instant == i).mergeSort fun a b =>
      decide ((slot a).order ≤ (slot b).order)
    let s := due.foldl (fun s k => s.makeReady n k) s
    if (s.ctx n).fusable then
      if i = 0 then s else (s.modCtx n fun c => c.noteInstant (i - 1) false).evalLate n
    else s.makeVoid n i

/-- FUSION_INSTANT (R197, R199): the instant of the present time becomes current. -/
def execFusionInstant (s : State) : Out :=
  match s.instantAt s.now with
  | none => .next s
  | some i =>
    let later := match s.sensing.instant with | some j => decide (j < i) | none => true
    if s.fusing && later then
      .next ((List.range 128).foldl (State.instantCtx i)
        { s with sensing := { s.sensing with instant := some i } })
    else .next s

/-- The instant that a booked read reads for at present (R198): none before T_0, or while fusion is off. -/
def State.readFor (s : State) : Option Nat := if s.fusing then s.instantAt s.now else none

/-- The ready item of a stream-backed buffer taken by a booked read (R182, R198): the slot it took, its generation and
whether it is fresh. -/
def State.streamRead (s : State) (n : Nat) : Option Nat × Nat × Bool × State :=
  let c := s.ctx n
  let held := c.slots.findIdx? (·.phase == .held)
  let heldGen := match held with | some k => ((c.slots[k]?).map (·.gen)).getD 0 | none => 0
  match s.readFor with
  | none => (held, heldGen, false, s)
  | some i =>
    let first := match c.lastRead with | some r => decide (r < i) | none => true
    let excl := if c.fusable then s.sensing.excluded else (i, n) :: s.sensing.excluded
    let s := { s with sensing := { s.sensing with excluded := excl, readInstant := some i } }
    match (if first then c.slots.findIdx? (fun x => x.phase == .ready && x.instant == i) else none) with
    | none => (held, heldGen, false, s.modCtx n fun c => { c with lastRead := some i })
    | some k =>
      let x := (c.slots[k]?).getD FrameSlot.zero
      let slots := c.slots.map fun y => if y.phase == .held then { y with phase := SlotPhase.free } else y
      let s := s.setCtx n { c with lastRead := some i, slots := setAt slots k { x with phase := .held } }
      let s := if x.fuse then { s with sensing := { s.sensing with fused := (i, n) :: s.sensing.fused } } else s
      (some k, x.gen, true, s.slotWords n)

/-- A mask of the contexts listed for instant `i` (Table 6.7). -/
def maskOf (l : List (Nat × Nat)) (i : Nat) : Nat :=
  ((List.range 128).filter fun n => l.contains (i, n)).foldl (fun m n => m + 2 ^ n) 0

/-- The fused-result header (Table 6.7). -/
def State.fusedHeader (s : State) (i seq payload : Nat) (agreed : Bool) : List Byte :=
  leBytes 4 0x52535546 ++ leBytes 2 1 ++ leBytes 2 128 ++ leBytes 8 s.now ++ leBytes 8 i ++ leBytes 6 seq ++
  leBytes 1 s.degrade.step ++ leBytes 1 s.timeBase.state ++ leBytes 16 (maskOf s.sensing.fused i) ++
  leBytes 16 (maskOf s.sensing.excluded i) ++ leBytes 2 (s.fld .SENS_FUSION_GRID_WIDTH) ++
  leBytes 2 (s.fld .SENS_FUSION_GRID_HEIGHT) ++ leBytes 2 (s.fld .SENS_FUSION_GRID_CHANNELS) ++
  leBytes 1 (s.fld .SENS_FUSION_GRID_FORMAT) ++ leBytes 1 0 ++ leBytes 4 (s.fld .SENS_FUSION_GRID_CELL_PITCH) ++
  leBytes 4 payload ++ leBytes 4 (if agreed then 1 else 0) ++ List.replicate 44 0

/-- A half that the hub die may use: ready, with its verdict in (R35, R205). -/
def Half.usable (h : Half) : Bool := h.ready && !h.pendingVerdict && !h.invalid

/-- One consistency score applied (R205, Table 6.5): below the threshold at 3 consecutive releases sets suspect; one applied while RUN is 0 does
not count as applied since RUN was last 0. -/
def State.applyScore (s : State) (n score : Nat) : State :=
  let thr := s.fld .SENS_STREAM_PARAM_CONSIST_THR n
  let s := s.modCtx n fun c => { c with score := score }
  if thr = 0 ∨ score ≥ thr then s.modCtx n fun c => { c with lowScores := 0 }
  else
    let s := s.setFld .SENS_STREAM_STATUS_LAST_CAUSE 0x325 n
    let s := s.modCtx n fun c => { c with lowScores := c.lowScores + 1, lowSinceZero := c.lowSinceZero || c.run != 0 }
    if 3 ≤ (s.ctx n).lowScores then s.conds n fun c => { c with suspect := true } else s

/-- The consistency scores of a release for instant `i` (R205). -/
def State.applyScores (s : State) (i : Nat) : State :=
  if s.fld .SENS_FUSION_CFG_CONSIST_EN = 0 then s
  else
    let id := s.fld .SENS_FUSION_CFG_CONSIST_BUF
    let half := match s.buffer id with
      | some b => match b.newest with
        | some h => if ((b.halves[h]?).map Half.usable).getD false then some (b, h) else none
        | none => none
      | none => none
    match half with
    | none => s.tally 0x0D 0
    | some (b, h) =>
      let bytes := s.devRead (b.halfAddr h) 256
      let s := s.clearReady id h
      (List.range 128).foldl (init := s) fun s n =>
        if s.sensing.fused.contains (i, n) && s.ctxOn n then s.applyScore n (leVal ((bytes.drop (2 * n)).take 2))
        else s

/-- The sensing request lowers at a release once a lower value has stood for HOLD fusion periods (R209). -/
def State.lowerSensing (s : State) : State :=
  match s.sensing.lowerSince with
  | some (v, t) =>
    if t + s.fld .SENS_DEGRADE_CFG_HOLD * s.fld .SENS_FUSION_PERIOD_PERIOD ≤ s.now ∧ s.mayLower then s.lower 0 v 0 else s
  | none => s

/-- FUSED_RESULT_RELEASE (R205 to R209): the newest half of RESULT_BUF that is complete and agreed gets its header. -/
def execFusedResultRelease (s : State) : Out :=
  let id := s.fld .SENS_FUSION_CFG_RESULT_BUF
  if !s.fusing then .next s
  else match s.buffer id with
    | none => .next s
    | some b => match b.newest with
      | none => .next s
      | some h =>
        let x := (b.halves[h]?).getD Half.zero
        if !x.usable || b.entry.dir == 0 || x.released then .next s
        else
          let i := (if x.instant.isSome then x.instant else s.sensing.instant).getD 0
          let (q, s) := s.stamp
          let s := s.devWrite (b.halfAddr h) (s.fusedHeader i q (x.bytes - 128) x.agreed)
          let s := s.putHalf id h { x with released := true }
          let s := { s with sensing := { s.sensing with released := some (i, s.now) } }
          .next ((s.applyScores i).lowerSensing)

end Sys2Proof.Machine
end

