-- ==== Sys2Proof/Machine/Host.lean ====
section
/-!
DEFINITION. Machine/Host.lean: the host interface (09): the link, rings and doorbells, the start and completion of
descriptors, NOP, KNOT, COPY and MARK, and MSI-X.
-/

namespace Sys2Proof.Machine

/-! ## Rings -/

/-- Entries of a ring (RING_CFG). -/
def State.entries (s : State) (fn ring : Nat) : Nat := 2 ^ s.fld .RING_CFG_LOG2_ENTRIES fn ring

/-- The last vector a ring of a function may use (R291, R325). -/
def lastVector (fn : Nat) : Nat := if fn = 0 then 255 else 55

/-- What stopping leaves of the descriptors of a ring (R290): those started run to their end without a record, those not
started are discarded. -/
def Ring.stop (r : Ring) (code : Nat) : Ring :=
  { r with phase := .stopped, lastError := if code = 0 then r.lastError else code,
           descs := (r.descs.filter fun x => x.started || x.orphan).map fun x => { x with orphan := true } }

/-- A ring stopped by an error: RING_STATUS shows the code, which is logged at severity 2 (R294, R296). -/
def State.stopRing (s : State) (fn ring code : Nat) : State :=
  (s.setRing fn ring ((s.ring fn ring).stop code)).report code 2

/-- Every ring of a function stopped (R290). -/
def State.stopRings (s : State) (fn : Nat) : State :=
  let all := (List.range 256).map fun n => (ringKey fn n, (s.ring fn n).stop 0)
  let others := fun (g : Nat → Bool) => s.host.rings.filter fun e => g (e.1 / 256)
  { s with host := { s.host with rings := others (· < fn) ++ all ++ others (fn < ·) } }

/-- Does a started descriptor of a stopped ring of a function still run (FLR_BUSY)? -/
def State.orphans (s : State) (fn : Nat) : Bool :=
  s.host.rings.any fun e => e.1 / 256 == fn && e.2.descs.any (·.orphan)

/-- An FLR of a function acts on its rings (R290). -/
def State.flr (s : State) (fn : Nat) : State :=
  let s := s.stopRings fn
  if s.orphans fn then { s with host := { s.host with flrBusy := fn :: s.host.flrBusy.erase fn } } else s

/-- A link that is up goes down (R289, R290): every PF ring stops; the driving function goes on. -/
def State.dropLink (s : State) : State :=
  if s.host.linkUp then
    let s := { s with host := { s.host with
      linkUp := false, downCount := satAdd 65535 s.host.downCount 1, speed := 0, width := 0 } }
    (s.stopRings 0).report 0x640 (if s.inDrive then 2 else 1)
  else s

/-- PCIE_LINK_DOWN (R289, R290). -/
def execPcieLinkDown (s : State) : Out := .next s.dropLink

/-- PF_FLR (R290). -/
def execPfFlr (s : State) : Out := .next (s.flr 0)

/-- RING_ENABLE (R292): the checks of RING_CFG; a ring that passes becomes ACTIVE with its heads at 0. -/
def State.ringEnable (s : State) (fn ring : Nat) : State :=
  let r := s.ring fn ring
  if r.phase ≠ .disabled then s.refuseAt fn (Reg.offsetIn fn .RING_CFG fn ring) 0x004
  else
    let log := s.fld .RING_CFG_LOG2_ENTRIES fn ring
    let vec := s.fld .RING_CFG_VECTOR fn ring
    if s.fld .RING_SQ_BASE_BASE fn ring = 0 ∨ s.fld .RING_CQ_BASE_BASE fn ring = 0 ∨ log < 6 ∨ 16 < log ∨ vec = 0 ∨
        lastVector fn < vec then
      (s.setRing fn ring { r with lastError := 0x602 }).refuseAt fn (Reg.offsetIn fn .RING_CFG fn ring) 0x602
    else
      (s.setFld .RING_CFG_ENABLE 1 fn ring).setRing fn ring
        { r with phase := .active, head := 0, tail := 0, completed := 0, consumed := 0, fetched := 0, badSince := [],
                 unsignalled := 0, firstUnsignalled := none }

/-- RING_ENABLE (R292). -/
def execRingEnable (fn : Fin 32) (ring : Fin 256) (s : State) : Out := .next (s.ringEnable fn ring)

/-- A draining ring with nothing left becomes DISABLED (R292). -/
def Ring.settle (r : Ring) : Ring :=
  if r.phase = .draining ∧ (r.descs.filter fun x => !x.orphan).isEmpty then { r with phase := .disabled } else r

/-- ENABLE = 0 (R292): an ACTIVE ring drains, its descriptors not started completing with RING_DRAINED; a STOPPED one is
DISABLED at once. -/
def State.ringDisable (s : State) (fn ring : Nat) : State :=
  let r := s.ring fn ring
  let s := if r.phase = .disabled then s else s.setFld .RING_CFG_ENABLE 0 fn ring
  match r.phase with
  | .active =>
    s.setRing fn ring ({ r with phase := .draining, descs := r.descs.map fun (x : Desc) =>
      if x.started || x.orphan then x else { x with started := true, done := some (0x606, 0, 0) } }).settle
  | .stopped => s.setRing fn ring { r with phase := .disabled }
  | _ => s

/-- RING_DISABLE (R292). -/
def execRingDisable (fn : Fin 32) (ring : Fin 256) (s : State) : Out := .next (s.ringDisable fn ring)

/-- DB_SQ_TAIL (R293, R294): a doorbell of an ACTIVE or a DRAINING ring; one that is bad stops the ring. -/
def execDbSqTail (fn : Fin 32) (ring : Fin 256) (tail : Nat) (s : State) : Out :=
  let r := s.ring fn ring
  let e := s.entries fn ring
  if r.phase ≠ .active ∧ r.phase ≠ .draining then .next s
  else if e ≤ tail ∨ (tail + e - r.head) % e < (r.tail + e - r.head) % e then .next (s.stopRing fn ring 0x603)
  else .next (s.setRing fn ring { r with tail := tail })

/-- DB_CQ_HEAD (R294, R297): records consumed; a write that would pass a record not yet written is bad. -/
def execDbCqHead (fn : Fin 32) (ring : Fin 256) (head : Nat) (s : State) : Out :=
  let r := s.ring fn ring
  let e := s.entries fn ring
  let adv := (head + e - r.consumed % e) % e
  if r.phase ≠ .active ∧ r.phase ≠ .draining then .next s
  else if e ≤ head ∨ r.completed < r.consumed + adv then .next (s.stopRing fn ring 0x603)
  else .next (s.setRing fn ring { r with consumed := r.consumed + adv })

/-! ## Fetch -/

/-- May a ring's next descriptor be fetched (R296)? -/
def State.canFetch (s : State) (key : Nat) : Bool :=
  let r := Tbl.get Ring.zero s.host.rings key
  let e := s.entries (key / 256) (key % 256)
  r.phase = .active && r.head != r.tail && decide (r.fetched + 1 < r.consumed + e) &&
    decide ((r.descs.filter fun x => !x.orphan).length < 64) && s.host.linkUp

/-- The ring whose turn it is: the first after the one served last that may fetch (R296). -/
def State.turn (s : State) : Option Nat :=
  let keys := s.host.rings.map (·.1)
  ((keys.filter fun k => decide (s.host.lastServed < k)) ++ keys.filter fun k => decide (k ≤ s.host.lastServed)).find?
    s.canFetch

/-- A descriptor fetched (R295, R298, R324): copied, the fetch head shown and written back; a header wait beyond the limit
of pending waits ends it. -/
def State.fetchDesc (s : State) (fn ring : Nat) : State :=
  let r := s.ring fn ring
  let e := s.entries fn ring
  let bytes := s.hostRead (s.fld .RING_SQ_BASE_BASE fn ring * 4096 + 64 * r.head) 64
  let x : Desc := { slot := r.head, order := s.host.descSeq, bytes := bytes, started := false, orphan := false,
                    refused := false, done := none, holds := none, waits := none, met := false }
  let x := { x with met := x.flag 2 && reached (s.marker (x.val 2 2 % 8192)) (x.val 8 4) }
  let x := if s.headerWaits x && decide (4096 ≤ s.waitsPending) then
      { x with started := true, done := some (0x632, 1, 0) } else x
  let head := (r.head + 1) % e
  let s := s.setRing fn ring { r with head := head, fetched := r.fetched + 1, descs := r.descs ++ [x] }
  let s := { s with host := { s.host with lastServed := ringKey fn ring, descSeq := s.host.descSeq + 1 } }
  if s.fld .RING_HEAD_WB_EN fn ring = 1 then s.hostWrite (s.fld .RING_HEAD_WB_ADDR fn ring * 4) (leBytes 4 head) else s

/-- DESC_FETCH (R296): the ring whose turn it is fetches its next descriptor; a read error stops it. -/
def execDescFetch (fn : Fin 32) (ring : Fin 256) (read : HostRead) (s : State) : Out :=
  if s.turn = some (ringKey fn ring) then
    match read with
    | .error => .next (s.stopRing fn ring 0x604)
    | .ok => .next (s.fetchDesc fn ring)
  else .next s

/-! ## The start of a descriptor (R298, R299, R314 to R316) -/

/-- The function that owns a marker (R320). -/
def State.markerOwner (s : State) (m : Nat) : Nat := s.fld .HUB_CFG_MARKER_OWNER_FUNCTION (m / 64)

/-- Do a descriptor's knots let it start (R314, R315)? -/
def State.knotFree (s : State) (t : Ticket) (x : Desc) : Bool :=
  let before := (Tbl.get Ring.zero s.host.rings t.ring).descs.filter fun y => !y.orphan && decide (y.order < x.order)
  if x.val 0 1 = 3 || x.flag 0 then before.isEmpty else before.all fun y => y.val 0 1 != 3

/-- The bytes of a body that Tables 9.5 to 9.10 give to a field, as (offset, length). -/
def bodyFields (type : Nat) : List (Nat × Nat) :=
  match type with
  | 1 => [(16, 24)]
  | 2 => [(16, 2), (20, 24)]
  | 4 => [(16, 1), (18, 10), (32, 8)]
  | 5 => [(16, 3), (24, 8)]
  | 6 => [(16, 3), (24, 8)]
  | 7 => [(16, 24)]
  | 8 => [(16, 2), (24, 16)]
  | _ => []

/-- Every byte of the body outside its fields is 0. -/
def Desc.reservedZero (x : Desc) : Bool :=
  (List.range 48).all fun i =>
    (bodyFields (x.val 0 1)).any (fun f => decide (f.1 ≤ 16 + i) && decide (16 + i < f.1 + f.2)) ||
      x.val (16 + i) 1 == 0

/-- The fields of the body lie in their ranges (Tables 9.5 to 9.10), for a descriptor of function `fn`. -/
def Desc.inRange (x : Desc) (fn : Nat) : Bool :=
  let op := x.val 16 1
  match x.val 0 1 with
  | 1 =>
    decide (op ≤ 3) && decide (x.val 17 1 ≤ 15) && decide (x.val 19 1 ≤ 1) &&
    (op != 0 || x.val 24 8 % 256 == 0) &&
    (op != 1 || ((decide (x.val 18 1 ≤ 63) || x.val 18 1 == 255) &&
      (x.val 22 2 == 65535 || decide (x.val 22 2 < 8192))))
  | 2 =>
    decide (op ≤ 3) && decide (x.val 17 1 ≤ 2) && x.val 20 4 != 0 &&
    (op != 2 || decide (x.val 24 8 < 1024)) && (x.val 17 1 != 2 || decide (x.val 32 8 < 1024))
  | 4 =>
    decide (op ≤ 5) && decide (x.val 18 2 < 8192) && (op != 5 || (decide (1 ≤ x.val 20 4) && decide (x.val 20 4 ≤ 65535))) &&
    (op != 4 || x.val 32 8 % 4 == 0)
  | 5 => fn == 0 && decide (op ≤ 1) && (op != 0 || decide (x.val 17 1 < 8)) &&
    (decide (x.val 18 1 ≤ 15) || x.val 18 1 == 255)
  | 6 => fn == 0 && decide (op ≤ 1) && (op != 0 || decide (x.val 17 1 < 8)) &&
    (decide (x.val 18 1 ≤ 15) || x.val 18 1 == 255)
  | 7 => decide (1 ≤ op) && decide (op ≤ 10) && ((op != 3 && op != 6) || decide (x.val 17 1 ≤ 7)) &&
    decide (x.val 18 2 ≤ 255)
  | 8 => decide (op ≤ 1) && (if fn = 0 then decide (1 ≤ x.val 17 1) && decide (x.val 17 1 ≤ 31) else x.val 17 1 == 0) &&
    x.val 24 8 % 4096 == 0
  | t => t == 0 || t == 3

/-- The markers a descriptor names in its header and body (R320). -/
def Desc.markers (x : Desc) : List Nat :=
  (if x.flag 2 then [x.val 2 2] else []) ++ (if x.flag 3 || x.flag 4 then [x.val 12 2] else []) ++
  (if x.val 0 1 = 4 then [x.val 18 2] else []) ++
  (if x.val 0 1 = 1 ∧ x.val 16 1 = 1 ∧ x.val 22 2 ≠ 65535 then [x.val 22 2] else [])

/-- The check of R299: the code it fails with, if it does. -/
def State.descCheck (s : State) (fn : Nat) (x : Desc) : Option Nat :=
  let signals := x.flag 3 || x.flag 4
  if x.flag 6 || x.flag 7 || decide (8192 ≤ x.val 2 2) || decide (8192 ≤ x.val 12 2) || (signals && x.val 14 2 == 0) ||
      !x.reservedZero || !x.inRange fn then some 0x601
  else if x.markers.any fun m => s.markerOwner m != fn then some 0x630
  else none

/-- Is a COPY into a stall's region held by its checkpoint (R476)? -/
def State.copyHeld (s : State) (fn : Nat) (x : Desc) : Bool :=
  fn != 0 && x.val 0 1 == 2 && x.val 17 1 == 1 && s.ckptHolds fn

/-- A descriptor of the kind `kind` starts when R298, R314 and R315 let it, and passes the checks of R316 and R299 before
its effect `k` is applied; EXEC, COPY, PAGE and CHECKPOINT of a stall that is not OPEN end with NM_STALL_BAD (R465). Otherwise
nothing happens. -/
def State.begin (s : State) (d : DescRef) (kind : Desc → Bool) (k : State → Ticket → Desc → State) : State :=
  match s.desc d with
  | none => s
  | some x =>
    let t := ticketOf d x
    let r := s.ring d.fn d.ring
    if x.started || !kind x || r.phase != .active || !s.knotFree t x || s.headerWaits x || s.copyHeld d.fn x then s
    else
      let s := s.modTicket t fun x => { x with started := true }
      let checks := x.flag 5 && (x.val 0 1 == 3 || x.flag 0)
      let s := if checks then s.setRing d.fn d.ring { s.ring d.fn d.ring with badSince := [] } else s
      if checks && r.badSince.any fun o => decide (o < x.order) then s.finish t 0x610 0 0
      else match s.descCheck d.fn x with
        | some code => (s.modTicket t fun x => { x with refused := true }).finish t code 0 0
        | none =>
          if s.stallBars d.fn && [1, 2, 7, 8].contains (x.val 0 1) then s.finish t 0xC02 0 0 else k s t x

/-- Is the descriptor of type `t` with op `op`? -/
def isOp (t op : Nat) (x : Desc) : Bool := x.val 0 1 == t && x.val 16 1 == op

/-- NOP (R300); a descriptor of an unknown type ends here with DESC_BAD. -/
def execNop (d : DescRef) (s : State) : Out :=
  .next (s.begin d (fun x => x.val 0 1 == 0 || decide (8 < x.val 0 1)) fun s t _ => s.finish t 0 0 0)

/-- KNOT (R315). -/
def execKnot (d : DescRef) (s : State) : Out :=
  .next (s.begin d (fun x => x.val 0 1 == 3) fun s t _ => s.finish t 0 0 0)

/-! ## COPY (R308 to R310) -/

/-- The bytes of a fill: an 8-byte pattern repeated (Table 9.6). -/
def fillBytes (pattern n : Nat) : List Byte :=
  (List.range n).map fun i => BitVec.ofNat 8 (pattern / 2 ^ (8 * (i % 8)))

/-- Where the bytes of a COPY come from: a table and an address, or a pattern. -/
inductive Source where
  | table (t : Tbl Byte) (a : Nat)
  | pattern (p : Nat)

/-- `n` bytes of a source put into a table at `b`. -/
def Source.into (src : Source) (dst : Tbl Byte) (b n : Nat) : Tbl Byte :=
  match src with
  | .table t a => copyBytes t a dst b n
  | .pattern p => if p = 0 then zeroBytes dst b n else writeBytes dst b (fillBytes p n)

/-- The fabric's producer side of a COPY into an inbound buffer (R308): the code of a bad target, or the half filled. -/
def State.copyInbound (s : State) (fn : Nat) (src : Source) (id off n : Nat) : State × Nat :=
  match s.buffer id with
  | none => (s, 0x620)
  | some b =>
    if b.entry.dir ≠ 0 ∨ (s.backing id).isSome ∨ b.entry.size < off + n ∨ (fn ≠ 0 ∧ b.fn ≠ fn) then (s, 0x620)
    else
      let k := b.freeHalf
      let s := s.clearReady id k
      let s := { s with mem := src.into s.mem (b.halfAddr k + off) n }
      (s.fillHalf id k fun h => h, 0)

/-- The tile that a COPY has written holds its data (R406). -/
def State.markCopied (s : State) (a : Nat) : State :=
  match regionOf a with
  | .tile d t =>
    if s.fabric.copied.contains (d, t) then s
    else { s with fabric := { s.fabric with copied := s.fabric.copied ++ [(d, t)] } }
  | _ => s

/-- The bytes of a COPY put in their place (Table 9.6), with the status and severity of the outcome. -/
def State.copyTo (s : State) (fn : Nat) (src : Source) (x : Desc) : State × Nat × Nat :=
  let n := x.val 20 4
  let dst := x.val 32 8
  match x.val 17 1 with
  | 0 => ({ s with hostMem := src.into s.hostMem dst n }, 0, 0)
  | 1 =>
    if s.writeOk 1 fn dst n then
      let a := s.devAddr fn dst
      (State.markCopied (({ s with mem := src.into s.mem a n }).unpoison a n) a, 0, 0)
    else (s.badAddress 1 fn dst, 0x504, 1)
  | _ =>
    let (s, code) := s.copyInbound fn src dst (x.val 40 4) n
    (s, code, 0)

/-- What a COPY had written when its host read failed (R310): a free number of its first bytes; a half that it was filling stays not ready. -/
def State.copyPart (s : State) (fn : Nat) (x : Desc) : State :=
  let (k, s) := s.free 32
  let n := k % x.val 20 4
  let dst := x.val 32 8
  let src := x.val 24 8
  match x.val 17 1 with
  | 0 => { s with hostMem := copyBytes s.hostMem src s.hostMem dst n }
  | 1 =>
    if s.writeOk 1 fn dst (x.val 20 4) then
      let a := s.devAddr fn dst
      let s := { s with mem := copyBytes s.hostMem src s.mem a n }
      if n = 0 then s else s.markCopied a
    else s
  | _ =>
    let off := x.val 40 4
    match s.buffer dst with
    | none => s
    | some b =>
      if b.entry.dir ≠ 0 ∨ (s.backing dst).isSome ∨ b.entry.size < off + x.val 20 4 ∨ (fn ≠ 0 ∧ b.fn ≠ fn) then s
      else
        let s := s.clearReady dst b.freeHalf
        { s with mem := copyBytes s.hostMem src s.mem (b.halfAddr b.freeHalf + off) n }

/-- A COPY whose source is not a handover buffer (R310): a host read that fails ends it with COPY_HOST_ERROR; a device
read of R243 with MEM_BAD_ADDRESS, one of poisoned data with MEM_UE and nothing written (R247, log 111). -/
def State.copyFrom (s : State) (fn : Nat) (read : HostRead) (t : Ticket) (x : Desc) : State :=
  let n := x.val 20 4
  let src := x.val 24 8
  let go := fun (s : State) (p : Source) =>
    let (s, code, sev) := s.copyTo fn p x
    s.finish t code sev 0
  match x.val 16 1 with
  | 0 => if read = .error then (s.copyPart fn x).finish t 0x622 1 0 else go s (.table s.hostMem src)
  | 1 =>
    if s.accessOk 1 fn src n then
      let a := s.devAddr fn src
      if s.poisonedIn a n then (s.regionFault a).finish t 0x510 2 0 else go s (.table s.mem a)
    else (s.badAddress 1 fn src).finish t 0x504 1 0
  | _ => go s (.pattern src)

/-- The device addresses that a COPY reads and writes. -/
def State.copyAddrs (s : State) (fn : Nat) (x : Desc) : List Nat :=
  let half := fun (id : Nat) => ((s.buffer id).map fun b => b.halfAddr 0).toList
  (match x.val 16 1 with
    | 1 => [s.devAddr fn (x.val 24 8)]
    | 2 => half (x.val 24 8)
    | _ => []) ++
  match x.val 17 1 with
    | 1 => [s.devAddr fn (x.val 32 8)]
    | 2 => half (x.val 32 8)
    | _ => []

/-- The regulation that a COPY runs under (R310, Table 9.2): the tokens of its device accesses, in the partition of master 1 or the stall's
sub-partition; none while they, or the memory, are wanting. -/
def State.copyTokens (s : State) (fn : Nat) (x : Desc) : Option State :=
  let n := x.val 20 4
  let l := s.copyAddrs fn x
  if l.all fun a => s.memoryUp a n then (if l.isEmpty then some s else s.chargeBulk 1 fn (l.length * n)) else none

/-- A COPY starts once its regulation lets it move its bytes. -/
def State.beginCopy (s : State) (d : DescRef) (kind : Desc → Bool) (k : State → Ticket → Desc → State) : State :=
  s.begin d (fun x => x.val 0 1 == 2 && kind x) fun t c x => match t.copyTokens d.fn x with
    | some t => k t c x
    | none => s

/-- COPY (R310): host, device or fill into host or device memory. -/
def execCopy (d : DescRef) (read : HostRead) (s : State) : Out :=
  .next (s.beginCopy d (fun x => x.val 16 1 != 2 && x.val 17 1 != 2) fun s t x => s.copyFrom d.fn read t x)

/-- COPY_TO_INBOUND (R308). -/
def execCopyToInbound (d : DescRef) (read : HostRead) (s : State) : Out :=
  .next (s.beginCopy d (fun x => x.val 16 1 != 2 && x.val 17 1 == 2) fun s t x => s.copyFrom d.fn read t x)

/-- The newest ready half taken by a COPY (R309): its ready bit clears as the copy starts and the copy holds it to its
end. -/
def State.takeHalf (s : State) (fn : Nat) (t : Ticket) (x : Desc) (b : Buffer) (k : Nat) : State :=
  let id := x.val 24 8
  let s := s.clearReady id k
  let s := match s.buffer id with
    | some b => s.putHalf id k { (b.halves[k]?).getD Half.zero with ready := false, held := true }
    | none => s
  let s := s.modTicket t fun x => { x with holds := some (id, k), waits := none }
  let (s, code, sev) := s.copyTo fn (.table s.mem (b.halfAddr k + x.val 40 4)) x
  s.finish t code sev 0

/-- A COPY from an outbound buffer (R309, R342): with no ready half it ends, with a gauge-pending half it waits. -/
def State.copyOut (s : State) (fn : Nat) (t : Ticket) (x : Desc) : State :=
  let id := x.val 24 8
  match s.buffer id with
  | none => s.finish t 0x620 0 0
  | some b =>
    if b.entry.dir ≠ 1 ∨ b.entry.size < x.val 40 4 + x.val 20 4 ∨ (fn ≠ 0 ∧ b.fn ≠ fn) then s.finish t 0x620 0 0
    else match b.newest with
      | none => s.finish t 0x621 0 0
      | some k =>
        if ((b.halves[k]?).getD Half.zero).pendingVerdict then s.modTicket t fun x => { x with waits := some (id, k) }
        else s.takeHalf fn t x b k

/-- The half that a COPY waits for, once its verdict has come (R342). -/
def State.halfSettled (s : State) (x : Desc) : Option (Buffer × Nat) :=
  match x.waits with
  | none => none
  | some (id, k) =>
    match s.buffer id with
    | none => none
    | some b => if x.done.isSome ∨ ((b.halves[k]?).getD Half.zero).pendingVerdict then none else some (b, k)

/-- COPY_FROM_OUTBOUND (R309): goes on with a copy whose verdict has come, or starts one. -/
def execCopyFromOutbound (d : DescRef) (s : State) : Out :=
  match s.startedDesc d fun x => (s.halfSettled x).isSome with
  | some x =>
    match s.halfSettled x with
    | some (b, k) => .next (s.takeHalf d.fn (ticketOf d x) x b k)
    | none => .next s
  | none => .next (s.beginCopy d (fun x => x.val 16 1 == 2) fun s t x => s.copyOut d.fn t x)

/-! ## MARK (R319 to R324) -/

/-- ADD; a MARK of an unknown op ends here with DESC_BAD. -/
def execAdd (d : DescRef) (s : State) : Out :=
  .next (s.begin d (fun x => isOp 4 0 x || (x.val 0 1 == 4 && decide (5 < x.val 16 1))) fun s t x =>
    (s.addMarker (x.val 18 2) (x.val 20 4)).finish t 0 0 0)

/-- SET. -/
def execSet (d : DescRef) (s : State) : Out :=
  .next (s.begin d (isOp 4 1) fun s t x => (s.setMarker (x.val 18 2) (x.val 20 4)).finish t 0 0 0)

/-- READ: the value to host memory as 4 bytes (R312: info 4). -/
def execRead (d : DescRef) (s : State) : Out :=
  .next (s.begin d (isOp 4 4) fun s t x =>
    (s.hostWrite (x.val 32 8) (leBytes 4 (s.marker (x.val 18 2)))).finish t 0 0 4)

/-- A wait of a MARK joins the waits of its marker (R322, R324), with a time-out of `timeout` µs unless it is 0. -/
def State.addWait (s : State) (t : Ticket) (m kind threshold timeout : Nat) : State :=
  let w : MarkWait := ⟨t, m, kind, threshold, if timeout = 0 then none else some (s.now + timeout * 1000)⟩
  { s with host := { s.host with waits := s.host.waits ++ [w] } }

/-- Is there room for one more pending wait (R324)? -/
def State.waitRoom (s : State) : Bool := decide (s.waitsPending < 4096)

/-- WAIT (R322): met at once, or pending. -/
def execWait (d : DescRef) (s : State) : Out :=
  .next (s.begin d (isOp 4 2) fun s t x =>
    if reached (s.marker (x.val 18 2)) (x.val 20 4) then s.finish t 0 0 1
    else if s.waitRoom then s.addWait t (x.val 18 2) 0 (x.val 20 4) (x.val 24 4)
    else s.finish t 0x632 1 0)

/-- TAKE (R322): served at once when no TAKE waits and the marker has reached the threshold, else last in the order. -/
def execTake (d : DescRef) (s : State) : Out :=
  .next (s.begin d (isOp 4 3) fun s t x =>
    let m := x.val 18 2
    let v := x.val 20 4
    if !(s.host.waits.any fun w => w.marker == m && w.kind == 1) && reached (s.marker m) v then
      (s.setMarker m (s.marker m + 4294967296 - v)).finish t 0 0 1
    else if s.waitRoom then s.addWait t m 1 v (x.val 24 4)
    else s.finish t 0x632 1 0)

/-- ARRIVE (R323, R324): adds 1, giving w, then waits for the next multiple of the participants. The `w` of the target
is the sum before it is reduced to 32 bits, so an ARRIVE at 0xFFFFFFFF is out of range (DEDUCED, log 86). -/
def execMarkArrive (d : DescRef) (s : State) : Out :=
  .next (s.begin d (isOp 4 5) fun s t x =>
    let m := x.val 18 2
    let w := s.marker m + 1
    let target := alignUp w (x.val 20 4)
    if 0xFFFFFFFF < target then s.finish t 0x633 0 0
    else if reached w target then (s.addMarker m 1).finish t 0 0 1
    else if s.waitRoom then (s.addMarker m 1).addWait t m 2 target (x.val 24 4)
    else s.finish t 0x632 1 0)

/-- Has the time-out of a wait expired? -/
def State.expired (s : State) (w : MarkWait) : Bool :=
  match w.expires with
  | some e => decide (e ≤ s.now)
  | none => false

/-- MARKER_TIMEOUT (R324): a wait whose time-out has expired ends; an ARRIVE stays counted. The later TAKEs that it held are served if they
can be (R322). -/
def execMarkerTimeout (d : DescRef) (s : State) : Out :=
  match s.startedDesc d fun x => s.host.waits.any fun w => w.desc == ticketOf d x && s.expired w with
  | none => .next s
  | some x =>
    match s.host.waits.find? fun w => w.desc == ticketOf d x && s.expired w with
    | none => .next s
    | some w =>
      let s := { s with host := { s.host with waits := s.host.waits.erase w } }
      .next ((s.finish w.desc 0x631 1 0).wakeWaits w.marker)

/-! ## Completion and MSI-X (R297, R300, R326) -/

/-- The message of a vector is sent: it covers every unsignalled completion of every ring that shares it (R326). -/
def State.signalVector (s : State) (fn v : Nat) : State :=
  let s := s.sendMsix fn v
  let shares := fun (e : Nat × Ring) => e.1 / 256 == fn && s.fld .RING_CFG_VECTOR fn (e.1 % 256) == v
  let clear := fun (e : Nat × Ring) => (e.1, { e.2 with unsignalled := 0, firstUnsignalled := none })
  let rings := s.host.rings.map fun e => if shares e then clear e else e
  { s with host := { s.host with rings := rings } }

/-- A ring requests its vector for a completion with IRQ set (R326). -/
def State.requestIrq (s : State) (fn ring : Nat) : State :=
  let r := s.ring fn ring
  let n := r.unsignalled + 1
  if s.fld .RING_IRQ_COALESCE_COUNT fn ring ≤ n then
    s.signalVector fn (s.fld .RING_CFG_VECTOR fn ring)
  else s.setRing fn ring { r with unsignalled := n, firstUnsignalled := some (r.firstUnsignalled.getD s.now) }

/-- The completion record (Table 9.11) written to its slot (R297). -/
def State.writeRecord (s : State) (fn ring : Nat) (x : Desc) (status sev info : Nat) : State :=
  let r := s.ring fn ring
  let e := s.entries fn ring
  let phase := if r.completed / e % 2 = 0 then 1 else 0
  let (q, s) := s.stamp
  let s := s.hostWrite (s.fld .RING_CQ_BASE_BASE fn ring * 4096 + 16 * (r.completed % e))
    (leBytes 4 (x.val 4 4) ++ leBytes 2 x.slot ++ leBytes 2 (status % 4096 + sev % 4 * 4096 + phase * 32768) ++
      leBytes 6 q ++ leBytes 2 (min info 65535))
  s.setRing fn ring { s.ring fn ring with completed := r.completed + 1 }

/-- The half a COPY held is free again (R309). -/
def State.releaseHeld (s : State) (x : Desc) : State :=
  match x.holds with
  | none => s
  | some (id, k) =>
    match s.buffer id with
    | none => s
    | some b => s.putHalf id k { (b.halves[k]?).getD Half.zero with held := false }

/-- Step 1 of R300. -/
def State.signal (s : State) (fn : Nat) (x : Desc) (status : Nat) : State :=
  let m := x.val 12 2
  if !x.refused && ((x.flag 3 && status == 0) || x.flag 4) && decide (m < 8192) && s.markerOwner m == fn then
    s.addMarker m (x.val 14 2)
  else s

/-- A descriptor leaves its ring. -/
def State.dropDesc (s : State) (t : Ticket) : State :=
  let r := Tbl.get Ring.zero s.host.rings t.ring
  let r := { r with descs := r.descs.filter fun x => x.order != t.order }
  { s with host := { s.host with rings := Tbl.set Ring.zero s.host.rings t.ring r } }

/-- The checkpoint of a stall ends with its completion (R476). -/
def State.ckptDone (s : State) (t : Ticket) : State :=
  let stalls := s.stalls.map fun e =>
    if e.2.ckpt.any fun c => c.desc == t then (e.1, { e.2 with ckpt := none }) else e
  { s with stalls := stalls }

/-- DESC_COMPLETE (R300): the signal, the completion record, then the MSI-X request; a descriptor of a stopped ring gets no
record (R290). -/
def execDescComplete (d : DescRef) (s : State) : Out :=
  let l := (s.ring d.fn d.ring).descs.filter fun x => x.slot == d.slot && x.done.isSome
  match (l.find? fun x => !x.orphan).or l.head? with
  | none => .next s
  | some x =>
    match x.done with
    | none => .next s
    | some (status, sev, info) =>
      let s := (s.releaseHeld x).signal d.fn x status
      let s := (s.dropDesc (ticketOf d x)).ckptDone (ticketOf d x)
      if x.orphan then
        if s.orphans d.fn then .next s
        else .next { s with host := { s.host with flrBusy := s.host.flrBusy.erase d.fn.val } }
      else
        let s := s.writeRecord d.fn d.ring x status sev info
        let r := s.ring d.fn d.ring
        let s := s.setRing d.fn d.ring ({ r with badSince := if status = 0 then r.badSince else r.badSince ++ [x.order] }).settle
        if x.flag 1 then .next (s.requestIrq d.fn d.ring) else .next s

/-- MSIX_COALESCE_TIMEOUT (R326). -/
def execMsixCoalesceTimeout (fn : Fin 32) (vector : Nat) (s : State) : Out :=
  let due := s.host.rings.any fun e =>
    e.1 / 256 == fn.val && s.fld .RING_CFG_VECTOR fn (e.1 % 256) == vector &&
    s.fld .RING_IRQ_COALESCE_TIME fn (e.1 % 256) != 0 &&
    (match e.2.firstUnsignalled with
      | some t => decide (t + s.fld .RING_IRQ_COALESCE_TIME fn (e.1 % 256) * 1000 ≤ s.now)
      | none => false)
  if due then .next (s.signalVector fn vector) else .next s

end Sys2Proof.Machine
end

