-- ==== Sys2Proof/Machine/Container.lean ====
section
/-!
DEFINITION. Machine/Container.lean: the program container as bytes: its tables, ALT substitution (R46) and checks 1 to 5, 7
and 8 of Table 2.7.
-/

namespace Sys2Proof.Machine

/-! ## Header and section table (Tables 2.2 to 2.4) -/

/-- Check 1 of Table 2.7. -/
def headerOk (c : List Byte) : Bool :=
  let period := fieldAt c 32 8
  decide (128 ≤ c.length) && fieldAt c 0 4 == 0x50484C46 && fieldAt c 4 2 == 1 && fieldAt c 6 2 == 128 &&
  fieldAt c 12 4 == 0x8A6 && decide (1 ≤ fieldAt c 16 2) && decide (fieldAt c 16 2 ≤ 4096) &&
  decide (1 ≤ fieldAt c 40 4) && decide (fieldAt c 40 4 ≤ 65535) && decide (fieldAt c 44 4 ≤ 1024) &&
  bit (fieldAt c 18 2) 1 == (period != 0) &&
  (period == 0 || (period % 8192 == 0 && decide (fieldAt c 24 8 ≤ period)))

/-- Offset of entry `i` of the section table. -/
def entryAt (c : List Byte) (i : Nat) : Nat := fieldAt c 48 8 + 32 * i

/-- The content of section `i`. -/
def sectionBytes (c : List Byte) (i : Nat) : List Byte :=
  slice c (fieldAt c (entryAt c i + 8) 8) (fieldAt c (entryAt c i + 16) 8)

/-- The sections_digest of a container (Table 2.2). -/
def containerDigest (c : List Byte) : List Byte :=
  let n := fieldAt c 16 2
  shake256 (slice c 0 64 ++ slice c (fieldAt c 48 8) (32 * n) ++ (List.range n).flatMap (sectionBytes c)) 32

/-- Header and entry sizes of the table sections (Tables 2.5, 2.6, 8.2, 3.10, 10.1, 10.2, 4.2). -/
def tableShape (kind : Nat) : Option (Nat × Nat) :=
  match kind with
  | 2 => some (0, 64) | 3 => some (0, 32) | 4 => some (16, 48) | 6 => some (16, 96) | 7 => some (32, 32)
  | 8 => some (16, 128) | _ => none

/-- The outlier lists that the QUANT_PARAMS section `b` names lie within it (Table 3.9). -/
def listsInside (b : List Byte) : Bool :=
  (List.range (fieldAt b 0 4)).all fun i =>
    let o := fieldAt b (16 + 96 * i + 44) 4
    o == 0 || (decide (o + 8 ≤ b.length) && decide (o + 8 + 2 * fieldAt b o 2 ≤ b.length))

/-- Does a table section hold its header and exactly its entries, or at least them for QUANT_PARAMS? -/
def tableSize (kind : Nat) (b : List Byte) : Bool :=
  match tableShape kind with
  | none => true
  | some (h, e) =>
    if h = 0 then b.length % e == 0
    else if kind = 6 then decide (16 + 96 * fieldAt b 0 4 ≤ b.length) && listsInside b
    else decide (h ≤ b.length) && h + e * fieldAt b 0 4 == b.length

/-- Check 3 of Table 2.7 for section `i`. -/
def sectionOk (c : List Byte) (i : Nat) : Bool :=
  let o := entryAt c i
  let kind := fieldAt c o 2
  let die := fieldAt c (o + 2) 1
  let tile := fieldAt c (o + 3) 1
  let off := fieldAt c (o + 8) 8
  let alt := bit (fieldAt c (o + 4) 4) 0
  decide (1 ≤ kind) && decide (kind ≤ 8) && off % 256 == 0 && decide (off + fieldAt c (o + 16) 8 ≤ c.length) &&
  (kind != 1 || (decide (die ≤ 5) && decide (tile ≤ 39))) &&
  ((tableShape kind).isNone || (die == 255 && tile == 255 && tableSize kind (sectionBytes c i) &&
    (alt || !(List.range i).any fun j =>
      fieldAt c (entryAt c j) 2 == kind && !bit (fieldAt c (entryAt c j + 4) 4) 0)))

/-- Check 3 of Table 2.7. DESIGN CHOICE (log 102): the table asks that the sections lie within the container; the model also refuses, with
the same code, an offset that is not the multiple of 64 (section table) or 256 (section) that Tables 2.3 and 2.4 call for. -/
def sectionsOk (c : List Byte) : Bool :=
  fieldAt c 48 8 % 64 == 0 && decide (fieldAt c 48 8 + 32 * fieldAt c 16 2 ≤ c.length) &&
  (List.range (fieldAt c 16 2)).all (sectionOk c)

/-- Section `i` of a container. -/
def sectionOf (c : List Byte) (i : Nat) : Section :=
  let o := entryAt c i
  { kind := fieldAt c o 2, die := fieldAt c (o + 2) 1, tile := fieldAt c (o + 3) 1,
    alt := bit (fieldAt c (o + 4) 4) 0, condKind := fieldAt c (o + 26) 2, condMask := fieldAt c (o + 24) 2,
    bytes := sectionBytes c i }

/-! ## ALT substitution (R46) -/

/-- The absent compute dies, as a mask. -/
def State.absent (s : State) : Nat :=
  (List.range 6).foldl (fun m d => if s.fabric.dieOn.getD d false then m else m + 2 ^ d) 0

/-- The dies that ring link `n` joins: CDn and CD((n + 1) mod 6). -/
def linkDies (n : Nat) : List Nat := [n, (n + 1) % 6]

/-- The cut ring links, as a mask: a link that touches an absent die is neither cut nor intact. -/
def State.cutLinks (s : State) : Nat :=
  (List.range 6).foldl (init := 0) fun m n =>
    if bit s.fabric.cut n && (linkDies n).all fun d => s.fabric.dieOn.getD d false then m + 2 ^ n else m

/-- Does the condition of an ALT section match (R46)? -/
def Section.matching (x : Section) (absent cut : Nat) : Bool :=
  x.alt && ((x.condKind == 1 && x.condMask == absent && cut == 0) || (x.condKind == 2 && x.condMask == cut && absent == 0))

/-- The sections in effect (R46). -/
def substitute (l : List Section) (absent cut : Nat) : List Section :=
  l.filter fun x =>
    if x.alt then x.matching absent cut else !l.any fun y => y.kind == x.kind && y.matching absent cut

/-! ## The tables -/

/-- The runs of `n` bytes of a table after its header of `h` bytes. -/
def entriesOf (h n : Nat) (b : List Byte) : List (List Byte) :=
  (List.range ((b.length - h) / n)).map fun i => slice b (h + n * i) n

/-- A command table entry (Table 2.5). -/
def commandOf (e : List Byte) : Command :=
  let f := fieldAt e 4 4
  let masks := fieldAt e 32 30
  { id := fieldAt e 0 4, safety := bit f 0, wideRerun := bit f 1, rerunEntry := bit f 2, start := fieldAt e 8 8,
    commit := fieldAt e 16 8, decision := fieldAt e 24 8,
    tiles := (List.range 6).map fun d => bits masks (40 * d + 39) (40 * d), watch := fieldAt e 62 2 }

/-- A handover table entry (Table 2.6). -/
def handoverOf (e : List Byte) : Handover :=
  { bufId := fieldAt e 0 2, dir := fieldAt e 2 1, policy := fieldAt e 3 1, size := fieldAt e 4 4,
    hubOffset := fieldAt e 8 4, cmd := fieldAt e 12 4, booked := fieldAt e 16 8, tallySource := fieldAt e 24 4 }

/-- A window booking entry (Table 8.2). -/
def windowOf (altRing : Bool) (e : List Byte) : Window :=
  { cmd := fieldAt e 0 4, die := fieldAt e 4 1, dir := fieldAt e 5 1, target := fieldAt e 6 1, tile := fieldAt e 7 1,
    beat := fieldAt e 8 8, size := fieldAt e 16 4, tileOff := fieldAt e 20 4, addr := fieldAt e 24 8,
    altRing := altRing }

/-- The outlier list at offset `o` of a QUANT_PARAMS section (Table 3.9). -/
def outliersOf (sec : List Byte) (o : Nat) : Option (Nat × Nat × List Nat) :=
  if o = 0 then none
  else
    let n := fieldAt sec o 2
    some (n, fieldAt sec (o + 4) 4, (List.range n).map fun i => fieldAt sec (o + 8 + 2 * i) 2)

/-- A QUANT_PARAMS entry (Table 3.10) of the section `sec`. -/
def quantOf (sec e : List Byte) : Quant :=
  { cmd := fieldAt e 0 4, flags := fieldAt e 4 4, act := fieldAt e 8 1, wgt := fieldAt e 9 1, out := fieldAt e 10 1,
    rerun := fieldAt e 11 1, group := fieldAt e 12 1, src := fieldAt e 13 1, threshold := fieldAt e 14 2,
    actTensor := fieldAt e 16 4, wgtTensor := fieldAt e 20 4, outInv := fieldAt e 24 4, k := fieldAt e 28 4,
    outChannels := fieldAt e 32 4, actOff := fieldAt e 36 4, wgtOff := fieldAt e 40 4, statsOff := fieldAt e 48 4,
    groupStatsOff := fieldAt e 52 4, outScaleOff := fieldAt e 56 4, outGroup := fieldAt e 60 1,
    rerunGroup := fieldAt e 61 1, rerunActTensor := fieldAt e 64 4, rerunWgtTensor := fieldAt e 68 4,
    rerunActOff := fieldAt e 72 4, rerunWgtOff := fieldAt e 76 4, outliers := outliersOf sec (fieldAt e 44 4) }

/-- An ENGINE_PROGRAM entry (Table 4.2). -/
def engineOf (e : List Byte) : Engine :=
  let u := fun o => fieldAt e o 1
  let w := fun o => fieldAt e o 2
  { cmd := fieldAt e 0 4, kind := u 4, mode := u 5, inFmt := u 6, outFmt := u 7, inW := w 8, inH := w 10, inC := w 12,
    outC := w 14, kw := u 16, kh := u 17, sx := u 18, sy := u 19, dx := u 20, dy := u 21, pad := u 22, flags := u 23,
    pl := w 24, pr := w 26, pt := w 28, pb := w 30, padValue := fieldAt e 32 4, outW := w 36, outH := w 38, rows := u 40,
    slice := w 42, outInv := fieldAt e 44 4, srcKind := u 55, src := fieldAt e 48 7, dst := fieldAt e 56 8,
    start := fieldAt e 64 8, stop := fieldAt e 72 8, auxKind := u 87, aux := fieldAt e 80 7,
    auxEntries := fieldAt e 88 4, gridW := w 92, gridH := w 94, black := (List.range 4).map fun i => w (96 + 2 * i),
    gain := (List.range 4).map fun i => w (104 + 2 * i), bias := fieldAt e 112 4, raw := e }

/-- An agreement entry (Table 10.2). -/
def agreeOf (e : List Byte) : Agree :=
  { cmd := fieldAt e 0 4, die := fieldAt e 4 1, tile := fieldAt e 5 1, off := fieldAt e 8 4, size := fieldAt e 12 4,
    beat := fieldAt e 16 8, firstUse := fieldAt e 24 8 }

/-- The entries of every section of one kind. -/
def tableOf {α : Type} (l : List Section) (kind h n : Nat) (f : Section → List Byte → α) : List α :=
  l.flatMap fun x => if x.kind = kind then (entriesOf h n x.bytes).map (f x) else []

/-- A program built from a container's header and the sections in effect. -/
def programOf (c : List Byte) (secs : List Section) (fn slot order : Nat) : Program :=
  let fl := fieldAt c 18 2
  let windows := tableOf secs 4 16 48 fun x e => windowOf (x.alt && x.condKind == 2) e
  let pair := secs.find? fun x => x.kind == 7
  let pairB := (pair.map (·.bytes)).getD []
  { fn := fn, slot := slot, order := order, safety := bit fl 0, periodic := bit fl 1, stochastic := bit fl 2,
    hasRerun := bit fl 3, pairMask := fieldAt c 21 1, iterBeats := fieldAt c 24 8, period := fieldAt c 32 8,
    seed := fieldAt c 56 8, digest := slice c 64 32, container := c, begun := 0, tail := [], doomed := false,
    commands := tableOf secs 2 0 64 fun _ e => commandOf e, handovers := tableOf secs 3 0 32 fun _ e => handoverOf e,
    windows := windows, sections := secs,
    markers := secs.flatMap fun x => if x.kind = 1 then Config.patternMarkers x.bytes else [],
    relay := windows.any fun w => w.target == 3, retained := false, running := none, split := 0, changes := [],
    warm := [], agreeRun := 0, agreedSinceStart := false,
    quants := secs.flatMap fun x =>
      if x.kind = 6 then (List.range (fieldAt x.bytes 0 4)).map fun i => quantOf x.bytes (slice x.bytes (16 + 96 * i) 96)
      else [],
    engines := tableOf secs 8 16 128 fun _ e => engineOf e, agrees := tableOf secs 7 32 32 fun _ e => agreeOf e,
    warmupIters := fieldAt pairB 6 2, mirrorDelta := fieldAt pairB 8 8, powerShed := false }

/-! ## Dies and links in use (check 5) -/

/-- Does the program use ring link `n` (R46)? -/
def Program.usesLink (p : Program) (n absent cut : Nat) : Bool :=
  (linkDies n).all p.usesDie &&
  !p.sections.any fun x => x.condKind == 2 && x.matching absent cut && bit x.condMask n

/-- Check 5: every die and link in use is present and intact. -/
def State.placeable (s : State) (p : Program) : Bool :=
  (List.range 6).all (fun d => !p.usesDie d || s.fabric.dieOn.getD d false) &&
  (List.range 6).all fun n => !(p.usesLink n s.absent s.cutLinks && bit s.cutLinks n)

/-! ## Checks 7 and 8 -/

/-- Do two commands hold a tile over overlapping spans (R59)? -/
def Command.clash (a b : Command) : Bool :=
  decide (a.start < b.commit) && decide (b.start < a.commit) &&
  (List.zipWith (fun x y => decide (x &&& y ≠ 0)) a.tiles b.tiles).any fun x => x

/-- No element is in the relation `r` with a later one. -/
def pairwise {α : Type} (r : α → α → Bool) : List α → Bool
  | [] => true
  | a :: l => l.all (fun b => !r a b) && pairwise r l

/-- Bytes of hub SRAM that a handover entry occupies (R521). -/
def State.hubBytes (s : State) (h : Handover) : Nat := if (s.backing h.bufId).isSome then 256 else 2 * (256 + h.size)

/-- Do two entries share a buffer_id or overlap in hub SRAM? -/
def State.hubClash (s : State) (a b : Handover) : Bool :=
  a.bufId == b.bufId ||
  (decide (a.hubOffset < b.hubOffset + s.hubBytes b) && decide (b.hubOffset < a.hubOffset + s.hubBytes a))

/-- A handover entry lies in the ranges of Table 2.6. -/
def Program.handoverOk (p : Program) (h : Handover) : Bool :=
  (p.command h.cmd).isSome && decide (h.dir ≤ 1) && (if h.dir = 0 then decide (h.policy ≤ 2) else h.policy == 0) &&
  decide (h.bufId ≤ 1023) && h.size % 256 == 0 && decide (h.size ≤ 16777216) && h.hubOffset % 256 == 0

/-- Check 7 of Table 2.7. -/
def State.check7 (s : State) (p : Program) : Bool :=
  pairwise Command.clash p.commands &&
  ([2, 3, 4, 6, 7, 8].all fun k => decide ((p.sections.filter fun x => x.kind == k).length ≤ 1)) &&
  p.commands.length == fieldAt p.container 40 4 && p.handovers.length == fieldAt p.container 44 4 &&
  p.handovers.all p.handoverOk && pairwise s.hubClash p.handovers

/-- Check 8 of Table 2.7. -/
def State.check8 (s : State) (p : Program) : Bool :=
  s.programs.all fun q => p.handovers.all fun h => q.handovers.all fun g => !s.hubClash h g

end Sys2Proof.Machine
end

