-- ==== Sys2Proof/Machine/SectionChecks.lean ====
section
/-!
DEFINITION. Machine/SectionChecks.lean: the section checks of a load: R103, R122, R183, R251, R332 and R394, and the case of
R468.
-/

namespace Sys2Proof.Machine

/-- The first element, in section order, for which `bad` holds given the elements before it (R45). -/
def firstBad {α : Type} (bad : List α → α → Bool) : List α → List α → Option α
  | _, [] => none
  | seen, a :: l => if bad seen a then some a else firstBad bad (seen ++ [a]) l

/-! ## QUANT_PARAMS (R103) -/

/-- Elements of a group size code (Table 3.10). -/
def groupLen (code : Nat) : Nat := if code = 1 then 32 else if code = 2 then 64 else if code = 3 then 128 else 0

/-- How wide a format ranks (Table 3.11). -/
def widthRank (fmt : Nat) : Nat := if fmt = 4 then 0 else if fmt = 3 then 2 else 1

/-- Is an outlier list valid under Table 3.9? -/
def outliersOk (k : Nat) (o : Option (Nat × Nat × List Nat)) : Bool :=
  match o with
  | none => false
  | some (n, off, l) =>
    decide (1 ≤ n) && decide (n ≤ min 256 (k / 32)) && off % 256 == 0 && l.all (fun c => decide (c < k)) &&
      pairwise (fun a b => decide (b ≤ a)) l

/-- Is the activation wide on arrival: BF16 or FP32? -/
def Quant.wide (q : Quant) : Bool := q.src == 3 || q.src == 5

/-- The re-run of a command with WIDE_RERUN is one of Table 3.11. DESIGN CHOICE (log 122): a rerun_group_size or out_group_size code above 3, which
Table 3.10 does not have, is loaded and taken as ungrouped. -/
def Quant.rerunOk (q : Quant) : Bool :=
  decide (q.rerun ≤ 4) && decide (widthRank q.act < widthRank q.rerun) && macPair q.rerun q.rerun &&
    (q.rerun != 3 || q.rerunGroup == 0) && q.wide

/-- Does an entry keep every rule of Table 3.11? -/
def Program.quantOk (p : Program) (seen : List Quant) (q : Quant) : Bool :=
  match p.command q.cmd with
  | none => false
  | some c =>
    !seen.any (fun x => x.cmd == q.cmd) && macPair q.act q.wgt && (q.act != 3 || q.group == 0) &&
    decide (1 ≤ q.k) && decide (q.k ≤ 65536) && decide (q.group ≤ 3) && (q.group == 0 || q.k % groupLen q.group == 0) &&
    (if c.wideRerun then q.rerunOk else q.rerun == 255) &&
    (!bit q.flags 0 || (q.wide && outliersOk q.k q.outliers)) &&
    (!bit q.flags 1 || (decide (q.out ≤ 3) && p.stochastic && !p.safety && !c.safety))

/-- R103: the command_id of the first entry that breaks a rule. -/
def Program.badQuant (p : Program) : Option Nat :=
  (firstBad (fun seen q => !p.quantOk seen q) [] p.quants).map (·.cmd)

/-! ## ENGINE_PROGRAM (R122) -/

/-- Bits of one pixel integer of a stem input (Table 4.4). -/
def pixelBits (code : Nat) : Nat :=
  if code = 0x10 ∨ code = 0x15 then 10 else if code = 0x11 then 12 else if code = 0x12 then 14
  else if code = 0x14 then 8 else 16

/-- Channels formed at half width, from phases (codes 0x10 to 0x15)? -/
def halved (code : Nat) : Bool := decide (0x10 ≤ code) && decide (code ≤ 0x15)

/-- Is the engine a stem engine that reads pixels? -/
def Engine.first (e : Engine) : Bool := e.kind == 0 && e.mode == 0

/-- Width of the image a convolution reads: formed pixels for pixel codes 0x10 to 0x15 (R123). -/
def Engine.width (e : Engine) : Nat := if e.first && halved e.inFmt then e.inW / 2 else e.inW

/-- Its height: half for a Bayer input (R123). -/
def Engine.height (e : Engine) : Nat := if e.first && decide (0x10 ≤ e.inFmt) && decide (e.inFmt ≤ 0x13) then e.inH / 2 else e.inH

/-- Effective extents of a kernel (04). -/
def Engine.ex (e : Engine) : Nat := e.dx * (e.kw - 1) + 1
def Engine.ey (e : Engine) : Nat := e.dy * (e.kh - 1) + 1

/-- Is the mode a resampling mode of the stripe engine? -/
def Engine.resamples (e : Engine) : Bool := e.kind == 1 && (e.mode == 4 || e.mode == 5)

/-- Is the mode a pooling mode of the stripe engine? -/
def Engine.pools (e : Engine) : Bool := e.kind == 1 && (e.mode == 2 || e.mode == 3)

/-- Bytes of `n` elements of a format, rounded up. -/
def fmtBytes (fmt n : Nat) : Nat := ceilDiv (n * fmtBits fmt) 8

/-- Bits of an input element of a job. -/
def Engine.inBits (e : Engine) : Nat := if e.first then pixelBits e.inFmt else fmtBits e.inFmt

/-- The least span of a job (Table 4.1). -/
def Engine.minSpan (e : Engine) : Nat :=
  let out := e.outW * e.outH
  let input := ceilDiv (e.inW * e.inH * e.inC * fmtBits e.inFmt) 2048
  if e.kind = 0 then 32 + ceilDiv e.auxEntries 256 + ceilDiv (out * e.outC * e.kh * e.kw * e.inC) 1024
  else if e.kind = 2 then 32 + e.auxEntries * ceilDiv e.inC 64
  else if e.mode ≤ 1 then 32 + ceilDiv (out * e.kh * e.kw * e.inC * fmtBits e.inFmt) 2048
  else if e.mode ≤ 3 then 32 + max input (ceilDiv (out * e.inC * e.kh * e.kw) 256)
  else if e.mode = 4 then 32 + max input (ceilDiv (out * e.inC) 128)
  else 32 + max input (ceilDiv (out * e.inC) 64)

/-- R127 in one direction: the size an output has. -/
def convOut (n padA padB ext stride : Nat) : Option Nat :=
  if n + padA + padB < ext ∨ stride = 0 then none else some ((n + padA + padB - ext) / stride + 1)

/-- The value `x` lies in a..b. -/
def within (a b x : Nat) : Bool := decide (a ≤ x) && decide (x ≤ b)

/-- Is a format one of the five that stem, pooling and the other engines write? -/
def plainFmt (f : Nat) : Bool := f == 0 || f == 1 || f == 2 || f == 3 || f == 5

/-- The limit tables of the stem engine (Tables 4.4, 4.5, R125). -/
def Engine.stemOk (e : Engine) : Bool :=
  plainFmt e.outFmt && decide (e.auxEntries ≤ 262144) && e.dx == 1 && e.dy == 1 &&
  (if e.mode = 0 then
    within 0x10 0x17 e.inFmt && within 1 16 e.inC && within 1 128 e.outC && within 1 7 e.kw && within 1 7 e.kh &&
    within 1 4 e.sx && within 1 4 e.sy && (!halved e.inFmt || (e.inC == 4 && e.inW % 2 == 0)) &&
    (!within 0x10 0x13 e.inFmt || e.inH % 2 == 0)
  else
    (e.inFmt == 3 || e.inFmt == 5) && e.srcKind == 0 && within 1 512 e.inC && within 1 16 e.outC && within 1 3 e.kw &&
    within 1 3 e.kh && e.sx == 1 && e.sy == 1)

/-- The limit tables of the stripe engine (Tables 4.6, 4.8, 4.9, R131, R139). A feed's out_format is one of the six formats too: 0xFF is
refused (log 21). -/
def Engine.stripeOk (e : Engine) : Bool :=
  decide (e.inFmt ≤ 5) && decide (e.outFmt ≤ 5) && decide (1 ≤ e.inC) && decide (1 ≤ e.slice) && e.inC % e.slice == 0 &&
  (if e.mode = 1 then
    within 1 9 e.kw && within 1 9 e.kh && within 1 4 e.sx && within 1 4 e.sy &&
      (e.inFmt == 0 || e.inFmt == 3 || e.inFmt == 5)
  else if e.mode = 0 then true
  else if e.mode ≤ 3 then
    e.dx == 1 && e.dy == 1 && plainFmt e.inFmt && e.outFmt == e.inFmt
  else
    decide (e.outW ≤ 16 * e.inW) && decide (e.inW ≤ 16 * e.outW) && decide (e.outH ≤ 16 * e.inH) &&
      decide (e.inH ≤ 16 * e.outH) && decide (e.outW ≤ 8192) && e.outFmt == e.inFmt)

/-- The limits of the grid scatter unit (R141, R142, Table 4.2). -/
def Engine.gridOk (e : Engine) : Bool :=
  (e.inFmt == 3 || e.inFmt == 5) && (e.outFmt == 3 || e.outFmt == 5) && within 1 256 e.inC && within 1 1024 e.gridW &&
    within 1 1024 e.gridH

/-- The ranges of Table 4.2. stripe_rows is asked for the stripe engine only (log 21). DESIGN CHOICE (log 122): offsets in tile SRAM, for which
Table 4.2 gives no number, are not held to 6 MiB at the load. -/
def Engine.rangesOk (e : Engine) : Bool :=
  decide (e.kind ≤ 2) && decide (e.mode ≤ if e.kind = 1 then 5 else 1) && within 1 8192 e.inW && within 1 16384 e.inH &&
  decide (e.srcKind ≤ 2) && decide (e.auxKind ≤ 2) && (e.srcKind != 1 || decide (e.src ≤ 1023)) &&
  (e.auxKind != 1 || decide (e.aux ≤ 1023)) &&
  (e.kind == 2 || (within 1 16 e.kw && within 1 16 e.kh && within 1 16 e.sx && within 1 16 e.sy && within 1 64 e.dx &&
    within 1 64 e.dy && (e.kind == 0 || within 1 64 e.rows))) &&
  decide (e.pad ≤ 4) && decide (e.pl ≤ 128) && decide (e.pr ≤ 128) && decide (e.pt ≤ 128) && decide (e.pb ≤ 128) &&
  (if e.kind = 0 then e.stemOk else if e.kind = 1 then e.stripeOk else e.gridOk)

/-- Is position `p` of the padded image, in one direction, a real one? -/
def real (pad n p : Nat) : Bool := decide (pad ≤ p) && decide (p < pad + n)

/-- R134 in one direction: the centre tap real and every other tap in padding, at every output position. -/
def centreAxis (n pad k d st out : Nat) : Bool :=
  (List.range out).all fun x => (List.range k).all fun t => real pad n (x * st + t * d) == (t == (k - 1) / 2)

/-- Does a stripe job run in centre-only mode (R134)? -/
def Engine.centreOnly (e : Engine) : Bool :=
  e.kind == 1 && decide (e.mode ≤ 1) && e.kw % 2 == 1 && e.kh % 2 == 1 && decide (e.pad ≤ 1) &&
    centreAxis e.inW e.pl e.kw e.dx e.sx e.outW && centreAxis e.inH e.pt e.kh e.dy e.sy e.outH

/-- R130: the line-buffer capacity rule. -/
def Engine.capacityOk (e : Engine) : Bool :=
  let rows := (e.rows - 1) * e.sy + (if e.centreOnly then 1 else e.ey)
  decide (rows ≤ 192) && decide (rows * e.inW * fmtBytes e.inFmt e.slice ≤ 12582912)

/-- Are two values equal? -/
def FVal.same (a b : FVal) : Bool := a.le b && b.le a

/-- Is the FP32 pattern `v` exactly representable in the job's input format (Table 4.3)? -/
def Engine.padExact (e : Engine) : Bool :=
  let v := f32 e.padValue
  if e.first then
    match v with
    | .fin neg m x =>
      let i := roundInt neg m x
      FVal.same v (.ofInt i 0) &&
        (if e.inFmt = 0x17 then decide (-32768 ≤ i) && decide (i ≤ 32767)
         else decide (0 ≤ i) && decide (i < 2 ^ pixelBits e.inFmt))
    | _ => false
  else if e.inFmt = 5 then true
  else match v with
    | .nan => e.inFmt != 0 && e.inFmt != 4
    | .inf _ => e.inFmt == 2 || e.inFmt == 3
    | _ => FVal.same v (decodeFmt e.inFmt (convertTo e.inFmt v none).code)

/-- The pad mode is allowed, and mirrors reach only existing pixels (Tables 4.3, 4.6). DESIGN CHOICE (log 122): that is judged over every padded
position, whether a tap reads it or not. -/
def Engine.padOk (e : Engine) : Bool :=
  let convolves := e.kind == 0 || (e.kind == 1 && decide (e.mode ≤ 1))
  let reach := fun (m : Nat) => decide (e.pl + m ≤ e.width) && decide (e.pr + m ≤ e.width) && decide (e.pt + m ≤ e.height) &&
    decide (e.pb + m ≤ e.height)
  (e.pad == 0 || convolves) && (e.pad != 3 || reach 1) && (e.pad != 4 || reach 0)

/-- In one direction, every window has a real position. -/
def windowsReal (n pad k st out : Nat) : Bool :=
  (List.range out).all fun x => (List.range k).any fun t => real pad n (x * st + t)

/-- The padding rules of Table 4.3, and its geometry rules for the stem and stripe engines. -/
def Engine.shapeOk (e : Engine) : Bool :=
  e.padExact && e.padOk && (e.kind == 2 ||
  ((e.resamples || (convOut e.width e.pl e.pr e.ex e.sx == some e.outW && convOut e.height e.pt e.pb e.ey e.sy == some e.outH))
    && decide (1 ≤ e.outW) && decide (1 ≤ e.outH) && (e.kind != 1 || e.capacityOk) &&
    (!e.pools || (windowsReal e.inW e.pl e.kw e.sx e.outW && windowsReal e.inH e.pt e.kh e.sy e.outH))))

/-- Do the groups of two commands share a die? -/
def Command.shareDie (a b : Command) : Bool :=
  (List.zipWith (fun x y => decide (x ≠ 0) && decide (y ≠ 0)) a.tiles b.tiles).any fun x => x

/-- Does an entry keep every rule of Table 4.3? -/
def Program.engineOk (p : Program) (seen : List Engine) (e : Engine) : Bool :=
  match p.command e.cmd with
  | none => false
  | some c =>
    decide (c.start ≤ e.start) && decide (e.stop ≤ c.commit) && decide (e.start + e.minSpan ≤ e.stop) && e.rangesOk &&
    e.shapeOk &&
    seen.all fun x =>
      !(x.kind == e.kind && decide (x.start < e.stop) && decide (e.start < x.stop) &&
        match p.command x.cmd with
        | some d => c.shareDie d
        | none => false)

/-- R122: the command_id of the first entry that breaks a rule. -/
def Program.badEngine (p : Program) : Option Nat :=
  (firstBad (fun seen e => !p.engineOk seen e) [] p.engines).map (·.cmd)

/-! ## Streams (R183) -/

/-- R183: a handover entry bound to an enabled context is inbound and of the context's slot size. -/
def State.streamsOk (s : State) (p : Program) : Bool :=
  p.handovers.all fun h =>
    match s.backing h.bufId with
    | none => true
    | some n => h.dir == 0 && h.size == s.fld .SENS_STREAM_SLOT_SIZE_SIZE n

/-! ## WINDOW_BOOKING (R251) -/

/-- The link and beats a window occupies: (die, direction, first, end); a relay window occupies two links (R274). -/
def Window.occupies (w : Window) : List (Nat × Nat × Nat × Nat) :=
  if w.target = 3 then
    let n := ceilDiv w.size 256
    [(w.die, 1, w.beat, w.beat + n), (w.addr % 8, 0, w.beat, w.beat + n)]
  else [(w.die, w.dir, w.beat, w.beat + ceilDiv w.size 800)]

/-- Do two windows occupy a common beat of one link? -/
def Window.clash (a b : Window) : Bool :=
  a.occupies.any fun x => b.occupies.any fun y =>
    x.1 == y.1 && x.2.1 == y.2.1 && decide (x.2.2.1 < y.2.2.2) && decide (y.2.2.1 < x.2.2.2)

/-- May a program of function `fn` move data at [a, a + n) (08, "The memory that a program's owner may use")? -/
def State.ownerMay (s : State) (fn a n : Nat) : Bool :=
  if fn ≠ 0 then decide (a + n ≤ s.stallSize fn)
  else match regionOf a with
    | .hub => decide (a + n ≤ hubBase + 0x03000000)
    | .hbm =>
      decide (a + n ≤ hbmSize) && !s.inOpenStall a n &&
      !touch a n (s.fld .MEM_SPARE_CFG_BASE * 1073741824) (s.fld .MEM_SPARE_CFG_SLOTS * 1073741824) &&
      !touch a n (s.fld .HUB_CFG_RETAIN_BASE_BASE * 4096) (s.fld .HUB_CFG_RETAIN_SIZE_MIB * 1048576)
    | _ => false

/-- Does a window name a handover entry of its own direction, command and size (Table 8.3)? -/
def Program.windowBuffer (p : Program) (w : Window) : Bool :=
  p.handovers.any fun h =>
    h.bufId == w.addr % 1024 && h.dir == w.dir && h.dir + 1 == w.target && h.cmd == w.cmd && h.size == w.size &&
      (w.target == 2 || w.beat == h.booked)

/-- Does an entry keep every rule of Table 8.3? -/
def State.windowOk (s : State) (p : Program) (seen : List Window) (w : Window) : Bool :=
  match p.command w.cmd with
  | none => false
  | some c =>
    decide (w.die ≤ 5) && decide (w.dir ≤ 1) && decide (w.target ≤ 3) && decide (w.tile ≤ 39) && w.size % 256 == 0 &&
    within 256 16777216 w.size && w.tileOff % 256 == 0 && bit (c.tiles.getD w.die 0) w.tile &&
    (!(w.dir == 1 && (w.target == 0 || w.target == 2)) || decide (c.commit ≤ w.beat)) &&
    (w.target != 0 || s.ownerMay p.fn w.addr w.size) &&
    ((w.target != 1 && w.target != 2) || p.windowBuffer w) &&
    (w.target != 3 || (w.altRing && decide (w.addr % 8 ≤ 5))) && !seen.any w.clash

/-- R251: the command_id of the first entry that breaks a rule. -/
def State.badWindow (s : State) (p : Program) : Option Nat :=
  (firstBad (fun seen w => !s.windowOk p seen w) [] p.windows).map (·.cmd)

/-! ## PAIR_TABLE (R332) -/

/-- Is pair `k` in the program's pair_mask? -/
def Program.paired (p : Program) (k : Nat) : Bool := decide (k < 3) && bit p.pairMask k

/-- Does the command run copies on some pair? -/
def Program.cmdPaired (p : Program) (c : Command) : Bool :=
  (List.range 3).any fun k => p.paired k && c.tiles.getD k 0 != 0

/-- Is the window a primary copy's? -/
def Program.primary (p : Program) (w : Window) : Bool := p.paired w.die

/-- Is the window a secondary copy's? -/
def Program.secondary (p : Program) (w : Window) : Bool := decide (3 ≤ w.die) && p.paired (w.die - 3)

/-- A target-0 window in HBM. -/
def Window.inHbm (w : Window) : Bool := w.target == 0 && decide (w.addr < hbmSize)

/-- Does the partner die have the mirror of a primary window (Table 10.3)? A relay names its destination die, which the table leaves to the
mirror. -/
def Program.mirrored (p : Program) (w : Window) : Bool :=
  p.windows.any fun v =>
    v.die == w.die + 3 && v.cmd == w.cmd && v.tile == w.tile && v.beat == w.beat && v.dir == w.dir &&
    v.target == w.target && v.size == w.size && (w.target == 3 || v.addr == if w.inHbm then w.addr + p.mirrorDelta else w.addr)

/-- Is an input window of a copy of a paired command covered by an agreement entry (Table 10.3)? -/
def Program.agreed (p : Program) (w : Window) : Bool :=
  p.agrees.any fun a =>
    a.cmd == w.cmd && a.die == w.die % 3 && a.tile == w.tile && decide (a.off ≤ w.tileOff) &&
    decide (w.tileOff + w.size ≤ a.off + a.size) && decide (w.beat + 96 + ceilDiv w.size 800 ≤ a.beat)

/-- The rules of Table 10.3 about the section header (rows 1 to 3). -/
def Program.pairHeaderOk (p : Program) : Bool :=
  match p.sections.find? fun x => x.kind == 7 with
  | none => p.pairMask == 0
  | some t =>
    p.pairMask != 0 && fieldAt t.bytes 4 1 == p.pairMask && decide (p.agrees.length ≤ 65535) &&
    decide (p.warmupIters ≤ 1024) && p.mirrorDelta % 4096 == 0 &&
    (List.range 3).all fun k => !p.paired k ||
      (bit (fieldAt p.container 20 1) k && bit (fieldAt p.container 20 1) (k + 3))

/-- The rules of Table 10.3 about commands and windows (rows 4 to 7 and 9), which name no entry. -/
def Program.pairPlanOk (p : Program) : Bool :=
  ((List.range 3).all fun k => !p.paired k ||
    p.commands.all fun c => c.tiles.getD k 0 == c.tiles.getD (k + 3) 0) &&
  (p.windows.all fun w => !p.primary w || p.mirrored w) &&
  (p.windows.all fun w => !(p.primary w && w.inHbm) ||
    p.windows.all fun v => !(p.secondary v && v.inHbm) || !touch w.addr w.size v.addr v.size) &&
  (p.windows.all fun w =>
    !((p.primary w || p.secondary w) && w.dir == 0 && (w.target == 1 || w.inHbm)) || p.agreed w) &&
  p.commands.all fun c => !p.cmdPaired c || decide ((c.commit - c.start) / 256 + 2 ≤ 2048)

/-- The rules of Tables 10.2 and 10.3 for one agreement entry. -/
def Program.agreeOk (p : Program) (a : Agree) : Bool :=
  match p.command a.cmd with
  | none => false
  | some c =>
    p.paired a.die && decide (a.tile ≤ 39) && bit (c.tiles.getD a.die 0) a.tile && a.off % 256 == 0 &&
    within 1 6291456 a.size && decide (a.off + a.size ≤ tileSize) &&
    decide (a.beat + 24 + ceilDiv a.size 136 + 161 ≤ a.firstUse) && decide (a.firstUse ≤ c.commit)

/-- R332: the index that PAIR_TABLE_BAD names, or 0xFFFF (R312). -/
def Program.badPair (p : Program) : Option Nat :=
  if !p.pairHeaderOk then some 0xFFFF
  else
    match (List.range p.agrees.length).find? fun i => (p.agrees[i]?).any fun a => !p.agreeOk a with
    | some i => some i
    | none => if p.pairPlanOk then none else some 0xFFFF

/-! ## Swatch gaps (R394) -/

/-- The beats by which a schedule repeats: period_beats, or the earliest next start (R303, R394). -/
def Program.repeatBeats (p : Program) : Nat := if p.period ≠ 0 then p.period else max 8192 (alignUp p.iterBeats 8192)

/-- A busy stretch taken modulo the repetition, split where it passes the end. -/
def foldSpan (rep : Nat) (x : Nat × Nat) : List (Nat × Nat) :=
  if x.2 ≤ x.1 then []
  else if rep ≤ x.2 - x.1 then [(0, rep)]
  else
    let a := x.1 % rep
    let b := a + (x.2 - x.1)
    if b ≤ rep then [(a, b)] else [(a, rep), (0, b - rep)]

/-- A stretch joined to the last of those gathered so far (latest first). -/
def joinSpan (acc : List (Nat × Nat)) (b : Nat × Nat) : List (Nat × Nat) :=
  match acc with
  | [] => [b]
  | a :: t => if b.1 ≤ a.2 then (a.1, max a.2 b.2) :: t else b :: a :: t

/-- Sorted busy stretches in ascending order without overlap. -/
def mergeSpans (l : List (Nat × Nat)) : List (Nat × Nat) := (l.foldl joinSpan []).reverse

/-- Has every stretch of 40,000,000 beats of a repeated schedule an idle stretch of `gap` beats? -/
def gapOk (rep gap : Nat) (busy : List (Nat × Nat)) : Bool :=
  let l := mergeSpans ((busy.flatMap (foldSpan rep)).mergeSort fun a b => decide (a.1 ≤ b.1))
  match l.head? with
  | none => true
  | some h =>
    -- idle stretches, each with the range of beats at which a stretch of `gap` beats may start
    let ends := l.map (·.2)
    let starts := (l.drop 1).map (·.1) ++ [h.1 + rep]
    let ok := (List.zip ends starts).filterMap fun g => if g.1 + gap ≤ g.2 then some (g.1, g.2 - gap) else none
    match ok.head? with
    | none => false
    | some f =>
      (List.zip (ok.map (·.2)) ((ok.drop 1).map (·.1) ++ [f.1 + rep])).all fun g => decide (g.2 ≤ g.1 + 1 + (40000000 - gap))

/-- R394. -/
def Program.gapsOk (p : Program) : Bool :=
  !p.safety || (List.range 6).all fun d =>
    ((List.range 40).all fun t => gapOk p.repeatBeats 24000 (p.tileBusy d t)) &&
    (List.range 3).all fun k => gapOk p.repeatBeats 38800 (p.engineBusy d k)

/-! ## Stalls (R468) -/

/-- The tiles of die `d` that the quarters of a stall hold, as a mask (R461). -/
def quarterTiles (quarters d : Nat) : Nat :=
  (List.range 4).foldl (fun m q => if bit quarters (4 * d + q) then m + 1023 * 2 ^ (10 * q) else m) 0

/-- Is a program of a stall one that R468 denies? -/
def State.stallDenied (s : State) (p : Program) : Bool :=
  let q := s.stallQuarters p.fn
  p.safety || p.pairMask != 0 || !p.handovers.isEmpty ||
  (p.commands.any fun c => (List.range 6).any fun d =>
    decide (c.tiles.getD d 0 &&& quarterTiles q d ≠ c.tiles.getD d 0)) ||
  (p.engines.any fun e =>
    match p.command e.cmd with
    | none => false
    | some c => (List.range 6).any fun d => c.tiles.getD d 0 != 0 && bits q (4 * d + 3) (4 * d) != 15) ||
  p.windows.any fun w => w.target != 0 || decide (s.stallSize p.fn < w.addr + w.size)

end Sys2Proof.Machine
end

