-- ==== Sys2Proof/Machine/Loader.lean ====
section
/-!
DEFINITION. Machine/Loader.lean: EXEC LOAD and UNLOAD (R45, R47, R266, R274, R301, R307, R373).
-/

namespace Sys2Proof.Machine

/-! ## Tile SRAM (R266) -/

/-- The tiles of a die that a PATTERN or CONSTANTS section is placed in: (die, tile) is one of them? -/
def Program.placed (p : Program) (x : Section) (d t : Nat) : Bool :=
  (x.kind == 1 || x.kind == 5) && (if x.die = 255 then p.usesDie d else x.die == d) && (x.tile == 255 || x.tile == t)

/-- The lowest-numbered die of a copy of a command's group, and its lowest-numbered tile (R104, 05). -/
def Command.lead (c : Command) (dies : List Nat) : Option (Nat × Nat) :=
  match dies.find? fun d => c.tiles.getD d 0 != 0 with
  | none => none
  | some d => ((List.range 40).find? fun t => bit (c.tiles.getD d 0) t).map fun t => (d, t)

/-- The dies of the primary copy and of unpaired commands, and those of the secondary copy (R329). -/
def Program.copyDies (p : Program) (secondary : Bool) : List Nat :=
  (List.range 6).filter fun d =>
    if secondary then decide (3 ≤ d) && p.paired (d - 3) else !(decide (3 ≤ d) && p.paired (d - 3))

/-- The tile that a copy's descriptor and statistics record stand in. -/
def Program.leadTile (p : Program) (c : Command) (secondary : Bool) : Option (Nat × Nat) := c.lead (p.copyDies secondary)

/-- Where the layer descriptor of an attention command stands in tile SRAM: its pattern names the offset (05). -/
def Program.layerAt (p : Program) (c : Command) : Option (Nat × Nat × Nat) :=
  match p.leadTile c false with
  | none => none
  | some (d, t) =>
    match p.sections.find? fun x => x.kind == 1 && x.die == d && x.tile == t with
    | none => none
    | some x => (Config.layerOffset x.bytes c.id).map fun o => (d, t, o)

/-- Where a section's bytes go in the SRAM of a tile it is placed in (log 6). -/
def Section.place (x : Section) : Nat := Config.sectionOffset x.bytes % (tileSize + 1 - min tileSize x.bytes.length)

/-- The pool that the layer descriptor of an attention command names, as the sections place it. -/
def Program.layerPool (p : Program) (c : Command) : Option Nat :=
  match p.layerAt c with
  | none => none
  | some (d, t, o) =>
    (p.sections.reverse.find? fun x => p.placed x d t && decide (x.place ≤ o) && decide (o + 2 ≤ x.place + x.bytes.length)).map fun x =>
      fieldAt x.bytes (o - x.place) 2

/-- Has a program of a stall a page pool on a die that the stall does not wholly own (R468)? A pool lies on a die of its command's group (05);
one that does not exist yet can only lie on those (log 120). -/
def State.poolDenied (s : State) (p : Program) : Bool :=
  let whole := fun (d : Nat) => bits (s.stallQuarters p.fn) (4 * d + 3) (4 * d) == 15
  p.commands.any fun c => (p.layerAt c).isSome && match (p.layerPool c).bind s.pool with
    | some y => !whole y.die
    | none => (List.range 6).all fun d => c.tiles.getD d 0 == 0 || !whole d

/-- The regions of a tile that windows and agreement entries name, as [start, end). -/
def Program.regions (p : Program) (d t : Nat) : List (Nat × Nat) :=
  (p.windows.filterMap fun w => if w.die = d ∧ w.tile = t then some (w.tileOff, w.tileOff + w.size) else none) ++
  p.agrees.filterMap fun a => if a.die = d ∧ a.tile = t then some (a.off, a.off + a.size) else none

/-- Bytes of a tile's SRAM that a program uses (R266). -/
def Program.sram (p : Program) (d t : Nat) : Nat :=
  (p.sections.map fun x => if p.placed x d t then x.bytes.length else 0).foldl (· + ·) 0 +
  ((mergeSpans ((p.regions d t).mergeSort fun a b => decide (a.1 ≤ b.1))).map fun r => r.2 - r.1).foldl (· + ·) 0

/-- Does every tile hold what the loaded programs use? -/
def State.sramFits (s : State) : Bool :=
  (List.range 6).all fun d => (List.range 40).all fun t =>
    decide ((s.programs.map fun q => q.sram d t).foldl (· + ·) 0 ≤ tileSize)

/-! ## The load checks (R45) -/

/-- The load checks in the order of R45: the code that refuses the load with its info (R312), or the program. -/
def State.checkLoad (s : State) (fn slot : Nat) (c : List Byte) : Except (Nat × Nat) Program :=
  if !headerOk c then .error (0x101, 0)
  else if containerDigest c != slice c 64 32 then .error (0x102, 0)
  else if !sectionsOk c then .error (0x101, 0)
  else if !Config.acceptsMajor (fieldAt c 11 1) then .error (0x103, 0)
  else
    let p := programOf c (substitute ((List.range (fieldAt c 16 2)).map (sectionOf c)) s.absent s.cutLinks) fn slot
      s.fabric.loadOrder
    if !s.placeable p then .error (0x104, 0)
    else if !s.check7 p then .error (0x101, 0)
    else if !s.check8 p then .error (0x111, 0)
    else if fn != 0 && (s.stallDenied p || s.poolDenied p) then .error (0xC04, 0)
    else match p.badQuant with
      | some id => .error (0x160, id % 65536)
      | none => match p.badEngine with
        | some id => .error (0x170, id % 65536)
        | none =>
          if !s.streamsOk p then .error (0x302, 0)
          else match s.badWindow p with
            | some id => .error (0x502, id % 65536)
            | none => match p.badPair with
              | some i => .error (0x701, i % 65536)
              | none =>
                if !p.gapsOk then .error (0x905, 0)
                else if p.markers.any fun m => s.markerOwner m != fn then .error (0x630, 0)
                else
                  let s' := s.setSlot fn slot (.loaded p)
                  if s'.sramFits && s'.admits then .ok p else .error (0x501, 0)

/-! ## Placing a program -/

/-- The sections' bytes put into the SRAM of the tiles they are placed in, on the dies that `on` names (log 6 for the place). -/
def State.preload (s : State) (p : Program) (on : Nat → Bool) : State :=
  p.sections.foldl (init := s) fun s x =>
    let off := x.place
    (List.range 6).foldl (init := s) fun s d =>
      (List.range 40).foldl (init := s) fun s t =>
        if on d && p.placed x d t then s.devWrite (tileBase d t + off) x.bytes else s

/-- The first place of the retain area where `n` bytes fit (R373). -/
def retainPlace (l : List Retained) (size n : Nat) : Option Nat :=
  ((0 :: l.map fun r => r.offset + r.bytes.length).filter fun o =>
    decide (o + n ≤ size) && l.all fun r => !touch o n r.offset r.bytes.length).min?

/-- A container of the PF kept in the retain area, or RETAIN_FULL (R373). -/
def State.retain (s : State) (slot : Nat) (c : List Byte) : State :=
  if s.fld .HUB_CFG_RETAIN_SIZE_MIB = 0 then s
  else
    let l := s.fabric.retained.filter fun r => r.slot != slot
    match retainPlace l (s.fld .HUB_CFG_RETAIN_SIZE_MIB * 1048576) c.length with
    | none => State.report { s with fabric := { s.fabric with retained := l } } 0x844 2
    | some o =>
      let r : Retained := ⟨slot, o, c, none⟩
      let s := { s with fabric := { s.fabric with retained := l ++ [r] } }
      (s.devWrite (s.fld .HUB_CFG_RETAIN_BASE_BASE * 4096 + o) c).modProgram 0 slot fun p => { p with retained := true }

/-- The shed mark of a slot taken away (R301, R307). -/
def State.clearShed (s : State) (fn slot : Nat) : State :=
  { s with memSys := { s.memSys with shed := s.memSys.shed.filter fun g => g != .program fn slot } }

/-- A program that has passed every check takes its slot (R301): buffers declared, sections placed, the digest measured
(R47), and a relay logged (R274). -/
def State.place (s : State) (p : Program) : State :=
  let p := { p with split := s.splitOf p.fn p.slot }
  let s := (s.clearShed p.fn p.slot).setSlot p.fn p.slot (.loaded p)
  let s := { s with fabric := { s.fabric with loadOrder := s.fabric.loadOrder + 1 } }
  let s := ((s.declareBuffers p).preload p fun _ => true).measure p.fn 6 p.digest
  if p.relay then s.report 0x531 2 else s

/-- LOAD (R301) of a slot from device memory: the completion status, severity and info. -/
def State.execLoadAt (s : State) (fn slot addr n : Nat) : State × Nat × Nat × Nat :=
  if fn = 0 ∧ s.mode = .nightMarket then (s, 0xC04, 0, 0)
  else if (s.program fn slot).isSome then (s, 0x612, 0, 0)
  else if !s.accessOk 1 fn addr n then (s.badAddress 1 fn addr, 0x101, 0, 0)
  else
    let c := s.devRead (s.devAddr fn addr) n
    match s.checkLoad fn slot c with
    | .error (code, info) => (s, code, 0, info)
    | .ok p => ((if fn = 0 then (s.place p).retain slot c else s.place p), 0, 0, 0)

/-- EXEC_LOAD (R301). -/
def execExecLoad (d : DescRef) (s : State) : Out :=
  .next (s.begin d (isOp 1 0) fun s t x =>
    let (s, code, sev, info) := s.execLoadAt d.fn (x.val 17 1) (x.val 24 8) (x.val 32 8)
    s.finish t code sev info)

/-- EXEC_UNLOAD (R307). -/
def execExecUnload (d : DescRef) (s : State) : Out :=
  .next (s.begin d (isOp 1 3) fun s t x =>
    let slot := x.val 17 1
    match s.slotFor d.fn slot with
      | .empty => s.finish t 0x613 0 0
      | .shed => ((s.clearShed d.fn slot).setSlot d.fn slot .empty).finish t 0 0 0
      | .loaded p =>
        if p.running.isSome then s.finish t 0x612 0 0
        else
          let s := if d.fn = 0 then { s with fabric := { s.fabric with
            retained := s.fabric.retained.filter fun r => r.slot != slot } } else s
          (s.unload d.fn slot .empty).finish t 0 0 0)

end Sys2Proof.Machine
end

