-- ==== Sys2Proof/Machine/Kv.lean ====
section
/-!
DEFINITION. Machine/Kv.lean: the page manager (05): pools and their HBM areas, the PAGE descriptors, allocation, release,
victims and starvation (R148, R160 to R173, R311).
-/

namespace Sys2Proof.Machine

/-! ## Pools and their areas (R160) -/

/-- A pool replaced. -/
def State.setPool (s : State) (id : Nat) (p : Option Pool) : State := { s with pools := Tbl.set none s.pools id p }

/-- Bytes of an element of the pool. -/
def Pool.elemBytes (p : Pool) : Nat := if p.fmt = 3 then 2 else 1

/-- Bytes of a page. -/
def Pool.pageBytes (p : Pool) : Nat := 64 * p.width * p.elemBytes

/-- Offset of the sequence table. -/
def Pool.seqArea (p : Pool) : Nat := alignUp (p.pages * p.pageBytes) 4096

/-- Offset of the page tables. -/
def Pool.tableArea (p : Pool) : Nat := alignUp (p.seqArea + 64 * p.maxSeqs) 4096

/-- Offset of the free bitmap. -/
def Pool.bitmapArea (p : Pool) : Nat := alignUp (p.tableArea + 4 * p.layers * p.maxPages * p.maxSeqs) 4096

/-- Bytes of the whole region. -/
def Pool.regionBytes (p : Pool) : Nat := p.bitmapArea + alignUp (ceilDiv p.pages 8) 64

/-- An open sequence of a pool. -/
def Pool.seq (p : Pool) (id : Nat) : Option Seq := Tbl.get none p.seqs id

/-- A sequence replaced. -/
def Pool.setSeq (p : Pool) (id : Nat) (q : Option Seq) : Pool := { p with seqs := Tbl.set none p.seqs id q }

/-- The pages of a list returned to the free ones. -/
def Pool.give (p : Pool) (l : List Nat) : Pool :=
  { p with free := (l.filter (· ≠ 0xFFFFFFFE) ++ p.free).mergeSort fun a b => decide (a ≤ b) }

/-- The 64 bytes of a sequence entry (Table 5.8). -/
def seqEntry (id : Nat) (q : Option Seq) : List Byte :=
  match q with
  | none => leBytes 4 id ++ List.replicate 60 0
  | some q =>
    leBytes 4 id ++ leBytes 1 1 ++ leBytes 1 q.cls ++
      leBytes 2 ((if q.pinned then 1 else 0) + (if q.truncated then 2 else 0)) ++ leBytes 4 q.length ++
      leBytes 4 q.alloc ++ leBytes 4 q.truncAt ++ leBytes 4 q.reserve ++ leBytes 8 q.lastAppend ++ leBytes 4 q.held ++
      List.replicate 28 0

/-- The page-table entries of one layer of a sequence: a page number, released, or no page. -/
def tableBytes (n : Nat) (l : List Nat) : List Byte :=
  (List.range n).flatMap fun i => leBytes 4 (l.getD i 0xFFFFFFFF)

/-- The free bitmap: bit n is 1 when page n is free. -/
def bitmapBytes (pages : Nat) (free : List Nat) : List Byte :=
  (List.range (alignUp (ceilDiv pages 8) 64)).map fun i =>
    BitVec.ofNat 8 ((List.range 8).foldl (fun v k => if free.contains (8 * i + k) then v + 2 ^ k else v) 0)

/-- The device address of a pool region, given the address its descriptor names (R462). -/
def State.poolAddr (s : State) (p : Pool) (a : Nat) : Nat := s.devAddr p.stall a

/-- The bases of the copies of a pool: the region, and for a SAFETY pool its mirror (R173). -/
def State.poolBases (s : State) (p : Pool) : List Nat :=
  if p.safety then [s.poolAddr p p.base, s.poolAddr p p.mirror] else [s.poolAddr p p.base]

/-- A page manager's write into its pool (master 8): that of the PF's pools keeps out of the regions of open stalls (R463). -/
def State.poolWrite (s : State) (p : Pool) (a : Nat) (l : List Byte) : State :=
  if p.stall = 0 then s.ownWrite 8 a l else s.devWrite a l

/-- A sequence's entry and page tables, and the bitmap, written to the pool's areas (R161, R173); a sequence that is FREE has no page. -/
def State.writeSeq (s : State) (p : Pool) (id : Nat) : State :=
  (s.poolBases p).foldl (init := s) fun s b =>
    let s := s.poolWrite p (b + p.seqArea + 64 * id) (seqEntry id (p.seq id))
    let tables := ((p.seq id).map (·.tables)).getD []
    let s := s.poolWrite p (b + p.tableArea + 4 * (id * p.layers * p.maxPages))
      ((List.range p.layers).flatMap fun l => tableBytes p.maxPages (tables.getD l []))
    s.poolWrite p (b + p.bitmapArea) (bitmapBytes p.pages p.free)

/-- A pool changed, with the areas of one of its sequences written. -/
def State.putSeq (s : State) (pool : Nat) (p : Pool) (id : Nat) : State := (s.setPool pool (some p)).writeSeq p id

/-! ## Which iterations use a pool (R148) -/

/-- The layer descriptor of an attention command as tile SRAM holds it. -/
def State.layerOf (s : State) (p : Program) (c : Command) : Option (List Byte) :=
  (p.layerAt c).map fun x => s.devRead (tileBase x.1 x.2.1 + x.2.2) 128

/-- Does the command use a pool? -/
def State.usesPool (s : State) (p : Program) (c : Command) (pool : Nat) : Bool :=
  match s.layerOf p c with
  | some l => fieldAt l 0 2 == pool
  | none => false

/-- The commands that an iteration runs: those that its entry does not skip (R70), with their runs. -/
def Program.ranIn (p : Program) (it : Iteration) : List (Command × CmdRun) :=
  (List.zip p.commands it.runs).filter fun x => decide (it.entryBeat ≤ x.1.start)

/-- The last commit beat of an iteration. -/
def Program.lastCommit (p : Program) (it : Iteration) : Nat := it.start + ((p.ranIn it).map (·.1.commit)).foldl max 0

/-- Is an iteration that uses the pool running, that is, not past its last commit beat (R148)? -/
def State.poolBusy (s : State) (pool : Nat) : Bool :=
  s.programs.any fun p => p.iterations.any fun it =>
    !it.killed && (p.ranIn it).any (fun x => s.usesPool p x.1 pool) &&
      (decide (s.fabric.beat < p.lastCommit it) || (p.ranIn it).any fun x => x.2.uncommitted)

/-- Pages of a pool that commands of running iterations hold in shadow. -/
def State.shadowPages (s : State) (pool : Nat) : List Nat :=
  s.programs.flatMap fun p =>
    match p.running with
    | none => []
    | some r => r.iters.flatMap fun i => i.runs.flatMap fun x =>
        match x.attn with
        | some a => if fieldAt a.layer 0 2 = pool then x.pages.map (·.phys) else []
        | none => []

/-- The reservation that a command of an iteration may take: its own re-issue's (R171). -/
def Starved.isFor (x : Starved) (fn slot : Nat) (it : Iteration) (cmd : Nat) : Bool :=
  it.reissued && x.fn == fn && x.slot == slot && x.cmd == cmd

/-- Pages that an allocation may take: those free and not held in shadow, less what is reserved for others (R171). -/
def State.takeable (s : State) (pool : Nat) (p : Pool) (fn slot : Nat) (it : Iteration) (cmd : Nat) : List Nat :=
  let held := s.shadowPages pool
  let others := (p.starved.filter fun x => !x.isFor fn slot it cmd).foldl (fun n x => n + x.need) 0
  (p.free.filter fun n => !held.contains n).drop others

/-! ## PAGE operations (Table 5.9) -/

/-- Do the fields of a pool descriptor of function `fn` meet Table 5.6, R160 and R172? Its reserved bits are ignored (R15). -/
def State.poolFieldsOk (s : State) (fn : Nat) (b : List Byte) (p : Pool) : Bool :=
  let hbm := fun (a : Nat) => decide (s.devAddr fn a + p.regionBytes ≤ hbmSize) && s.ownerMay fn a p.regionBytes
  decide (p.die ≤ 5) && within 1 262144 p.pages && within 64 1024 p.width && p.width % 64 == 0 && within 1 3 p.fmt &&
  within 1 128 p.layers && within 1 65536 p.maxSeqs && within 1 16384 p.maxPages && p.stall == fn &&
  (!p.autoRelease || (decide (64 ≤ p.window) && p.window % 64 == 0 && p.prefix_ % 64 == 0)) &&
  p.victims.all (· ≤ 7) && p.base % 4096 == 0 && p.mirror % 4096 == 0 &&
  (if p.safety then p.victims.isEmpty && p.stall == 0 && hbm p.mirror else p.mirror == 0) &&
  hbm p.base &&
  (if fn = 0 then true else bits (s.stallQuarters fn) (4 * p.die + 3) (4 * p.die) == 15) &&
  s.fabric.dieOn.getD p.die false && decide (fieldAt b 0 2 ≤ 255)

/-- A pool from the 128 bytes of its descriptor (Table 5.6). -/
def poolOf (b : List Byte) : Pool :=
  { die := fieldAt b 2 1, safety := bit (fieldAt b 3 1) 0, autoRelease := bit (fieldAt b 3 1) 1, pages := fieldAt b 4 4,
    width := fieldAt b 8 2, fmt := fieldAt b 10 1, layers := fieldAt b 11 1, maxSeqs := fieldAt b 12 4,
    maxPages := fieldAt b 16 2, stall := fieldAt b 18 1, window := fieldAt b 20 4, prefix_ := fieldAt b 24 4,
    victims := ((List.range 8).map fun i => fieldAt b (32 + i) 1).takeWhile (· ≠ 255), base := fieldAt b 40 8,
    mirror := fieldAt b 48 8, appends := 0, free := List.range (fieldAt b 4 4), seqs := [], starved := [], held := [] }

/-- CREATE_POOL: the descriptor copied and checked, the sequence table cleared, every page marked free. -/
def State.poolCreate (s : State) (fn id addr : Nat) : State × Nat :=
  let b := s.hostRead addr 128
  let p := poolOf b
  if (s.pool id).isSome ∨ fieldAt b 0 2 ≠ id ∨ !s.poolFieldsOk fn b p then (s, 0x201)
  else
    let s := s.setPool id (some p)
    let s := (s.poolBases p).foldl (init := s) fun s x =>
      let s := { s with mem := zeroBytes s.mem (x + p.seqArea) (64 * p.maxSeqs) }
      (List.range p.maxSeqs).foldl (init := s.devWrite (x + p.bitmapArea) (bitmapBytes p.pages p.free)) fun s k =>
        s.devWrite (x + p.seqArea + 64 * k) (leBytes 4 k)
    (s, 0)

/-- DESTROY_POOL: refused while any sequence is OPEN. -/
def State.poolDestroy (s : State) (id : Nat) (p : Pool) : State × Nat :=
  if p.seqs.isEmpty then (s.setPool id none, 0) else (s, 0x203)

/-- OPEN_SEQ (R172 for a SAFETY pool). -/
def State.seqOpen (s : State) (id : Nat) (p : Pool) (k cls reserve : Nat) : State × Nat :=
  if p.maxSeqs ≤ k ∨ (p.seq k).isSome ∨ 7 < cls then (s, 0x203)
  else
    let sum := p.seqs.foldl (fun n e => n + (e.2.map (·.reserve)).getD 0) reserve
    if p.safety ∧ p.pages < sum * p.layers then (s, 0x202)
    else
      let q : Seq := { cls := cls, pinned := false, truncated := false, length := 0, alloc := 0, truncAt := 0,
                       reserve := if p.safety then reserve else 0, lastAppend := 0, held := 0,
                       tables := List.replicate p.layers [] }
      (s.putSeq id (p.setSeq k (some q)) k, 0)

/-- Every page of a sequence. -/
def Seq.pages (q : Seq) : List Nat := q.tables.flatten

/-- A sequence cut to `n` pages per layer, and the pages that this frees. -/
def Seq.cut (q : Seq) (n : Nat) : Seq × List Nat :=
  ({ q with tables := q.tables.map fun l => l.take n, held := min q.held n }, q.tables.flatMap fun l => l.drop n)

/-- CLOSE_SEQ: every page freed, the sequence FREE. -/
def State.seqClose (s : State) (id : Nat) (p : Pool) (k : Nat) : State × Nat :=
  match p.seq k with
  | none => (s, 0x203)
  | some q => (s.putSeq id ((p.give q.pages).setSeq k none) k, 0)

/-- TRUNCATE_SEQ to a new length. -/
def State.seqTruncate (s : State) (id : Nat) (p : Pool) (k len : Nat) : State × Nat :=
  match p.seq k with
  | none => (s, 0x203)
  | some q =>
    if q.length < len then (s, 0x203)
    else
      let (q', l) := q.cut (ceilDiv len 64)
      (s.putSeq id ((p.give l).setSeq k (some { q' with length := len, alloc := len, truncated := false })) k, 0)

/-- SET_CLASS, PIN, UNPIN: a sequence's class or PINNED. -/
def State.seqMark (s : State) (id : Nat) (p : Pool) (k : Nat) (g : Seq → Seq) : State × Nat :=
  match p.seq k with
  | none => (s, 0x203)
  | some q => (s.putSeq id (p.setSeq k (some (g q))) k, 0)

/-- READ_SEQ: the sequence entry to host memory. -/
def State.seqRead (s : State) (p : Pool) (k addr : Nat) : State × Nat :=
  if p.maxSeqs ≤ k then (s, 0x203) else (s.hostWrite addr (seqEntry k (p.seq k)), 0)

/-- POOL_STATUS: free pages, open sequences and the append counter to host memory. -/
def State.poolStatus (s : State) (p : Pool) (addr : Nat) : State × Nat :=
  (s.hostWrite addr (leBytes 4 p.free.length ++ leBytes 4 p.seqs.length ++ leBytes 8 p.appends), 0)

/-- The bytes that an operation reports in info (R312). -/
def pageInfo (op : Nat) : Nat := if op = 9 then 64 else if op = 10 then 16 else 0

/-- A PAGE operation of function `fn` applied (Table 5.9, R311): the state and the completion code. -/
def State.pageApply (s : State) (fn : Nat) (x : Desc) : State × Nat :=
  let op := x.val 16 1
  let id := x.val 18 2
  let k := x.val 20 4
  let addr := x.val 32 8
  if op = 1 then s.poolCreate fn id addr
  else match s.pool id with
    | none => (s, 0x201)
    | some p =>
      if fn ≠ 0 ∧ p.stall ≠ fn then (s, 0x201)
      else match op with
        | 2 => s.poolDestroy id p
        | 3 => s.seqOpen id p k (x.val 17 1) (x.val 28 4)
        | 4 => s.seqClose id p k
        | 5 => s.seqTruncate id p k (x.val 24 4)
        | 6 => if 7 < x.val 17 1 then (s, 0x203) else s.seqMark id p k fun q => { q with cls := x.val 17 1 }
        | 7 => s.seqMark id p k fun q => { q with pinned := true }
        | 8 => s.seqMark id p k fun q => { q with pinned := false }
        | 9 => s.seqRead p k addr
        | _ => s.poolStatus p addr

/-- A PAGE operation is applied and its descriptor completes (R311). -/
def State.pageDone (s : State) (fn : Nat) (t : Ticket) (x : Desc) : State :=
  let (s, code) := s.pageApply fn x
  s.finish t code 0 (if code = 0 then pageInfo (x.val 16 1) else 0)

/-- Is an operation on a pool held (R148, R170, R350, R476)? -/
def State.poolHeld (s : State) (id : Nat) : Bool :=
  s.poolBusy id ||
  match s.pool id with
  | none => false
  | some p => !p.starved.isEmpty || s.ckptHolds p.stall ||
      (p.safety && s.gauge.resync.any fun x => bit x.2.1 (p.die % 3))

/-- A PAGE descriptor with operation `op` starts: applied on arrival, or held in order while the pool is in use. -/
def State.page (s : State) (d : DescRef) (op : Nat) : State :=
  s.begin d (isOp 7 op) fun s t x =>
    let id := x.val 18 2
    match s.pool id with
      | some p =>
        if s.poolHeld id || !p.held.isEmpty then s.setPool id (some { p with held := p.held ++ [t] })
        else s.pageDone d.fn t x
      | none => s.pageDone d.fn t x

/-- CREATE_POOL (R161); a PAGE descriptor of an unknown op ends here with DESC_BAD. -/
def execCreatePool (d : DescRef) (s : State) : Out :=
  .next (match s.desc d with
    | some x => if 1 ≤ x.val 16 1 ∧ x.val 16 1 ≤ 10 then s.page d 1 else s.page d (x.val 16 1)
    | none => s)
/-- DESTROY_POOL (R161). -/
def execDestroyPool (d : DescRef) (s : State) : Out := .next (s.page d 2)
/-- OPEN_SEQ (R161, R172). -/
def execOpenSeq (d : DescRef) (s : State) : Out := .next (s.page d 3)
/-- CLOSE_SEQ (R161). -/
def execCloseSeq (d : DescRef) (s : State) : Out := .next (s.page d 4)
/-- TRUNCATE_SEQ (R161). -/
def execTruncateSeq (d : DescRef) (s : State) : Out := .next (s.page d 5)
/-- SET_CLASS (R161). -/
def execSetClass (d : DescRef) (s : State) : Out := .next (s.page d 6)
/-- PIN (R161). -/
def execPin (d : DescRef) (s : State) : Out := .next (s.page d 7)
/-- UNPIN (R161). -/
def execUnpin (d : DescRef) (s : State) : Out := .next (s.page d 8)
/-- READ_SEQ (R161). -/
def execReadSeq (d : DescRef) (s : State) : Out := .next (s.page d 9)
/-- POOL_STATUS (R161). -/
def execPoolStatus (d : DescRef) (s : State) : Out := .next (s.page d 10)

/-- Held operations of a pool applied in order, each completing its descriptor, whatever an earlier one did to the pool. -/
def State.applyHeld (s : State) (l : List Ticket) : State :=
  l.foldl (init := s) fun s t =>
    match (Tbl.get Ring.zero s.host.rings t.ring).descs.find? fun x => x.order == t.order with
    | none => s
    | some x => s.pageDone (t.ring / 256) t x

/-- PAGE_HELD_OPS_APPLY (R148): when no iteration uses the pool any more, its held operations are applied in order. -/
def execPageHeldOpsApply (pool : Fin 256) (s : State) : Out :=
  match s.pool pool with
  | none => .next s
  | some p => if s.poolHeld pool then .next s else .next ((s.setPool pool (some { p with held := [] })).applyHeld p.held)

/-! ## Victims (R167 to R169) -/

/-- Has a sequence an append in flight (R166)? -/
def Seq.inFlight (q : Seq) : Bool := decide (q.length < q.alloc)

/-- The victims of a pool in the order of R167, without the sequences of the starving batch; a class that victim_order lists twice has its
place once. -/
def Pool.victimOrder (p : Pool) (batch : List Nat) : List (Nat × Seq) :=
  p.victims.eraseDups.flatMap fun v =>
    (p.seqs.filterMap fun e => match e.2 with
      | some q => if q.cls = v ∧ !q.pinned ∧ !q.inFlight ∧ !batch.contains e.1 then some (e.1, q) else none
      | none => none).mergeSort fun a b =>
        decide (a.2.lastAppend < b.2.lastAppend) || (a.2.lastAppend == b.2.lastAppend && decide (a.1 ≤ b.1))

/-- Pages that cutting the last `k` page indices of a sequence frees: released ones free nothing. -/
def Seq.tailPages (q : Seq) (k : Nat) : Nat := ((q.cut (q.held - k)).2.filter (· ≠ 0xFFFFFFFE)).length

/-- The page indices to drop from a victim: the fewest that free `n` pages, or all it holds (R168). DESIGN CHOICE (log 123): an index whose pages
AUTO_RELEASE has freed is dropped along and frees nothing. -/
def Seq.dropCount (q : Seq) (n : Nat) : Nat :=
  ((List.range q.held).find? fun k => decide (n ≤ q.tailPages k)).getD q.held

/-- The drops that free `n` pages: sequence and pages kept; none when the victims do not hold that many. -/
def planDrops : List (Nat × Seq) → Nat → Option (List (Nat × Nat))
  | _, 0 => some []
  | [], _ + 1 => none
  | (k, q) :: l, n + 1 =>
    let d := q.dropCount (n + 1)
    if d = 0 then planDrops l (n + 1)
    else (planDrops l (n + 1 - q.tailPages d)).map fun t => (k, q.held - d) :: t

/-- One victim dropped to `kept` pages per layer (R168): length, alloc_length and truncated_at follow, TRUNCATED is set. -/
def State.dropVictim (s : State) (id : Nat) (v : Nat × Nat) : State :=
  match s.pool id with
  | none => s
  | some p => match p.seq v.1 with
    | none => s
    | some q =>
      let (q', l) := q.cut v.2
      let freed := (l.filter (· ≠ 0xFFFFFFFE)).length
      let len := 64 * v.2
      let q' := { q' with length := len, alloc := len, truncAt := len, truncated := true }
      (s.putSeq id ((p.give l).setSeq v.1 (some q')) v.1).count .CD_KV_DROPPED_PAGES_COUNT p.die 0 freed

/-- A victim chosen, with the pages per layer that it keeps: counted in the tally and logged with the pool (detail0), and its seq_id and
new length (detail1 [31:0] and [63:32], log 7) (R169). -/
def State.noteVictim (s : State) (id : Nat) (p : Pool) (v : Nat × Nat) : State :=
  (s.tally 0x08 p.stall).report 0x2C0 1 (some id) (some (v.1 + 64 * v.2 * 4294967296))

/-! ## Appends (R163 to R165) -/

/-- Pages an entry must still get in every layer (R164). -/
def Pool.needOf (p : Pool) (e : KvEntry) : Nat :=
  match p.seq e.seq with
  | none => 0
  | some q => if e.status ≠ 0 ∨ e.qPos + e.qCount ≤ q.alloc then 0
    else p.layers * (ceilDiv (e.qPos + e.qCount) 64 - q.held)

/-- The pages a batch takes, lowest free page first and entry by entry (R162). DESIGN CHOICE (log 123): of an entry, page index by page index and
within one layer by layer; Table 5.10, which R162 names, gives no order. -/
def Pool.grants (p : Pool) (entries : List KvEntry) : List ShadowPage :=
  entries.flatMap fun e =>
    match p.seq e.seq with
    | none => []
    | some q =>
      if p.needOf e = 0 then []
      else (List.range (ceilDiv (e.qPos + e.qCount) 64 - q.held)).flatMap fun i =>
        (List.range p.layers).map fun l => { seq := e.seq, layer := l, page := q.held + i, phys := 0 }

/-- The granted pages with their page numbers. -/
def nameGrants (g : List ShadowPage) (free : List Nat) : List ShadowPage :=
  List.zipWith (fun (x : ShadowPage) n => { x with phys := n }) g free

/-- The pages of the layer-0 command become visible at its commit (R164): page tables, pages_held, alloc_length. -/
def State.commitPages (s : State) (id : Nat) (a : Attn) (pages : List ShadowPage) : State :=
  match s.pool id with
  | none => s
  | some p =>
    let taken := pages.map (·.phys)
    let p := { p with free := p.free.filter fun n => !taken.contains n }
    let s := s.setPool id (some p)
    a.entries.foldl (init := s) fun s e =>
      match s.pool id with
      | none => s
      | some p => match p.seq e.seq with
        | none => s
        | some q =>
          if e.status ≠ 0 then s
          else
            let mine := pages.filter fun x => x.seq == e.seq
            let tables := q.tables.mapIdx fun l t => t ++ (mine.filter fun x => x.layer == l).map (·.phys)
            let q := { q with tables := tables, held := max q.held ((tables.map List.length).foldl max 0),
                              alloc := e.qPos + e.qCount }
            s.putSeq id (p.setSeq e.seq (some q)) e.seq

/-- Pages released by AUTO_RELEASE at length `len` (R163): their table entries marked released, the pages freed. -/
def Pool.release (p : Pool) (q : Seq) (len : Nat) : Seq × List Nat :=
  let goes := fun (i : Nat) => decide ((i + 1) * 64 + p.window ≤ len) && decide (p.prefix_ ≤ i * 64)
  ({ q with tables := q.tables.map fun t => t.mapIdx fun i n => if goes i then 0xFFFFFFFE else n },
    q.tables.flatMap fun t => (t.mapIdx fun i n => if goes i then n else 0xFFFFFFFE))

/-- The commit of the last layer's appending command (R163, R165): the append counter counts, and every sequence of the
batch takes its new length. -/
def State.commitLength (s : State) (id : Nat) (a : Attn) : State :=
  match s.pool id with
  | none => s
  | some p =>
    let n := p.appends + 1
    let s := s.setPool id (some { p with appends := n })
    a.entries.foldl (init := s) fun s e =>
      match s.pool id with
      | none => s
      | some p => match p.seq e.seq with
        | none => s
        | some q =>
          if e.status ≠ 0 then s
          else
            let q := { q with length := q.alloc, lastAppend := n, truncated := false }
            let (q, l) := if p.autoRelease then p.release q q.length else (q, [])
            s.putSeq id ((p.give l).setSeq e.seq (some q)) e.seq

end Sys2Proof.Machine
end

