-- ==== Sys2Proof/Machine/Transcend.lean ====
section
/-!
DEFINITION. Machine/Transcend.lean: the correctly rounded functions of 05 (cos_k, sin_k, cr_exp, cr_log): the FP32 value
nearest the real one. Each is computed in fixed point with 704 fraction bits, far beyond what the hardest rounding of an FP32
argument needs, and rounded once with a sticky last bit.
-/

namespace Sys2Proof.Machine

/-- Fraction bits of the fixed-point values of this file. -/
def fracBits : Nat := 704

/-- 1.0 in fixed point. -/
def one : Int := 2 ^ fracBits

/-- A fixed-point product. -/
def fmul (a b : Int) : Int := a * b / one

/-- Σ over the terms t, t·x/(n+1), t·x²/((n+1)(n+2)), ...: a power series whose n-th term is the one before times x / n. -/
def expSeries : Nat → Nat → Int → Int → Int → Int
  | 0, _, _, _, acc => acc
  | f + 1, n, x, t, acc => expSeries f (n + 1) x (fmul t x / (n : Int)) (acc + t)

/-- e^r for 0 ≤ r < 1. -/
def expFix (r : Int) : Int := expSeries 160 1 r one 0

/-- atanh z = z + z³/3 + z⁵/5 + ... for |z| ≤ 1/3. -/
def atanhSeries : Nat → Nat → Int → Int → Int → Int
  | 0, _, _, _, acc => acc
  | f + 1, n, z2, t, acc => atanhSeries f (n + 2) z2 (fmul t z2) (acc + t / (n : Int))

/-- ln of a fixed-point value between 1 and 2. -/
def lnFix (v : Int) : Int :=
  let z := (v - one) * one / (v + one)
  2 * atanhSeries 240 1 (fmul z z) z 0

/-- ln 2. -/
def ln2 : Int := lnFix (2 * one)

/-- arctan (1/k) = 1/k - 1/3k³ + ... -/
def atanInv : Nat → Nat → Int → Int → Int → Int
  | 0, _, _, _, acc => acc
  | f + 1, n, k2, t, acc => atanInv f (n + 2) k2 (-(t / k2)) (acc + t / (n : Int))

/-- π/2 by Machin's formula. -/
def halfPi : Int := 2 * (4 * atanInv 160 1 25 (one / 5) 0 - atanInv 50 1 57121 (one / 239) 0)

/-- The alternating series of sine (n = 1, t = r) and cosine (n = 0, t = 1) in r². -/
def trigSeries : Nat → Nat → Int → Int → Int → Int
  | 0, _, _, _, acc => acc
  | f + 1, n, r2, t, acc => trigSeries f (n + 2) r2 (-(fmul t r2 / ((n + 1 : Nat) * (n + 2 : Nat) : Int))) (acc + t)

/-- Sine and cosine of 0 ≤ r < π/2. -/
def sinFix (r : Int) : Int := trigSeries 90 1 (fmul r r) r 0
def cosFix (r : Int) : Int := trigSeries 90 0 (fmul r r) one 0

/-- Cosine and sine of any fixed-point angle. -/
def trigFix (y : Int) : Int × Int :=
  let q := y / halfPi
  let r := y - q * halfPi
  let c := cosFix r
  let s := sinFix r
  match (q % 4).toNat with
  | 0 => (c, s)
  | 1 => (-s, c)
  | 2 => (-c, -s)
  | _ => (s, -c)

/-- A fixed-point value times 2^k as an exact value with a sticky last bit. -/
def stickyVal (v : Int) (k : Int) : FVal :=
  if v = 0 then .fin false 0 0 else .fin (decide (v < 0)) (2 * v.natAbs + 1) (k - fracBits - 1)

/-- A finite value in fixed point; every FP32 value has fewer than 704 fraction bits. -/
def toFix (neg : Bool) (m : Nat) (e : Int) : Int :=
  let k := e + fracBits
  signedMant neg (if 0 ≤ k then m <<< k.toNat else m >>> (-k).toNat)

/-- cr_exp of an FP32 pattern. -/
def crExp (b : Nat) : Nat :=
  match f32 b with
  | .nan => 0x7FC00000
  | .inf neg => if neg then 0 else 0x7F800000
  | .fin neg m e =>
    if m = 0 then 0x3F800000
    else
      let x := toFix neg m e
      if 128 * one ≤ x then 0x7F800000
      else if x ≤ -(128 * one) then 0
      else
        let k := x / ln2
        toF32 (stickyVal (expFix (x - k * ln2)) k)

/-- cr_log of an FP32 pattern. -/
def crLog (b : Nat) : Nat :=
  match f32 b with
  | .nan => 0x7FC00000
  | .inf neg => if neg then 0x7FC00000 else 0x7F800000
  | .fin neg m e =>
    if m = 0 then 0xFF800000
    else if neg then 0x7FC00000
    else if b = 0x3F800000 then 0
    else
      let k := (m.log2 : Int)
      toF32 (stickyVal (lnFix (toFix false m (-k)) + (e + k) * ln2) 0)

/-- cos (when `cos`) or sin of p × θ for an FP32 θ. -/
def crTrig (cos : Bool) (p theta : Nat) : Nat :=
  match f32 theta with
  | .fin neg m e =>
    if p * m = 0 then (if cos then 0x3F800000 else 0)
    else
      let (c, s) := trigFix (toFix false (p * m) e)
      toF32 (stickyVal (if cos then c else if neg then -s else s) 0)
  | _ => 0x7FC00000

end Sys2Proof.Machine
end

