-- ==== Sys2Proof/Machine/Attention.lean ====
section
/-!
DEFINITION. Machine/Attention.lean: attention commands (05): the descriptor and length-table checks, key lists, expansion,
rotation, scores and softmax, the backward pass and the append conversion (R149 to R159).
-/

namespace Sys2Proof.Machine

/-! ## What a running command sees of tile SRAM (R59) -/

/-- A byte at a device address as a command sees it: its own shadow, then what its windows brought, then memory. -/
def State.peek (s : State) (r : CmdRun) (a : Nat) : Byte :=
  match Tbl.get none r.shadow a with
  | some b => b
  | none => match Tbl.get none r.inputs a with
    | some b => b
    | none => Tbl.get 0 s.mem a

/-- `n` bytes as a command sees them. -/
def State.peekBytes (s : State) (r : CmdRun) (a n : Nat) : List Byte := (List.range n).map fun i => s.peek r (a + i)

/-- A little-endian value as a command sees it. -/
def State.peekVal (s : State) (r : CmdRun) (a n : Nat) : Nat := leVal (s.peekBytes r a n)

/-- Bytes written to an overlay. -/
def overlay (t : Tbl (Option Byte)) (a : Nat) : List Byte → Tbl (Option Byte)
  | [] => t
  | b :: l => overlay (Tbl.set none t a (some b)) (a + 1) l

/-- Bytes written to a command's shadow storage. -/
def CmdRun.poke (r : CmdRun) (a : Nat) (l : List Byte) : CmdRun := { r with shadow := overlay r.shadow a l }

/-- The command's tiles as an engine has them at a beat: what they held 12 beats before (R48). -/
def CmdRun.asOf (r : CmdRun) (beat : Nat) : CmdRun :=
  match r.past.find? fun x => decide (x.1 + 12 ≤ beat) with
  | some x => { r with inputs := x.2.1, shadow := x.2.2 }
  | none => { r with inputs := [], shadow := [] }

/-- What the command's tiles hold at the beginning of a beat, kept for the engines. -/
def CmdRun.keepPast (r : CmdRun) (beat : Nat) : CmdRun := { r with past := (beat, r.inputs, r.shadow) :: r.past.take 12 }

/-- A value of the shadow alone, 0 where nothing has been written: an accumulator that starts at +0 (R159). -/
def CmdRun.shadowVal (r : CmdRun) (a n : Nat) : Nat :=
  leVal ((List.range n).map fun i => (Tbl.get none r.shadow (a + i)).getD 0)

/-! ## The tiles of a command -/

/-- The tiles of one copy of a command in ascending order, as (die, tile). -/
def Program.copyTiles (p : Program) (c : Command) (secondary : Bool) : List (Nat × Nat) :=
  (p.copyDies secondary).flatMap fun d =>
    ((List.range 40).filter fun t => bit (c.tiles.getD d 0) t).map fun t => (d, t)

/-- Is a tile of the secondary copy? -/
def Program.isSecondary (p : Program) (d : Nat) : Bool := decide (3 ≤ d) && p.paired (d - 3)

/-! ## The layer descriptor (Table 5.1) -/

/-- An `n`-byte field of the layer descriptor. -/
def Attn.f (a : Attn) (o n : Nat) : Nat := fieldAt a.layer o n
def Attn.flag (a : Attn) (k : Nat) : Bool := bit (a.f 3 1) k
def Attn.append (a : Attn) : Bool := a.flag 0
def Attn.causal (a : Attn) : Bool := a.flag 1
def Attn.backward (a : Attn) : Bool := a.flag 2
def Attn.saveStats (a : Attn) : Bool := a.flag 3
def Attn.pool (a : Attn) : Nat := a.f 0 2
def Attn.layerNo (a : Attn) : Nat := a.f 2 1
def Attn.heads (a : Attn) : Nat := a.f 4 2
def Attn.headDim (a : Attn) : Nat := a.f 6 2
def Attn.rotary (a : Attn) : Nat := a.f 8 2
def Attn.budget (a : Attn) : Nat := a.f 16 4
def Attn.allocBeat (a : Attn) : Nat := a.f 32 8

/-- Heads that each tile takes, the last one taking the remainder (05). -/
def Attn.localHeads (a : Attn) (tiles : Nat) : Nat := ceilDiv a.heads (max 1 tiles)

/-- The heads of the tile that stands `k`-th in ascending order of `tiles`: the last one takes the remainder (05). -/
def Attn.headsOf (a : Attn) (tiles k : Nat) : Nat := min (a.localHeads tiles) (a.heads - k * a.localHeads tiles)

/-- The heads of a tile of a command's copy; none on a tile that is not of the command. -/
def Attn.headsOn (a : Attn) (p : Program) (c : Command) (d t : Nat) : Nat :=
  let l := p.copyTiles c (p.isSecondary d)
  match l.idxOf? (d, t) with
  | some k => a.headsOf l.length k
  | none => 0

/-- The regions of tile SRAM that the descriptor names, as (offset, bytes), for `n` tiles and a pool. -/
def Attn.regions (a : Attn) (n : Nat) (p : Pool) : List (Nat × Nat) :=
  let h := a.localHeads n
  let rows := h * a.budget * a.headDim
  [(a.f 48 4, a.entries.length), (a.f 52 4, 4 * a.f 12 1), (a.f 56 4, 2 * a.rotary),
   (a.f 60 4, 2 * h * a.headDim * p.width), (a.f 64 4, 2 * h * a.headDim * p.width), (a.f 68 4, 2 * rows),
   (a.f 72 4, (if a.f 13 1 = 3 then 2 else 4) * rows)] ++
  (if a.append then [(a.f 76 4, 4 * a.budget * p.width)] else []) ++
  (if a.saveStats || a.backward then [(a.f 80 4, 8 * h * a.budget)] else []) ++
  (if a.backward then [(a.f 84 4, 2 * rows), (a.f 88 4, 4 * rows), (a.f 92 4, 8 * rows)] else []) ++
  [(a.f 96 4, a.f 14 2 * p.pageBytes)] ++
  (if a.f 47 1 = 0 then [(fieldAt a.layer 40 7, 16 + 16 * a.entries.length)] else [])

/-- The rules of Table 5.2; reserved bits of the descriptor are ignored (R15). -/
def State.layerOk (s : State) (p : Program) (c : Command) (a : Attn) : Bool :=
  match s.pool a.pool with
  | none => false
  | some q =>
    let n := (p.copyTiles c false).length
    let regs := (a.regions n q).filter fun x => x.2 != 0
    c.tiles.getD q.die 0 != 0 && (if p.fn = 0 then q.stall == 0 else q.stall == p.fn) && decide (a.layerNo < q.layers) &&
    within 1 128 a.heads && within 32 256 a.headDim && a.headDim % 16 == 0 && decide (a.rotary ≤ a.headDim) &&
    a.rotary % 2 == 0 && within 1 4096 (a.f 10 2) && decide (a.f 12 1 ≤ 64) && (a.f 13 1 == 3 || a.f 13 1 == 5) &&
    decide (a.f 14 2 ≤ 32) && within 1 65536 a.budget && decide (a.f 47 1 ≤ 2) && !(a.append && a.backward) &&
    ((a.allocBeat != 0) == (a.append && a.layerNo == 0)) &&
    (a.allocBeat == 0 || within c.start c.commit a.allocBeat) &&
    regs.all (fun x => decide (x.1 + x.2 ≤ tileSize)) && pairwise (fun x y => touch x.1 x.2 y.1 y.2) regs

/-! ## Keys (R150, R151) -/

/-- The global positions of a layer as the lead tile holds them. -/
def State.globals (s : State) (r : CmdRun) (a : Attn) (lead : Nat) : List Nat :=
  (List.range (a.f 12 1)).map fun i => s.peekVal r (lead + a.f 52 4 + 4 * i) 4

/-- The window of a query at position `p` of a sequence of `n` positions, as first and last. -/
def Attn.windowOf (a : Attn) (p n : Nat) : Nat × Nat :=
  let w := a.f 10 2
  if a.causal then (p + 1 - w, p) else (p - (w - 1) / 2, min (p + ceilDiv (w - 1) 2) (n - 1))

/-- The keys of a query in key order. -/
def Attn.keys (a : Attn) (globals : List Nat) (p n : Nat) : List Nat :=
  let w := a.windowOf p n
  (globals.filter fun g => decide (g < n) && (!a.causal || decide (g ≤ p)) && (decide (g < w.1) || decide (w.2 < g))) ++
    (List.range (w.2 + 1 - w.1)).map fun i => w.1 + i

/-! ## The length table (R152, R153) -/

/-- Where the length table stands (length_src, encoded as src in Table 4.2): nowhere when its handover buffer was read as zeros (R56). -/
def State.lengthAddr (s : State) (p : Program) (it : Iteration) (a : Attn) (lead : Nat) : Option Nat :=
  let kind := a.f 47 1
  let x := fieldAt a.layer 40 7
  if kind = 0 then some (lead + x)
  else if kind = 1 then
    (it.reads.find? fun r => (p.handovers[r.1]?).any fun h => h.bufId == x % 1024).bind (·.2.2)
  else some (s.devAddr p.fn x)

/-- A value of the length table, as the command sees it: 0 in a table of zeros. -/
def State.lengthVal (s : State) (r : CmdRun) (addr : Option Nat) (o n : Nat) : Nat :=
  match addr with
  | some b => s.peekVal r (b + o) n
  | none => 0

/-- The entries of a length table. -/
def State.lengthEntries (s : State) (r : CmdRun) (addr : Option Nat) : List KvEntry :=
  (List.range (min 1024 (s.lengthVal r addr 0 2))).map fun e =>
    { seq := s.lengthVal r addr (16 + 16 * e) 4, qPos := s.lengthVal r addr (20 + 16 * e) 4,
      qCount := s.lengthVal r addr (24 + 16 * e) 4, status := 0 }

/-- Is an entry one whose sequence was truncated below its first query (R153, status 1)? -/
def Pool.truncatedEntry (p : Pool) (e : KvEntry) : Bool :=
  match p.seq e.seq with
  | some q => q.truncated && decide (q.length < e.qPos)
  | none => false

/-- The conditions of R152 (and R172) on one entry. DESIGN CHOICE (log 123): the q_pos rules that R153 exempts a truncated entry from are those
that compare it with the sequence's length; its end stays within max_seq_pages and 1,048,576. -/
def Pool.entryOk (p : Pool) (a : Attn) (e : KvEntry) : Bool :=
  match p.seq e.seq with
  | none => false
  | some q =>
    let stop := e.qPos + e.qCount
    decide (1 ≤ e.qCount) && decide (stop ≤ p.maxPages * 64) && decide (stop ≤ 1048576) &&
    (p.truncatedEntry e ||
      (if a.backward then e.qPos == 0 && decide (stop ≤ q.length)
       else if a.append then e.qPos == q.length && (!p.safety || decide (stop ≤ q.reserve * 64))
       else decide (stop ≤ q.length)))

/-- The length table meets R152. -/
def Pool.lengthsOk (p : Pool) (a : Attn) (count total : Nat) : Bool :=
  within 1 1024 count && total == (a.entries.map (·.qCount)).foldl (· + ·) 0 && decide (total ≤ a.budget) &&
    pairwise (fun x y => x.seq == y.seq) a.entries && a.entries.all (p.entryOk a)

/-- Does position `j` of a sequence lie in a released page of the layer? -/
def Seq.released (q : Seq) (layer j : Nat) : Bool := (q.tables.getD layer []).getD (j / 64) 0 == 0xFFFFFFFE

/-- The status byte of an entry (R153). -/
def Pool.statusOf (p : Pool) (a : Attn) (globals : List Nat) (e : KvEntry) : Nat :=
  if p.truncatedEntry e then 1
  else match p.seq e.seq with
    | none => 0
    | some q =>
      if (List.range e.qCount).any fun i =>
          (a.keys globals (e.qPos + i) (e.qPos + e.qCount)).any fun j => q.released a.layerNo j then 2 else 0

/-- The start of an attention command (R149, R152, R153): the code it fails with, or what it works on. -/
def State.attnStart (s : State) (p : Program) (it : Iteration) (c : Command) (r : CmdRun) (layer : List Byte) :
    Except Nat Attn :=
  match p.leadTile c false with
  | none => .error 0x210
  | some (d, t) =>
    let lead := tileBase d t
    let a : Attn := { layer := layer, entries := [] }
    let addr := s.lengthAddr p it a lead
    let a := { a with entries := s.lengthEntries r addr }
    if !s.layerOk p c a then .error 0x210
    else match s.pool a.pool with
      | none => .error 0x210
      | some q =>
        if !q.lengthsOk a (s.lengthVal r addr 0 2) (s.lengthVal r addr 4 4) then .error 0x211
        else
          let g := s.globals r a lead
          .ok { a with entries := a.entries.map fun e => { e with status := q.statusOf a g e } }

/-- Query row of the first query of entry `e` (05). -/
def Attn.firstRow (a : Attn) (e : Nat) : Nat := ((a.entries.take e).map (·.qCount)).foldl (· + ·) 0

/-! ## Sums by the tree and block order of R94 -/

/-- The sum of FP32 patterns by the tree and block order of R94, from +0. -/
def treeSum (l : List Nat) : Nat :=
  toF32 ((chunksOf 16 (l.length + 1) (l.map f32)).foldl (fun acc b => rne32 (acc.add (tree16 b))) (FVal.fin false 0 0))

/-- The dot product of two lists of FP32 patterns: rne32 products, summed by R94. -/
def dot (a b : List Nat) : Nat := treeSum (List.zipWith f32mul a b)

/-- An FP32 pattern of a BF16 one, and the BF16 rounding of an FP32 pattern (R84). -/
def ofBf16 (b : Nat) : Nat := b % 65536 * 65536
def roundBf16 (b : Nat) : Nat := toBf16 (f32 b)

/-- The larger of two FP32 values; NaN when one is (R157). -/
def f32max (a b : Nat) : Nat :=
  if f32 a = .nan ∨ f32 b = .nan then 0x7FC00000 else if (f32 a).le (f32 b) then b else a

/-! ## Rows, expansion, rotation (R154 to R156) -/

/-- Does a die's copy of a command use the mirror of a pool: is it of the other side of the pairs than the pool's home die (R173)? -/
def Pool.useMirror (q : Pool) (p : Program) (d : Nat) : Bool :=
  q.safety && p.paired (q.die % 3) && decide (3 ≤ d) != decide (3 ≤ q.die)

/-- The base of the pool copy that a die's copy of a command uses (R173). -/
def State.poolBase (s : State) (p : Program) (q : Pool) (d : Nat) : Nat :=
  s.poolAddr q (if q.useMirror p d then q.mirror else q.base)

/-- The element codes of the latent row of a position: a row that this command appended, or the row in its page (R160). -/
def State.latentRow (s : State) (p : Program) (r : CmdRun) (a : Attn) (q : Pool) (e : KvEntry) (entry d j : Nat) :
    List Nat :=
  match (if a.append && decide (e.qPos ≤ j) then r.rows.find? fun x =>
      x.secondary == p.isSecondary d && x.entry == entry && x.token == j - e.qPos else none) with
  | some x => x.codes
  | none =>
    let n := (((q.seq e.seq).map fun x => (x.tables.getD a.layerNo []).getD (j / 64) 0).getD 0)
    let addr := s.poolBase p q d + n * q.pageBytes + j % 64 * q.width * q.elemBytes
    (List.range q.width).map fun i => s.devVal (addr + i * q.elemBytes) q.elemBytes

/-- The row of an up-projection table for local head `h` and element `k`. -/
def State.upRow (s : State) (r : CmdRun) (tile off h k headDim width : Nat) : List Nat :=
  (List.range width).map fun i => ofBf16 (s.peekVal r (tile + off + 2 * ((h * headDim + k) * width + i)) 2)

/-- A latent row expanded by a table (R154), as BF16 values in FP32 form. -/
def State.expand (s : State) (r : CmdRun) (a : Attn) (tile off h width : Nat) (row : List Nat) : List Nat :=
  (List.range a.headDim).map fun k =>
    ofBf16 (roundBf16 (f32mul (dot (s.upRow r tile off h k a.headDim width) row) (a.f 24 4)))

/-- The rotation of a vector for a position (R156), by +θ or -θ, without the final rounding. -/
def State.rotate (s : State) (r : CmdRun) (a : Attn) (tile pos : Nat) (back : Bool) (v : List Nat) : List Nat :=
  let half := a.rotary / 2
  let pairOf := fun (i : Nat) => if a.flag 4 then (i % half, i % half + half, decide (i < half))
    else (i / 2 * 2, i / 2 * 2 + 1, i % 2 == 0)
  v.mapIdx fun i x =>
    if a.rotary ≤ i then x
    else
      let (ia, ib, first) := pairOf i
      let k := if a.flag 4 then i % half else i / 2
      let theta := s.peekVal r (tile + a.f 56 4 + 4 * k) 4
      let co := crTrig true pos theta
      let si0 := crTrig false pos theta
      let si := if back then (if si0 % 2 ^ 31 = 0 then si0 else si0 ^^^ 0x80000000) else si0
      let va := v.getD ia 0
      let vb := v.getD ib 0
      if first then f32sub (f32mul va co) (f32mul vb si) else f32add (f32mul va si) (f32mul vb co)

/-- A query or key rotated and rounded to BF16 (R156). -/
def State.rotateBf16 (s : State) (r : CmdRun) (a : Attn) (tile pos : Nat) (v : List Nat) : List Nat :=
  (s.rotate r a tile pos false v).map fun x => ofBf16 (roundBf16 x)

/-! ## The forward pass (R157) -/

/-- The running values of a row: maximum, sum, and output accumulators. -/
structure SoftRow where
  m : Nat
  l : Nat
  o : List Nat

/-- One block of keys: the scores and the values of each key. -/
def SoftRow.block (x : SoftRow) (keys : List (Nat × List Nat)) : SoftRow :=
  let mNew := keys.foldl (fun m k => f32max m k.1) x.m
  let a := crExp (f32sub x.m mNew)
  let p := keys.map fun k => crExp (f32sub k.1 mNew)
  { m := mNew,
    l := f32add (f32mul x.l a) (treeSum p),
    o := x.o.mapIdx fun d v => f32add (f32mul v a) (treeSum (List.zipWith (fun pj (k : Nat × List Nat) => f32mul pj (k.2.getD d 0)) p keys)) }

/-- A row's attention: maximum, log-sum-exp, and outputs before their format. -/
def softmaxRow (headDim : Nat) (keys : List (Nat × List Nat)) : Nat × Nat × List Nat :=
  let x := (chunksOf 64 (keys.length + 1) keys).foldl SoftRow.block ⟨0xFF800000, 0, List.replicate headDim 0⟩
  (x.m, f32add x.m (crLog x.l), x.o.map fun v => f32div v x.l)

/-- A key's rotated vector and value for a local head. -/
def State.keyOf (s : State) (p : Program) (r : CmdRun) (a : Attn) (q : Pool) (e : KvEntry) (entry d tile h j : Nat) :
    List Nat × List Nat :=
  let row := (s.latentRow p r a q e entry d j).map fun c => toF32 (decodeFmt q.fmt c)
  (s.rotateBf16 r a tile j (s.expand r a tile (a.f 60 4) h q.width row), s.expand r a tile (a.f 64 4) h q.width row)

/-- Bytes of a list of FP32 patterns in a format. -/
def rowBytes (fmt : Nat) (l : List Nat) : List Byte :=
  l.flatMap fun v => if fmt = 3 then leBytes 2 (roundBf16 v) else leBytes 4 v

/-- `n` BF16 elements in FP32 form. -/
def State.bf16Row (s : State) (r : CmdRun) (addr n : Nat) : List Nat :=
  (List.range n).map fun i => ofBf16 (s.peekVal r (addr + 2 * i) 2)

/-- FP32 accumulators in shadow storage with `g` applied to each. -/
def CmdRun.accumulate (r : CmdRun) (addr : Nat) (n : Nat) (g : Nat → Nat → Nat) : CmdRun :=
  r.poke addr (rowBytes 5 ((List.range n).map fun i => g i (r.shadowVal (addr + 4 * i) 4)))

/-- The backward pass of one query row and head (R158): dQ is stored rotated back, dK and dV gather in shadow. -/
def State.backRow (s : State) (r : CmdRun) (a : Attn) (tile idx heads entryRow pos : Nat) (qRot out : List Nat)
    (keys : List (Nat × Nat × List Nat × List Nat)) : CmdRun :=
  let n := a.headDim
  let dO := s.bf16Row r (tile + a.f 84 4 + 2 * idx * n) n
  let lse := s.peekVal r (tile + a.f 80 4 + 8 * idx + 4) 4
  let dSum := dot dO out
  let kv := tile + a.f 92 4
  let vBase := kv + 4 * heads * a.budget * n
  let h := idx / a.budget
  let (r, dQ) := keys.foldl (init := (r, List.replicate n 0)) fun (acc : CmdRun × List Nat) k =>
    let (j, sj, kRot, v) := k
    let pj := crExp (f32sub sj lse)
    let dS := f32mul pj (f32sub (dot dO v) dSum)
    let ds := f32mul dS (a.f 20 4)
    let row := (h * a.budget + entryRow + j) * n
    let r := acc.1.accumulate (kv + 4 * row) n fun i x => f32add x (f32mul ds (qRot.getD i 0))
    let r := r.accumulate (vBase + 4 * row) n fun i x => f32add x (f32mul pj (dO.getD i 0))
    (r, acc.2.mapIdx fun i x => f32add x (f32mul ds (kRot.getD i 0)))
  r.poke (tile + a.f 88 4 + 4 * idx * n) (rowBytes 5 (s.rotate r a tile pos true dQ))

/-- One query row of an entry for a local head of a tile (R150 to R158); a skipped entry's row is +0 (R153). DESIGN CHOICE (log 123): of a BACKWARD
command that is the row at out_offset, and its rows of dQ, dK and dV are left unwritten. A slot beyond the entry's queries or the tile's heads is idle (R147), and the rows of a backward pass come in row order (R159): one that comes before its turn
adds nothing. -/
def State.attendRow (s : State) (p : Program) (c : Command) (r : CmdRun) (a : Attn) (d t entry row h : Nat) : CmdRun :=
  match a.entries[entry]?, s.pool a.pool with
  | some e, some q =>
    let tile := tileBase d t
    let n := a.headDim
    let heads := a.headsOn p c d t
    let at_ := a.firstRow entry + row
    let idx := h * a.budget + at_
    let fmt := a.f 13 1
    let outAt := tile + a.f 72 4 + (if fmt = 3 then 2 else 4) * idx * n
    let statsAt := tile + a.f 80 4 + 8 * idx
    let save := fun (r : CmdRun) (m lse : Nat) => if a.saveStats then r.poke statsAt (leBytes 4 m ++ leBytes 4 lse) else r
    let turn := (d * 64 + t) * 128 + h
    if e.qCount ≤ row ∨ heads ≤ h ∨ (a.backward ∧ Tbl.get 0 r.backRows turn ≠ at_) then r
    else
      let r := if a.backward then { r with backRows := Tbl.set 0 r.backRows turn (at_ + 1) } else r
      if e.status ≠ 0 then
        save (r.poke outAt (rowBytes fmt (List.replicate n 0))) 0xFF800000 0xFF800000
      else
        let pos := e.qPos + row
        let lead := match p.leadTile c false with
          | some (ld, lt) => tileBase ld lt
          | none => tile
        let qRot := s.rotateBf16 r a tile pos (s.bf16Row r (tile + a.f 68 4 + 2 * idx * n) n)
        let keys := (a.keys (s.globals r a lead) pos (e.qPos + e.qCount)).map fun j =>
          let (k, v) := s.keyOf p r a q e entry d tile h j
          (j, f32mul (dot qRot k) (a.f 20 4), k, v)
        let (m, lse, out) := softmaxRow n (keys.map fun k => (k.2.1, k.2.2.2))
        if a.backward then s.backRow r a tile idx heads (a.firstRow entry) pos qRot out keys
        else save (r.poke outAt (rowBytes fmt out)) m lse
  | _, _ => r

/-- The gradient of one key row rotated back and stored (R159), once every row of the tile's head has been added. -/
def State.finishKey (s : State) (p : Program) (c : Command) (r : CmdRun) (a : Attn) (d t entry key h : Nat) : CmdRun :=
  let tile := tileBase d t
  let queries := ((a.entries[entry]?).map (·.qCount)).getD 0
  let total := a.firstRow a.entries.length
  if queries ≤ key ∨ a.headsOn p c d t ≤ h ∨ Tbl.get 0 r.backRows ((d * 64 + t) * 128 + h) ≠ total then r
  else
    let addr := tile + a.f 92 4 + 4 * ((h * a.budget + a.firstRow entry + key) * a.headDim)
    let v := (List.range a.headDim).map fun i => r.shadowVal (addr + 4 * i) 4
    r.poke addr (rowBytes 5 (s.rotate r a tile key true v))

/-- The append conversion of a new token's latent (R155), with what it clipped, converted and found NaN; `quant` says whether its command has a
QUANT_PARAMS entry: without one no quantising conversion is performed, and the code is open (R102, log 121). DESIGN CHOICE (log 121): it rounds
by R84 also where the entry has OUT_STOCHASTIC (R111). -/
def State.appendRow (s : State) (p : Program) (r : CmdRun) (a : Attn) (quant : Bool) (d t entry token : Nat) : CmdRun × Nat × Nat × Nat :=
  match a.entries[entry]?, s.pool a.pool with
  | some e, some q =>
    if e.status ≠ 0 ∨ e.qCount ≤ token ∨ !a.append then (r, 0, 0, 0)
    else
      let at_ := tileBase d t + a.f 76 4 + 4 * (a.firstRow entry + token) * q.width
      let conv := (List.range q.width).map fun i =>
        let x := s.peekVal r (at_ + 4 * i) 4
        if q.fmt = 3 then (⟨roundBf16 x, false, false⟩ : Conv)
        else if quant then convertTo q.fmt (f32 (f32mul x (a.f 28 4))) none else ⟨Config.unconverted q.fmt x, false, false⟩
      let side := p.isSecondary d
      let rows := r.rows.filter fun x => !(x.secondary == side && x.entry == entry && x.token == token)
      ({ r with rows := rows ++ [⟨side, entry, token, conv.map (·.code)⟩] },
        if q.fmt = 3 || !quant then (0, 0, 0)
        else ((conv.filter (·.clipped)).length, conv.length, (conv.filter (·.nan)).length))
  | _, _ => (r, 0, 0, 0)

/-- The appended rows written to their pages (R165), in the pool and, for a SAFETY pool, in its mirror: to each the rows of the copy of
the command that uses it, or those of the only copy that ran (R173). -/
def State.writeRows (s : State) (p : Program) (a : Attn) (rows : List NewRow) : State :=
  match s.pool a.pool with
  | none => s
  | some q =>
    let sides := if q.safety then [(q.base, decide (3 ≤ q.die)), (q.mirror, decide (q.die < 3))] else [(q.base, decide (3 ≤ q.die))]
    sides.foldl (init := s) fun s b =>
      let side := b.2 && p.paired (q.die % 3)
      let mine := rows.filter fun x => x.secondary == side ||
        !rows.any fun y => y.secondary == side && y.entry == x.entry && y.token == x.token
      mine.foldl (init := s) fun s x =>
        match a.entries[x.entry]? with
        | none => s
        | some e =>
          let j := e.qPos + x.token
          let n := (((q.seq e.seq).map fun y => (y.tables.getD a.layerNo []).getD (j / 64) 0).getD 0)
          s.devWrite (s.poolAddr q b.1 + n * q.pageBytes + j % 64 * q.width * q.elemBytes)
            (x.codes.flatMap fun v => leBytes q.elemBytes v)

/-! ## The hot set (05) -/

/-- The page of a sequence's layer at an index, in its table or among pages that its command holds in shadow. -/
def Seq.pageAt (x : Seq) (seq layer : Nat) (new : List ShadowPage) (n : Nat) : Option Nat :=
  ((x.tables.getD layer [])[n]?).or ((new.find? fun y => y.seq == seq && y.layer == layer && y.page == n).map (·.phys))

/-- The hot slots of a command, of every tile: the pages of its keys, entries in table order and for each entry from the newest page backwards,
until the slots are full; of an appending command, the last slots hold the tail page of each of its entries, one that does not exist yet from
alloc_beat on (05). -/
def Pool.hotPages (q : Pool) (a : Attn) (globals : List Nat) (new : List ShadowPage) : List (Option Nat) :=
  let live := a.entries.filter fun e => e.status == 0
  let tails := if a.append then live.map fun e =>
      (q.seq e.seq).bind fun x => x.pageAt e.seq a.layerNo new ((e.qPos + e.qCount - 1) / 64) else []
  let rest := live.flatMap fun e =>
    match q.seq e.seq with
    | none => []
    | some x =>
      let keys := (List.range e.qCount).flatMap fun i => a.keys globals (e.qPos + i) (e.qPos + e.qCount)
      let table := x.tables.getD a.layerNo []
      ((List.range table.length).reverse.filter fun n => keys.any fun j => j / 64 == n).map fun n => table.getD n 0
  let slots := a.f 14 2
  let first := (rest.filter fun n => !tails.contains (some n)).take (slots - tails.length)
  (first.map some ++ List.replicate (slots - tails.length - first.length) none ++ tails).take slots

/-- The page manager fills the hot slots of every tile of a command: at its start all of them, and at alloc_beat those of the pages `new` that
the command takes (05). -/
def State.fillHot (s : State) (p : Program) (c : Command) (r : CmdRun) (a : Attn) (new : List ShadowPage) : CmdRun :=
  match s.pool a.pool, p.leadTile c false with
  | some q, some (ld, lt) =>
    let slots := q.hotPages a (s.globals r a (tileBase ld lt)) new
    (p.copyTiles c false ++ p.copyTiles c true).foldl (init := r) fun r y =>
      (List.range slots.length).foldl (init := r) fun r i =>
        match slots[i]?.join with
        | none => r
        | some n => if new.isEmpty || new.any (·.phys == n) then
            r.poke (tileBase y.1 y.2 + a.f 96 4 + i * q.pageBytes) (s.devRead (s.poolBase p q y.1 + n * q.pageBytes) q.pageBytes) else r
  | _, _ => r

end Sys2Proof.Machine
end

