-- ==== Sys2Proof/Machine/Gauge.lean ====
section
/-!
DEFINITION. Machine/Gauge.lean: what the gauge units, the swatch scheduler and the repair of tiles share with other families:
restart requests (R53, R372, R374), tile faults (R53, R54), the redundancy request (R348), mismatches (R342 to R346), and
the abort of slices by a new booking (R390).
-/

namespace Sys2Proof.Machine

/-! ## Restart requests (R372, R374) -/

/-- The restarts of the current 10 minutes, counted from the first (R374). -/
def State.restartWindow (s : State) : List Nat :=
  match s.safety.restart.window with
  | [] => []
  | t :: l => if t + 600000000000 ≤ s.now then [] else t :: l

/-- Does a main-path start run at present: a restart, or a boot (R53)? -/
def State.mainStarting (s : State) : Bool :=
  s.safety.restart.state == 1 || (match s.transition with | .boot _ => true | _ => false)

/-- A main-path restart is requested (R53, R372, R374): merged into one that runs or is asked for; beyond RESTART_LIMIT it is
not carried out and D4 is asked for. In Night Market it is held until Day-open has reached Drive-ready (R473). In the other
modes no restart starts (R378); what it would repair waits for the next start. With the request the device is in the fallback safe state:
authority passes to the fallback (R371, R372; the cause, where no record of the request's own gave it, is 0x840, log 101). -/
def State.requestRestart (s : State) (cause : Nat := 0x840) : State :=
  if s.mode = .nightMarket then
    { s with safety := { s.safety with restart := { s.safety.restart with held := true } } }
  else if !s.inDrive || s.mainStarting || s.safety.restart.requested then s
  else if s.restartLimit ≤ s.restartWindow.length then s.report 0x843 3 (request := some (9, 4))
  else
    let s := if s.safety.authority = 1 then s.setAuthority s.fallbackAuthority cause s.now else s
    { s with safety := { s.safety with restart := { s.safety.restart with requested := true } } }

/-- The fallback safe state (R371, R372): authority to fallback, and a restart. -/
def State.fallbackState (s : State) (cause time : Nat) : State :=
  let s := if s.inDrive && s.safety.authority == 1 then s.setAuthority s.fallbackAuthority cause time else s
  s.requestRestart

/-! ## Tile repair (R52 to R54) -/

/-- No repair of a tile is pending any longer. -/
def State.repaired (s : State) (d phys : Nat) : State :=
  let s := { s with fabric := { s.fabric with
    repairs := s.fabric.repairs.erase (d, phys), rowFaults := s.fabric.rowFaults.filter fun x => (x.1, x.2.1) != (d, phys) } }
  if s.fabric.repairs.any (·.1 == d) then s
  else (s.setFld .CD_TILE_STATE_REPAIR_PENDING 0 d).setFld .CD_TILE_STATE_PENDING_PHYS 0 d

/-- The spare rows of a bank that no repair uses, of 0 to 3 (Tables 14.5, 14.6). -/
def State.spareRows (s : State) (d phys bank : Nat) : List Nat :=
  let part := s.boot.factory
  let all := ((List.range (fieldAt part 6 2)).map fun i => fieldAt part (5960 + 4 * i) 4) ++ s.fabric.rowRepairs
  (List.range 4).filter fun k => all.all fun e => !(bits e 31 18 == (d * 64 + phys) * 32 + bank && bits e 7 6 == k)

/-- One failing row repaired by the lowest spare row of its bank, while one is left and the record has room (R54). -/
def State.repairRow (s : Option State) (x : Nat × Nat × Nat × Nat) : Option State :=
  match s with
  | none => none
  | some s =>
    let (d, phys, bank, row) := x
    match s.spareRows d phys bank with
    | [] => none
    | k :: _ =>
      if 512 ≤ s.fabric.rowRepairs.length then none
      else
        let e := d * 536870912 + phys * 8388608 + bank * 262144 + row * 256 + k * 64
        some { s with fabric := { s.fabric with rowRepairs := s.fabric.rowRepairs ++ [e] } }

/-- A physical tile is mapped out (R53): the tile map moves on to the next spare, or with no spare left the die is switched off (R54). -/
def State.mapOut (s : State) (d phys : Nat) : State :=
  let spare := decide (40 < (s.goodTiles d).length)
  let s := { s with fabric := { s.fabric with faulty := s.fabric.faulty ++ [(d, phys)] } }
  if spare then s.applyMap d else (s.report 0x150 2 (origin := d + 1)).setDie d false

/-- A logical tile's swatch and injection run on what now carries it (R53, R398). -/
def State.testAgain (s : State) (d t : Nat) : State :=
  { s with swatch := { s.swatch with
      toCover := if s.swatch.fullPass && !s.swatch.toCover.contains (d * 40 + t) then s.swatch.toCover ++ [d * 40 + t] else s.swatch.toCover
      unreported := s.swatch.unreported.filter fun x => !(x.1 == 3 && decide (12 + d % 6 * 40 + t = x.2)) } }

/-- A tile pending repair is repaired at a main-path start: its failing rows by spare rows of their banks while every fault of it is in
such a row and a spare is left (R54), otherwise it is mapped out (R53). -/
def State.repairTile (s : State) (d phys : Nat) : State :=
  let rows := s.fabric.rowFaults.filter fun x => (x.1, x.2.1) == (d, phys)
  let s := s.repaired d phys
  match (List.range 40).find? fun t => s.physOf d t == phys with
  | none => s
  | some t =>
    match rows, rows.foldl State.repairRow (some s) with
    | _ :: _, some s => (s.mapTile d (t, phys)).testAgain d t
    | _, _ => (s.mapOut d phys).testAgain d 39

/-- The sections of the programs that use a die are placed on it again (R53). -/
def State.loadAgain (s : State) (d : Nat) : State :=
  (s.programs.filter fun p => p.usesDie d).foldl (fun s p => s.preload p fun _ => true) s

/-- A tile is marked pending repair (R53): as a whole, or for the failing rows only while no other fault of it is known (R54). -/
def State.markTile (s : State) (d phys : Nat) (rows : List (Nat × Nat)) : State :=
  let f := s.fabric
  let known := f.repairs.contains (d, phys)
  let mine := f.rowFaults.filter fun x => (x.1, x.2.1) == (d, phys)
  let rest := f.rowFaults.filter fun x => (x.1, x.2.1) != (d, phys)
  let now := if rows.isEmpty || (known && mine.isEmpty) then []
    else mine ++ (rows.map fun r => (d, phys, r.1 % 32, r.2 % 1024)).filter fun x => !mine.contains x
  let s := { s with fabric := { f with repairs := if known then f.repairs else f.repairs ++ [(d, phys)], rowFaults := rest ++ now } }
  (s.setFld .CD_TILE_STATE_REPAIR_PENDING 1 d).setFld .CD_TILE_STATE_PENDING_PHYS phys d

/-- A fault traced to a physical tile (R53), or to rows of its SRAM (R54): marked and logged; repaired at once within a main-path start,
otherwise a restart is requested. -/
def State.tileFault (s : State) (d phys : Nat) (rows : List (Nat × Nat) := []) : State :=
  let s := (s.report 0x151 2 (origin := d + 1)).markTile d phys rows
  if s.mainStarting then ((s.repairTile d phys).writeField).loadAgain d else s.requestRestart 0x151

/-! ## Redundancy (R347 to R349) -/

/-- Does an iteration run the copies of pair `k`? -/
def Iteration.runsPair (p : Program) (it : Iteration) (k : Nat) : Bool := p.paired k && !bit it.split k

/-- Does an iteration run on die `d` (R347: the secondary copy of a split pair does not)? -/
def State.runsOn (s : State) (p : Program) (it : Iteration) (d : Nat) : Bool :=
  s.fabric.dieOn.getD d false && !(decide (3 ≤ d) && p.paired (d - 3) && bit it.split (d - 3))

/-- Does a command of an iteration run copies? -/
def Iteration.pairedNow (p : Program) (it : Iteration) (c : Command) : Bool :=
  (List.range 3).any fun k => it.runsPair p k && c.tiles.getD k 0 != 0

/-- Are the copies of pair `k` compared, outside a warm-up (R350)? -/
def Iteration.compares (p : Program) (it : Iteration) (k : Nat) : Bool := it.runsPair p k && !bit it.warm k

/-- Are copies of a command compared, outside a warm-up? -/
def Iteration.comparedNow (p : Program) (it : Iteration) (c : Command) : Bool :=
  (List.range 3).any fun k => it.compares p k && c.tiles.getD k 0 != 0

/-- Is a safety-relevant program's redundancy incomplete (R348)? -/
def Program.unprotected (p : Program) : Bool :=
  p.safety &&
    ((List.range 3).any (fun k => p.paired k && bit p.split k) || !p.warm.isEmpty ||
      (List.range 6).any fun d => !p.paired (d % 3) && p.commands.any fun c => c.tiles.getD d 0 != 0)

/-- Does the redundancy source request D2 (Table 6.8): a die off whose partner runs, or a running program unprotected? -/
def State.wantsPair (s : State) : Bool :=
  ((List.range 3).any fun k => s.fabric.dieOn.getD k false != s.fabric.dieOn.getD (k + 3) false) ||
  s.programs.any fun p => p.running.isSome && p.unprotected

/-- The pairs in HUB_CFG_GAUGE_STATUS.JOINED: a pair is joined while no slot's copies and no forced split keep it apart. -/
def State.showJoined (s : State) : State :=
  let m := s.gauge.splits.foldl (· ||| ·) s.gauge.forced
  s.setFld .HUB_CFG_GAUGE_STATUS_JOINED (7 - m % 8)

/-- The redundancy request follows its conditions (R348, Table 6.8). -/
def State.recheckPairs (s : State) : State :=
  if s.wantsPair then (if s.degrade.req.getD 1 0 < 2 then s.request 1 2 0 0x742 else s) else s.withdraw 1 0

/-! ## Mismatches (R342 to R346) -/

/-- The gauge state (Table 10.4): 0 NORMAL, 1 MISMATCH, 2 PROBATION, 3 RESTART_REQUESTED. -/
def State.gaugeState (s : State) : Nat := s.fld .HUB_CFG_GAUGE_STATUS_STATE

/-- The gauge state set. -/
def State.setGauge (s : State) (n : Nat) : State := s.setFld .HUB_CFG_GAUGE_STATUS_STATE n

/-- The outputs of an iteration are invalid (R342): its halves lose their ready bits and are never released, and COPYs
that wait for them complete with GAUGE_MISMATCH. -/
def State.invalidate (s : State) (p : Program) (it : Iteration) : State :=
  let s := s.modIteration p.fn p.slot it.number fun i => { i with invalid := true }
  let halves := it.served.filterMap fun x =>
    match p.windows[x.1]? with
    | some w => if w.target = 2 then some (w.addr % 1024, x.2) else none
    | none => none
  let s := halves.foldl (init := s) fun s h =>
    match s.buffer h.1 with
    | none => s
    | some b => match b.halves[h.2]? with
      | none => s
      | some y => if y.iter = some it.number then s.putHalf h.1 h.2 { y with ready := false, pendingVerdict := false, invalid := true } else s
  s.finishCopies (fun w => halves.contains w) 0x720 (if s.inDrive then 3 else 2)

/-- The physical tiles that a targeted swatch covers (R344): those behind logical tiles of a die of a pair and its
partner. -/
def State.targetsOf (s : State) (l : List (Nat × Nat)) : List (Nat × Nat) :=
  (l.flatMap fun x => [(x.1 % 3, s.physOf (x.1 % 3) x.2), (x.1 % 3 + 3, s.physOf (x.1 % 3 + 3) x.2)]).eraseDups

/-- A mismatch seen from NORMAL in Drive (Table 10.4). -/
def State.firstMismatch (s : State) (p : Program) (targets : List (Nat × Nat)) (log : Bool) (id : Nat) : State :=
  let s := (s.setGauge 1).setFld .HUB_CFG_GAUGE_FIRST_TIME_TIME s.now
  let s := { s with gauge := { s.gauge with fn := p.fn, slot := p.slot, since := s.now, targets := targets } }
  if log then s.report 0x720 3 (some id) none (some (2, 3)) else s

/-- What a targeted swatch passed before the mismatch does not count for it (R344). -/
def State.forgetPasses (s : State) (l : List (Nat × Nat)) : State :=
  let of := fun (r : SliceRef) => decide (r.target < 240) && l.contains (r.target / 40, s.physOf (r.target / 40) (r.target % 40))
  { s with swatch := { s.swatch with passed := s.swatch.passed.filter fun r => !of r } }

/-- A mismatch of kind `kind` (R343 to R346) of command `id` on logical tiles `tiles`, given as (die, tile); an
INPUT_DISAGREE has made its own record. -/
def State.mismatch (s : State) (p : Program) (it : Iteration) (id kind : Nat) (tiles : List (Nat × Nat)) : State :=
  let s := s.count .HUB_CFG_GAUGE_CNT_MISMATCHES
  let s := s.setFld .HUB_CFG_GAUGE_STATUS_LAST_CMD id
  let s := s.setFld .HUB_CFG_GAUGE_STATUS_LAST_KIND kind
  let s := s.setFld .HUB_CFG_GAUGE_STATUS_LAST_TILE ((tiles.head?.map (·.2)).getD 0)
  let s := s.invalidate p it
  let targets := s.targetsOf tiles
  let s := s.forgetPasses targets
  let log := kind != 4
  if !s.inDrive then
    let s := { s with gauge := { s.gauge with
      fn := p.fn, slot := p.slot, since := s.now, targets := s.gauge.targets ++ targets.filter fun x => !s.gauge.targets.contains x } }
    if log then s.report 0x720 2 (some id) else s
  else if s.gaugeState = 0 then s.firstMismatch p targets log id
  else if s.gaugeState = 3 then s
  else if s.now < s.fld .HUB_CFG_GAUGE_FIRST_TIME_TIME + 600000000000 then
    ((s.setGauge 3).report 0x723 3 (some id) none (some (2, 3))).requestRestart
  else s.firstMismatch p targets log id

/-- Recovery at a frame boundary of the program that mismatched (Table 10.4): after 25 agreeing frames the request is
withdrawn. -/
def State.gaugeBoundary (s : State) (fn slot : Nat) : State :=
  if s.gaugeState = 2 ∧ s.gauge.fn = fn ∧ s.gauge.slot = slot ∧ 25 ≤ s.fld .HUB_CFG_GAUGE_STATUS_AGREE_COUNT then
    ((s.setGauge 0).report 0x722 0).withdraw 2 0
  else s

/-- An iteration of the program that mismatched ended with every verdict agreement: it counts toward 25 when it started
after the pass (Table 10.4, R345). -/
def State.gaugeFrame (s : State) (p : Program) (it : Iteration) : State :=
  if s.gaugeState = 2 ∧ s.gauge.fn = p.fn ∧ s.gauge.slot = p.slot ∧ s.gauge.passBeat < it.start then
    s.setFld .HUB_CFG_GAUGE_STATUS_AGREE_COUNT (min 25 (s.fld .HUB_CFG_GAUGE_STATUS_AGREE_COUNT + 1))
  else s

/-- A targeted swatch passed on a physical tile: with both passed, PROBATION begins (Table 10.4). -/
def State.targetPassed (s : State) (d phys : Nat) : State :=
  if s.gauge.targets.contains (d, phys) then
    let l := s.gauge.targets.erase (d, phys)
    let s := { s with gauge := { s.gauge with targets := l } }
    if l.isEmpty ∧ s.gaugeState = 1 then
      let s := { s with gauge := { s.gauge with passBeat := s.fabric.beat } }
      (s.setGauge 2).setFld .HUB_CFG_GAUGE_STATUS_AGREE_COUNT 0
    else s
  else s

/-- A targeted swatch failed on a physical tile: MISMATCH becomes RESTART_REQUESTED (Table 10.4); the tile is marked by the
failure itself (Table 12.3). -/
def State.targetFailed (s : State) (d phys : Nat) : State :=
  if s.gauge.targets.contains (d, phys) then
    let s := { s with gauge := { s.gauge with targets := s.gauge.targets.erase (d, phys) } }
    if s.gaugeState = 1 then s.setGauge 3 else s
  else s

end Sys2Proof.Machine
end

