-- ==== Sys2Proof/Machine/Engines.lean ====
section
/-!
DEFINITION. Machine/Engines.lean: what the stem, stripe and grid scatter engines compute, and the steps in which a job does it (04: R116
to R144). A job's image is read row by row, pixel by pixel, channels fastest; a job reads and writes on the die it runs on, and a source
in tile SRAM is that of the lowest-numbered tile of its command's group there (log 14).
-/

namespace Sys2Proof.Machine

/-! ## Where a job reads (R119, Table 4.2) -/

/-- The lowest-numbered tile of a command's group on a die. -/
def Command.firstTile (c : Command) (d : Nat) : Nat := ((List.range 40).find? fun t => bit (c.tiles.getD d 0) t).getD 0

/-- The tiles of a command's group on a die, in ascending order. -/
def Command.tilesOn (c : Command) (d : Nat) : List Nat := (List.range 40).filter fun t => bit (c.tiles.getD d 0) t

/-- The device address of a source of a job, encoded as src in Table 4.2; none when a handover buffer delivered zeros or an offset lies
outside the tile's SRAM (log 122). Of a stream-backed buffer it is the payload, after the frame record (R180). -/
def State.jobAddr (s : State) (p : Program) (it : Iteration) (c : Command) (d kind x : Nat) : Option Nat :=
  if kind = 0 then if x < tileSize then some (tileBase d (c.firstTile d) + x) else none
  else if kind = 1 then
    ((it.reads.find? fun r => (p.handovers[r.1]?).any fun h => h.bufId == x % 1024).bind (·.2.2)).map fun a =>
      if (s.backing (x % 1024)).isSome then a + 256 else a
  else some (s.devAddr p.fn x)

/-- An `n`-byte value at an offset of a job's source, as the command's tiles held it 12 beats before (R48); zeros where nothing was
delivered, and beyond the memory that the source lies in (log 122). -/
def State.jobVal (s : State) (r : CmdRun) (base : Option Nat) (off n : Nat) : Nat :=
  match base with
  | some a => if regionOf (a + off) = regionOf a then s.peekVal (r.asOf s.fabric.beat) (a + off) n else 0
  | none => 0

/-! ## Pixels (R123, R124). PRESUMED (log 16): the packings are those of MIPI CSI-2. -/

/-- Sample `i` of a packed row: 4 samples in 5 bytes for 10 bits, 2 in 3 for 12 bits, 4 in 7 for 14 bits. -/
def packedSample (byte : Nat → Nat) (width i : Nat) : Nat :=
  if width = 10 then
    let b := i / 4 * 5
    byte (b + i % 4) * 4 + bits (byte (b + 4)) (2 * (i % 4) + 1) (2 * (i % 4))
  else if width = 12 then
    let b := i / 2 * 3
    byte (b + i % 2) * 16 + bits (byte (b + 2)) (4 * (i % 2) + 3) (4 * (i % 2))
  else if width = 14 then
    let b := i / 4 * 7
    let low := byte (b + 4) + 256 * byte (b + 5) + 65536 * byte (b + 6)
    byte (b + i % 4) * 64 + bits low (6 * (i % 4) + 5) (6 * (i % 4))
  else byte i

/-- Bytes of a row of `n` packed samples. -/
def rowLen (width n : Nat) : Nat := ceilDiv (n * width) 8

/-- The integer of channel `ch` of the formed pixel (x, y), with its phase (R123). -/
def State.pixel (s : State) (r : CmdRun) (e : Engine) (base : Option Nat) (x y ch : Nat) : Int × Nat :=
  let code := e.inFmt
  let w := pixelBits code
  let at_ := fun (row i samples : Nat) =>
    packedSample (fun o => s.jobVal r base (row * rowLen w samples + o) 1) w i
  if code ≤ 0x12 then ((at_ (2 * y + ch / 2) (2 * x + ch % 2) e.inW : Nat), ch % 4)
  else if code = 0x13 then ((s.jobVal r base (2 * ((2 * y + ch / 2) * e.inW + 2 * x + ch % 2)) 2 : Nat), ch % 4)
  else if code ≤ 0x15 then
    -- samples of two pixels in the order U Y V Y; channels Y0, Y1, U, V
    let i := if ch = 0 then 1 else if ch = 1 then 3 else if ch = 2 then 0 else 2
    ((at_ y (4 * x + i) (2 * e.inW) : Nat), ch % 4)
  else
    let v := s.jobVal r base (2 * ((y * e.inW + x) * e.inC + ch)) 2
    (if code = 0x17 then signed 16 v else v, min ch 3)

/-- v = rne32(rne32(float(p) − black) × gain) (R124). -/
def pixelValue (e : Engine) (p : Int × Nat) : Nat :=
  f32mul (f32sub (toF32 (.ofInt p.1 0)) (toF32 (.ofInt (e.black.getD p.2 0 : Nat) 0))) (ofBf16 (e.gain.getD p.2 0))

/-! ## Elements and padding (R132, R133, Table 4.6) -/

/-- Element (x, y, ch) of a job's image, as its code. The codes of an NQ4 image follow one another without padding, also from pixel to pixel
and from row to row (log 14). -/
def State.element (s : State) (r : CmdRun) (e : Engine) (base : Option Nat) (x y ch : Nat) : Nat :=
  let i := (y * e.inW + x) * e.inC + ch
  if e.inFmt = 4 then bits (s.jobVal r base (i / 2) 1) (4 * (i % 2) + 3) (4 * (i % 2))
  else s.jobVal r base (i * (fmtBits e.inFmt / 8)) (fmtBits e.inFmt / 8)

/-- The real position that a padded one stands for in a direction of `n` positions; none in ZERO or CONSTANT padding. -/
def padded (mode n : Nat) (i : Int) : Option Nat :=
  if 0 ≤ i ∧ i < (n : Int) then some i.toNat
  else if mode = 2 then some (if i < 0 then 0 else n - 1)
  else if mode = 3 then some (if i < 0 then (-i).toNat else (2 * ((n : Int) - 1) - i).toNat)
  else if mode = 4 then some (if i < 0 then (-i - 1).toNat else (2 * (n : Int) - 1 - i).toNat)
  else none

/-- The image position that tap (ky, kx) of the output (x, y) reads (R133); none in ZERO or CONSTANT padding. -/
def Engine.tap (e : Engine) (x y ky kx : Nat) : Option (Nat × Nat) :=
  match padded e.pad e.width ((x * e.sx + kx * e.dx : Nat) - (e.pl : Int)),
        padded e.pad e.height ((y * e.sy + ky * e.dy : Nat) - (e.pt : Int)) with
  | some a, some b => some (a, b)
  | _, _ => none

/-! ## The stem engine (R125, R126) -/

/-- The FP32 input value of channel `ch` at a real position. -/
def State.stemInput (s : State) (r : CmdRun) (e : Engine) (base : Option Nat) (x y ch : Nat) : Nat :=
  if e.mode = 0 then pixelValue e (s.pixel r e base x y ch) else toF32 (decodeFmt e.inFmt (s.element r e base x y ch))

/-- The products of a stem output element in order of (ky, kx, c), c fastest, its weights taken from the weight store; a tap in ZERO padding
gives +0 (R125, R132). DESIGN CHOICE (log 122): a weight beyond aux_entries, which Table 4.3 does not check, is 0. -/
def State.stemProducts (s : State) (r : CmdRun) (e : Engine) (base : Option Nat) (weights : List Nat) (x y n : Nat) : List Nat :=
  (List.range e.kh).flatMap fun ky => (List.range e.kw).flatMap fun kx => (List.range e.inC).map fun ch =>
    let w := ofBf16 (weights.getD (((n * e.kh + ky) * e.kw + kx) * e.inC + ch) 0)
    match e.tap x y ky kx with
    | some q => f32mul (s.stemInput r e base q.1 q.2 ch) w
    | none => if e.pad = 1 then f32mul e.padValue w else 0

/-- RELU (R126): below +0 or −0 becomes +0; a NaN stays. -/
def relu (y : Nat) : Nat := if f32 y = .nan then y else if bit y 31 then 0 else y

/-- One stem output element before its conversion. -/
def State.stemValue (s : State) (p : Program) (it : Iteration) (c : Command) (r : CmdRun) (e : Engine) (weights : List Nat)
    (d x y n : Nat) : Nat :=
  let acc := treeSum (s.stemProducts r e (s.jobAddr p it c d e.srcKind e.src) weights x y n)
  let v := if bit e.flags 3 then f32add acc (s.jobVal r (some (tileBase d (c.firstTile d))) (e.bias + 4 * n) 4) else acc
  if bit e.flags 2 then relu v else v

/-- The weight store as it is loaded at the start of a stem job: the BF16 weights at aux, in order (R125). -/
def State.stemWeights (s : State) (p : Program) (it : Iteration) (c : Command) (r : CmdRun) (e : Engine) (d : Nat) : List Nat :=
  let base := s.jobAddr p it c d e.auxKind e.aux
  (List.range (e.auxEntries / 2)).map fun i => s.jobVal r base (2 * i) 2

/-- A conversion by a stem engine (R126): its scale applies to quantising formats only. `quant` says whether its command has a QUANT_PARAMS
entry: without one no quantising conversion is performed, and the code is open (R102, log 121). DESIGN CHOICE (log 121): it rounds by R84 also
where the entry has OUT_STOCHASTIC (R111). -/
def stemConvert (e : Engine) (quant : Bool) (v : Nat) : Conv :=
  if e.outFmt = 3 ∨ e.outFmt = 5 then convertTo e.outFmt (f32 v) none
  else if quant then convertTo e.outFmt (f32 (f32mul v e.outInv)) none else ⟨Config.unconverted e.outFmt v, false, false⟩

/-! ## Pooling (R137, R138) -/

/-- a is at most b, with +0 above −0 (R137). -/
def poolLe (a b : FVal) : Bool :=
  match a, b with
  | .fin na 0 _, .fin nb 0 _ => na || !nb
  | _, _ => a.le b

/-- The canonical NaN of a format (R83). -/
def nanCode (fmt : Nat) : Nat := if fmt = 3 then 0x7FC0 else if fmt = 5 then 0x7FC00000 else 0x7F

/-- The largest code of a list by value. -/
def poolMax (fmt : Nat) (l : List Nat) : Nat :=
  if l.any fun v => decodeFmt fmt v = .nan then nanCode fmt
  else match l with
    | [] => 0
    | h :: t => t.foldl (fun m v => if poolLe (decodeFmt fmt m) (decodeFmt fmt v) then v else m) h

/-- An FP32 pattern rounded to a format by R84, without clipping: an infinity stays one where the format has it (R138, R140, R142). -/
def roundFmt (fmt v : Nat) : Nat :=
  match f32 v with
  | .inf neg => if fmt = 2 then (if neg then 0xFC else 0x7C) else (convertTo fmt (f32 v) none).code
  | x => (convertTo fmt x none).code

/-- The average of a window over `n` (R138). -/
def poolAvg (fmt : Nat) (l : List Nat) (n : Nat) : Nat :=
  if fmt = 0 then unsign 8 (divEven ((l.map (signed 8)).foldl (· + ·) 0) n)
  else
    let sum := l.foldl (fun a v => f32add a (toF32 (decodeFmt fmt v))) 0
    roundFmt fmt (f32div sum (toF32 (.ofInt (n : Int) 0)))

/-- One pooled element of the image that `read` gives (R137, R138). -/
def Engine.pooled (e : Engine) (read : Nat → Nat → Nat → Nat) (x y ch : Nat) : Nat :=
  let l := (List.range e.kh).flatMap fun ky => (List.range e.kw).filterMap fun kx =>
    (e.tap x y ky kx).map fun q => read q.1 q.2 ch
  if e.mode = 2 then poolMax e.inFmt l
  else poolAvg e.inFmt l (if bit e.flags 0 then e.kw * e.kh else max 1 l.length)

/-! ## Resampling (R139, R140) -/

/-- FP32 of a natural number. -/
def f32Nat (n : Nat) : Nat := toF32 (.ofInt (n : Int) 0)

/-- ⌊v⌋ of a non-negative finite FP32 value. -/
def f32Floor (v : Nat) : Nat :=
  match f32 v with
  | .fin false m e => if 0 ≤ e then m * 2 ^ e.toNat else m / 2 ^ (-e).toNat
  | _ => 0

/-- The ratio of R139 in a direction. -/
def Engine.ratio (e : Engine) (n out : Nat) : Nat :=
  if bit e.flags 1 then (if 1 < out then f32div (f32Nat (n - 1)) (f32Nat (out - 1)) else 0) else f32div (f32Nat n) (f32Nat out)

/-- The source coordinate of R139. -/
def Engine.coord (e : Engine) (n out x : Nat) : Nat :=
  if bit e.flags 1 then f32mul (f32Nat x) (e.ratio n out)
  else f32sub (f32mul (f32add (f32Nat x) 0x3F000000) (e.ratio n out)) 0x3F000000

/-- The nearest index of R139. -/
def Engine.nearest (e : Engine) (n out x : Nat) : Nat :=
  min (n - 1) (f32Floor (if bit e.flags 1 then f32add (e.coord n out x) 0x3F000000
    else f32mul (f32add (f32Nat x) 0x3F000000) (e.ratio n out)))

/-- The two indices and the fraction of bilinear resampling (R139). -/
def Engine.between (e : Engine) (n out x : Nat) : Nat × Nat × Nat :=
  let v := e.coord n out x
  let v := if (f32 v).lt (.fin false 0 0) then 0 else v
  let v := if (f32 v).le (f32 (f32Nat (n - 1))) then v else f32Nat (n - 1)
  let i := f32Floor v
  (i, min (i + 1) (n - 1), f32sub v (f32Nat i))

/-- a + f × (b − a), each step rounded (R140). -/
def lerp (a b f : Nat) : Nat := f32add a (f32mul f (f32sub b a))

/-- One resampled element of the image that `read` gives (R139, R140). -/
def Engine.resampled (e : Engine) (read : Nat → Nat → Nat → Nat) (x y ch : Nat) : Nat :=
  if e.mode = 4 then read (e.nearest e.inW e.outW x) (e.nearest e.inH e.outH y) ch
  else
    let (x0, x1, fx) := e.between e.inW e.outW x
    let (y0, y1, fy) := e.between e.inH e.outH y
    let v := fun (a b : Nat) => toF32 (decodeFmt e.inFmt (read a b ch))
    let h0 := lerp (v x0 y0) (v x1 y0) fx
    let h1 := lerp (v x0 y1) (v x1 y1) fx
    roundFmt e.outFmt (lerp h0 h1 fy)

/-- A tap delivered to a tile (R132, R133): the element at its position, +0 or pad_value in padding. -/
def Engine.fedTap (e : Engine) (read : Nat → Nat → Nat → Nat) (x y ky kx ch : Nat) : Nat :=
  match e.tap x y ky kx with
  | some q => read q.1 q.2 ch
  | none => if e.pad = 1 then (convertTo e.inFmt (f32 e.padValue) none).code else 0

/-! ## Stripes and the line buffer (R128 to R131, R134) -/

/-- The number of stripes (R128). -/
def Engine.stripes (e : Engine) : Nat := ceilDiv e.outH (max 1 e.rows)

/-- The output rows of stripe `i` (R128). -/
def Engine.stripeRows (e : Engine) (i : Nat) : List Nat :=
  (List.range (min ((i + 1) * e.rows) e.outH - i * e.rows)).map fun k => i * e.rows + k

/-- The rows of the padded image that stripe `i` needs (R128). -/
def Engine.needs (e : Engine) (i : Nat) : List Nat :=
  (List.range (((e.stripeRows i).length - 1) * e.sy + e.ey)).map fun k => i * e.rows * e.sy + k

/-- The rows that consecutive stripes share (R129). -/
def Engine.halo (e : Engine) : Nat := e.ey - e.sy

/-- The real rows that a stripe stores: those it needs that lie in the real image (R128), in centre-only mode those that centre taps read
(R134), and in a resampling mode those that its output rows read (R139). -/
def Engine.stores (e : Engine) (i : Nat) : List Nat :=
  if e.resamples then
    ((e.stripeRows i).flatMap fun y =>
      if e.mode = 4 then [e.nearest e.inH e.outH y] else [(e.between e.inH e.outH y).1, (e.between e.inH e.outH y).2.1]).eraseDups
  else if e.centreOnly then (e.stripeRows i).map fun y => y * e.sy + (e.kh - 1) / 2 * e.dy - e.pt
  else (e.needs i).filterMap fun q => if real e.pt e.inH q then some (q - e.pt) else none

/-- The elements of a real row of a channel slice, as they stand in the source. -/
def State.sourceRow (s : State) (r : CmdRun) (e : Engine) (base : Option Nat) (slice y : Nat) : List Nat :=
  (List.range e.inW).flatMap fun x => (List.range e.slice).map fun ch => s.element r e base x y (slice * e.slice + ch)

/-- The line buffer at the beginning of stripe `i` of a channel slice: rows that no later stripe needs are released, halo rows stay, and
each other row that the stripe stores is read from the source (R129). A new slice begins with an empty buffer (R131). -/
def State.fillLines (s : State) (r : CmdRun) (e : Engine) (base : Option Nat) (slice i : Nat) (lines : List (Nat × List Nat)) :
    List (Nat × List Nat) :=
  let keep := if i = 0 then [] else lines.filter fun l => (e.stores i).contains l.1
  keep ++ ((e.stores i).filter fun y => !keep.any (·.1 == y)).map fun y => (y, s.sourceRow r e base slice y)

/-- Element (x, y, ch) as the stripe engine has it: from the line buffer, or from the source where a mirrored row lies outside the rows that
the stripe stores (log 98). -/
def State.lineElement (s : State) (r : CmdRun) (e : Engine) (base : Option Nat) (lines : List (Nat × List Nat)) (slice x y ch : Nat) :
    Nat :=
  match lines.find? fun l => l.1 == y with
  | some l => l.2.getD (x * e.slice + (ch - slice * e.slice)) 0
  | none => s.element r e base x y ch

/-! ## What a job sends to tiles (R48, R118) -/

/-- Elements that a job delivers: outputs, or taps fed to tiles (R132). -/
def Engine.elements (e : Engine) : Nat :=
  if e.kind = 0 then e.outH * e.outW * e.outC
  else e.outH * e.outW * e.inC * (if e.mode ≤ 1 then e.kh * e.kw else 1)

/-- Does a job deliver an element to index `i` of the `k`-th tile of its command's group? -/
def Engine.feeds (e : Engine) (k i : Nat) : Bool := (List.range e.elements).any fun x => (Config.enginePlace e.raw x).contains (k, i)

/-- Elements sent to the tiles of a command on a die, by their numbers in what the job computes (`Config.enginePlace`): usable 12 beats
later (R48), and only in tiles of the command (R118). The odd partner that an NQ4 code has in none of the job's elements is padding, 0x0
(R89). -/
def CmdRun.deliver (r : CmdRun) (c : Command) (e : Engine) (d beat fmt : Nat) (l : List (Nat × Nat)) : CmdRun :=
  let tiles := c.tilesOn d
  let placed := l.flatMap fun x => (Config.enginePlace e.raw x.1).filterMap fun q => (tiles[q.1]?).bind fun t =>
    if e.dst + fmtBytes fmt (q.2 + 1) ≤ tileSize then some (t, q.1, q.2, x.2) else none
  let a : Arrival := if fmt = 4 then
      ⟨beat + 12, [], false, [], placed.flatMap fun x =>
        let at_ := 2 * (tileBase d x.1 + e.dst) + x.2.2.1
        (at_, x.2.2.2) :: (if x.2.2.1 % 2 = 0 ∧ !e.feeds x.2.1 (x.2.2.1 + 1) then [(at_ + 1, 0)] else []), none⟩
    else
      ⟨beat + 12, [], false, placed.map fun x =>
        (tileBase d x.1 + e.dst + x.2.2.1 * (fmtBits fmt / 8), leBytes (fmtBits fmt / 8) x.2.2.2), [], none⟩
  { r with arrivals := r.arrivals ++ [a] }

/-! ## The grid scatter unit (R141 to R144) -/

/-- Field of grid table entry `i` (Table 4.10). -/
def State.gridField (s : State) (p : Program) (it : Iteration) (c : Command) (r : CmdRun) (e : Engine) (d i o n : Nat) : Nat :=
  s.jobVal r (s.jobAddr p it c d e.auxKind e.aux) (16 * i + o) n

/-- Does grid table entry `i` keep R144? A camera byte above 15, outside Table 4.10, counts as a src_index outside its camera's feature map
(log 14). -/
def State.gridOk (s : State) (p : Program) (it : Iteration) (c : Command) (r : CmdRun) (e : Engine) (d i : Nat) : Bool :=
  let cell := s.gridField p it c r e d i 0 4
  (i == 0 || decide (s.gridField p it c r e d (i - 1) 0 4 ≤ cell)) && decide (cell < e.gridW * e.gridH) &&
    decide (s.gridField p it c r e d i 4 4 < e.inW * e.inH) && decide (s.gridField p it c r e d i 11 1 ≤ 15)

/-- Where a cell's channel stands (R143): grid rows are spread over the command's tiles, given as (die, tile), of one copy; none when it would
stand outside the SRAM of its tile (R118, log 14). -/
def Engine.gridAddr (e : Engine) (tiles : List (Nat × Nat)) (cell ch : Nat) : Option Nat :=
  let per := ceilDiv e.gridH (max 1 tiles.length)
  let row := cell / e.gridW
  let k := min (row / per) (tiles.length - 1)
  let t := tiles.getD k (0, 0)
  let off := e.dst + (((row - k * per) * e.gridW + cell % e.gridW) * e.inC + ch) * (fmtBits e.outFmt / 8)
  if tiles[k]?.isSome && decide (off + fmtBits e.outFmt / 8 ≤ tileSize) then some (tileBase t.1 t.2 + off) else none

/-- The die that holds a cell (R143). -/
def Engine.gridDie (e : Engine) (tiles : List (Nat × Nat)) (cell : Nat) : Nat :=
  (tiles.getD (min (cell / e.gridW / ceilDiv e.gridH (max 1 tiles.length)) (tiles.length - 1)) (0, 0)).1

/-- The feature value of a channel at a source pixel of a camera (R141). -/
def State.feature (s : State) (r : CmdRun) (e : Engine) (base : Option Nat) (camera src ch : Nat) : Nat :=
  toF32 (decodeFmt e.inFmt (s.jobVal r base (((camera * e.inW * e.inH + src) * e.inC + ch) * (fmtBits e.inFmt / 8))
    (fmtBits e.inFmt / 8)))

/-- The depth probability of a source pixel, BF16, after the 16 feature maps (R141, log 14). A depth_bin above 127, which Table 4.10 does not
have, reads on into what follows the pixel's distribution (log 14). -/
def State.depthProb (s : State) (r : CmdRun) (e : Engine) (base : Option Nat) (camera src bin : Nat) : Nat :=
  ofBf16 (s.jobVal r base (16 * e.inW * e.inH * e.inC * (fmtBits e.inFmt / 8) +
    2 * ((camera * e.inW * e.inH + src) * 128 + bin)) 2)

/-- One table entry, all channels: each sum takes rne32(w × f), from +0 (R142). -/
def State.gridSums (s : State) (p : Program) (it : Iteration) (c : Command) (r : CmdRun) (e : Engine) (d i : Nat) (sums : Tbl Nat) :
    Tbl Nat :=
  let f := fun o n => s.gridField p it c r e d i o n
  let base := s.jobAddr p it c d e.srcKind e.src
  let w0 := ofBf16 (f 8 2)
  let w := if e.mode = 1 then f32mul w0 (s.depthProb r e base (f 11 1) (f 4 4) (f 10 1)) else w0
  (List.range e.inC).foldl (init := sums) fun t ch =>
    let k := f 0 4 * 256 + ch
    Tbl.set 0 t k (f32add (Tbl.get 0 t k) (f32mul w (s.feature r e base (f 11 1) (f 4 4) ch)))

/-- The grid of a die sent to its tiles: every sum rounded to out_format, +0 for a cell that no entry names (R142, R143). -/
def CmdRun.sendGrid (r : CmdRun) (e : Engine) (tiles : List (Nat × Nat)) (d beat : Nat) (sums : Tbl Nat) : CmdRun :=
  let cells := ((List.range (e.gridW * e.gridH)).filter fun cell => e.gridDie tiles cell == d).flatMap fun cell =>
    (List.range e.inC).filterMap fun ch => (e.gridAddr tiles cell ch).map fun a =>
      (a, leBytes (fmtBits e.outFmt / 8) (roundFmt e.outFmt (Tbl.get 0 sums (cell * 256 + ch))))
  { r with arrivals := r.arrivals ++ [⟨beat + 12, [], false, cells, [], none⟩] }

/-! ## The steps of a job (R117). DESIGN CHOICE (log 98): which beat each falls on -/

/-- An engine counter of a command's run (R118). -/
def CmdRun.countEngine (r : CmdRun) (k : Nat) : CmdRun :=
  { r with engineCounts := Tbl.set 0 r.engineCounts k (Tbl.get 0 r.engineCounts k + 1) }

/-- The statistics of a copy changed by `g`. -/
def CmdRun.modStats (r : CmdRun) (copy : Nat) (g : CmdStats → CmdStats) : CmdRun :=
  match r.stats[copy]? with
  | some x => { r with stats := setAt r.stats copy (g x) }
  | none => r

/-- A count of Table 3.12, which saturates. -/
def sat32Count (n k : Nat) : Nat := satAdd 0xFFFFFFFF n k

/-- The copy of a command that runs on a die: 0 primary or unpaired, 1 secondary. -/
def Program.copyOf (p : Program) (d : Nat) : Nat := if p.isSecondary d then 1 else 0

/-- The steps of a job: output rows of the stem, output rows of every channel slice of the stripe engine, table entries of the grid scatter
unit and the sending of its grid. -/
def Engine.steps (e : Engine) : Nat :=
  if e.kind = 0 then e.outH else if e.kind = 1 then e.outH * (e.inC / max 1 e.slice) else e.auxEntries + 1

/-- The bytes of row `y` of a job's image in its source, as (offset, bytes). -/
def Engine.rowSpan (e : Engine) (y : Nat) : Nat × Nat :=
  if e.first then
    let n := if e.inFmt ≤ 0x12 then 2 * rowLen (pixelBits e.inFmt) e.inW else if e.inFmt = 0x13 then 4 * e.inW
      else if e.inFmt ≤ 0x15 then rowLen (pixelBits e.inFmt) (2 * e.inW) else 2 * e.inW * e.inC
    (y * n, n)
  else
    let n := e.inW * e.inC * fmtBits e.inFmt
    (y * n / 8, ceilDiv ((y + 1) * n) 8 - y * n / 8)

/-- The rows that a step of a job reads from its source: of the stripe engine each real row once for every channel slice, with the first row of
the stripe that stores it first (R129); of the stem, which keeps none, those that an output row's taps read (log 109). -/
def Engine.rowsRead (e : Engine) (step : Nat) : List Nat :=
  if e.kind = 0 then ((List.range e.kh).filterMap fun ky => padded e.pad e.height ((step * e.sy + ky * e.dy : Nat) - (e.pt : Int))).eraseDups
  else
    let y := step % max 1 e.outH
    let i := y / max 1 e.rows
    if y % max 1 e.rows ≠ 0 then []
    else if i = 0 then e.stores 0 else (e.stores i).filter fun q => !(e.stores (i - 1)).contains q

/-- The bytes that a step of a grid scatter job reads: its table entry, and the features and the depth probability that the entry names. -/
def State.gridReads (s : State) (p : Program) (it : Iteration) (c : Command) (r : CmdRun) (e : Engine) (d i : Nat) (aux : Bool) :
    List (Nat × Nat) :=
  if e.auxEntries ≤ i then []
  else if aux then [(16 * i, 16)]
  else
    let n := e.inC * (fmtBits e.inFmt / 8)
    let at_ := s.gridField p it c r e d i 11 1 * e.inW * e.inH + s.gridField p it c r e d i 4 4
    (at_ * n, n) :: (if e.mode = 1 then [(16 * e.inW * e.inH * n + 2 * (at_ * 128 + s.gridField p it c r e d i 10 1), 2)] else [])

/-- The bytes that a step of a job reads of its source, or of its auxiliary data: the stem's weights with its first step (R125). -/
def State.stepReads (s : State) (p : Program) (it : Iteration) (c : Command) (r : CmdRun) (e : Engine) (d step : Nat) (aux : Bool) :
    List (Nat × Nat) :=
  if e.kind = 2 then s.gridReads p it c r e d step aux
  else if aux then (if e.kind = 0 ∧ step = 0 then [(0, e.auxEntries)] else [])
  else (e.rowsRead step).map e.rowSpan

/-- Steps taken by the end of beat `x` of a job: spread evenly, so that the last results reach their tiles within the job's span. The
entry alone fixes them (R117). -/
def Engine.stepsBy (e : Engine) (x : Nat) : Nat := min e.steps (e.steps * (x + 1) / max 1 (e.stop - e.start - 12))

/-- An output row of a stem job (R125, R126). What its conversions clip is counted for CDn_ENG_STEM_CLIP, and a NaN in the layer statistics
record; out_clipped and out_total of that record count the conversions of Table 3.12 only (log 45). -/
def State.stemStep (s : State) (p : Program) (it : Iteration) (c : Command) (r : CmdRun) (e : Engine) (j : Job) : CmdRun :=
  let d := j.die
  let l := (List.range e.outW).flatMap fun x => (List.range e.outC).map fun n =>
    ((j.done * e.outW + x) * e.outC + n, stemConvert e (p.quants.any (·.cmd == c.id)) (s.stemValue p it c r e j.weights d x j.done n))
  let r := l.foldl (init := r) fun r v =>
    let r := if v.2.clipped then r.countEngine (2 * d + 1) else r
    if v.2.nan then r.modStats (p.copyOf d) fun y => { y with nanCount := sat32Count y.nanCount 1 } else r
  r.deliver c e d s.fabric.beat e.outFmt (l.map fun v => (v.1, v.2.code))

/-- The elements of an output row of a channel slice, with their numbers: pooled, resampled, or fed tap by tap (R131, R132). -/
def Engine.rowElements (e : Engine) (read : Nat → Nat → Nat → Nat) (slice y : Nat) : List (Nat × Nat) :=
  let chans := (List.range e.slice).map fun i => slice * e.slice + i
  (List.range e.outW).flatMap fun x =>
    if e.mode ≤ 1 then
      (List.range e.kh).flatMap fun ky => (List.range e.kw).flatMap fun kx => chans.map fun ch =>
        ((((y * e.outW + x) * e.kh + ky) * e.kw + kx) * e.inC + ch, e.fedTap read x y ky kx ch)
    else chans.map fun ch =>
      ((y * e.outW + x) * e.inC + ch, if e.mode ≤ 3 then e.pooled read x y ch else e.resampled read x y ch)

/-- An output row of a channel slice of a stripe job: slices ascending, and within a slice all stripes ascending (R131). The first row of a
stripe fills the line buffer. -/
def State.stripeStep (s : State) (p : Program) (it : Iteration) (c : Command) (r : CmdRun) (e : Engine) (j : Job) : CmdRun × Job :=
  let slice := j.done / max 1 e.outH
  let y := j.done % max 1 e.outH
  let base := s.jobAddr p it c j.die e.srcKind e.src
  let lines := if y % max 1 e.rows = 0 then s.fillLines r e base slice (y / max 1 e.rows) j.lines else j.lines
  let fmt := if e.mode ≤ 1 then e.inFmt else e.outFmt
  (r.deliver c e j.die s.fabric.beat fmt (e.rowElements (fun a b ch => s.lineElement r e base lines slice a b ch) slice y),
    { j with lines := lines })

/-- One step of a job, or the code its command fails with (R144: at the first table entry that is bad). -/
def State.jobStep (s : State) (p : Program) (it : Iteration) (c : Command) (r : CmdRun) (e : Engine) (j : Job) :
    Except Nat (CmdRun × Job) :=
  let next := fun (x : CmdRun × Job) => (x.1, { x.2 with done := j.done + 1 })
  if e.kind = 0 then .ok (next (s.stemStep p it c r e j, j))
  else if e.kind = 1 then .ok (next (s.stripeStep p it c r e j))
  else if j.done < e.auxEntries then
    if s.gridOk p it c r e j.die j.done then .ok (next (r, { j with sums := s.gridSums p it c r e j.die j.done j.sums }))
    else .error 0x172
  else .ok (next (r.sendGrid e (p.copyTiles c (p.isSecondary j.die)) j.die s.fabric.beat j.sums, j))

/-- The steps that a job takes in one beat; the fuel is their number. -/
def State.jobSteps (s : State) (p : Program) (it : Iteration) (c : Command) (e : Engine) : Nat → CmdRun → Job →
    Except Nat (CmdRun × Job)
  | 0, r, j => .ok (r, j)
  | n + 1, r, j => match s.jobStep p it c r e j with
    | .ok (r, j) => s.jobSteps p it c e n r j
    | .error code => .error code

/-- Is the engine of a kind on a die running a job (R116)? -/
def State.engineBusy (s : State) (d kind : Nat) : Bool :=
  s.programs.any fun p => p.iterations.any fun it => it.runs.any fun r => r.jobs.any fun j =>
    j.die == d && (p.engines[j.entry]?).any fun e => e.kind == kind

/-- A job as it starts on a die: the weight store loaded, no row held, every sum +0 (R125, R142). -/
def State.newJob (s : State) (p : Program) (it : Iteration) (c : Command) (r : CmdRun) (e : Engine) (entry d : Nat) : Job :=
  ⟨d, entry, 0, if e.kind = 0 then s.stemWeights p it c r e d else [], [], []⟩

end Sys2Proof.Machine
end

