-- ==== Sys2Proof/Machine/Fabric.lean ====
section
/-!
DEFINITION. Machine/Fabric.lean: one beat of the fabric (02, 03, 04, 10): what a bundle does to the registers, accumulators and
shadow storage of its tile, the signatures of R338, what the tiles' banks, ports and units can do in a beat (R40, R44), data on its way
(R48 to R51), and the failure of commands.
-/

namespace Sys2Proof.Machine

/-! ## Task watches (R72) -/

/-- The key of a watch of a die. -/
def watchKey (d w : Nat) : Nat := d * 64 + w % 64

/-- A watch. -/
def State.watch (s : State) (d w : Nat) : Watch := Tbl.get Watch.zero s.fabric.watches (watchKey d w)

/-- A watch replaced. -/
def State.setWatch (s : State) (d w : Nat) (x : Watch) : State :=
  { s with fabric := { s.fabric with watches := Tbl.set Watch.zero s.fabric.watches (watchKey d w) x } }

/-- The dies on which an iteration runs a command. -/
def State.diesOf (s : State) (p : Program) (it : Iteration) (c : Command) : List Nat :=
  (List.range 6).filter fun d => c.tiles.getD d 0 != 0 && s.runsOn p it d

/-- The commands of an iteration that the entry lets run and that use watch `w` of die `d`, by start beat. -/
def Program.watched (p : Program) (it : Iteration) (d w : Nat) : List (Nat × Command) :=
  ((List.range p.commands.length).filterMap fun k => (p.commands[k]?).bind fun c =>
      if c.watch % 64 = w ∧ c.tiles.getD d 0 ≠ 0 ∧ it.entryBeat ≤ c.start then some (k, c) else none).mergeSort
    fun a b => decide (a.2.start ≤ b.2.start)

/-- A watch armed with the absolute beats of the first command in `l`. DESIGN CHOICE (log 44): a watch that a command of another program of
the die holds is armed anew. -/
def State.armFirst (s : State) (p : Program) (it : Iteration) (d w : Nat) (l : List (Nat × Command)) : State :=
  match l with
  | [] => s
  | (k, c) :: _ =>
    s.setWatch d w ⟨true, c.id, p.fn, p.slot, it.number, k, it.start + c.start, it.start + c.commit,
      (it.runs[k]?).bind (·.began), none⟩

/-- The watches of an iteration armed (R72): of several commands on one watch, the first to start. -/
def State.armWatches (s : State) (p : Program) (it : Iteration) : State :=
  (List.range 6).foldl (init := s) fun s d =>
    if s.runsOn p it d then
      (List.range 64).foldl (fun s w => s.armFirst p it d w (p.watched it d w)) s
    else s

/-- A watch goes on to the next command of its iteration that has not ended and starts after beat `after` of it, or is disarmed. -/
def State.nextWatch (s : State) (p : Program) (it : Iteration) (d w after : Nat) : State :=
  (s.setWatch d w Watch.zero).armFirst p it d w
    ((p.watched it d w).filter fun y => decide (after < y.2.start) && (it.runs[y.1]?).any CmdRun.uncommitted)

/-- The watches of an iteration's commands that `hit` names go on (R73: what fails a command is no deviation). -/
def State.passWatches (s : State) (p : Program) (it : Iteration) (hit : Nat → Bool) : State :=
  (s.fabric.watches.filter fun e => e.2.armed && e.2.fn == p.fn && e.2.slot == p.slot && e.2.iter == it.number && hit e.2.index).foldl
    (init := s) fun s e => s.nextWatch p it (e.1 / 64) (e.1 % 64) (((p.commands[e.2.index]?).map (·.start)).getD 0)

/-! ## Failures (R44, R51, R56, R61) -/

/-- Commands of an iteration that `sel` names and that have not ended fail with a code: what they hold in shadow is
discarded (R61), and the iteration and the START keep their first failure (R305). What R51 or R56 fails is no deviation: its watches go on
(R73). -/
def State.failRuns (s : State) (p : Program) (it : Iteration) (sel : Nat → Bool) (code id sev : Nat) : State :=
  let hit := fun (k : Nat) => sel k && match it.runs[k]?, p.commands[k]? with
    | some r, some c => r.uncommitted && decide (it.entryBeat ≤ c.start)
    | _, _ => false
  let end_ := fun (i : Iteration) =>
    { i with runs := i.runs.mapIdx (fun k r => if hit k then r.discard (.failed code) else r),
             failure := if i.failure.isNone then some (code, id, sev) else i.failure }
  let s := (s.modIteration p.fn p.slot it.number end_).modRunning p.fn p.slot fun r => { r with first := r.first.or (some (code, id, sev)) }
  if code = 0x140 ∨ code = 0x110 then s.passWatches p (end_ it) hit else s

/-- A single command fails before commit, with a record whose severity is 3 for a SAFETY_RELEVANT command in Drive and 2
otherwise (Table 2.12); of a stall it is a fault of the stall (R479). -/
def State.failCommand (s : State) (c : CmdRef) (code : Nat) : State :=
  match s.cmdRun c with
  | none => s
  | some (p, it, k, _) =>
    let sev := s.sev32 k.safety
    ((s.failRuns p it (· == c.cmd) code k.id sev).report code sev (some k.id)).stallFault p.fn code

/-! ## Registers and accumulators of a tile (R40) -/

/-- The key of a tile. -/
def tileKey (d t : Nat) : Nat := d * 64 + t

/-- The key of a vector register lane. -/
def vregKey (d t reg lane : Nat) : Nat := (tileKey d t * 32 + reg % 32) * 256 + lane % 256

/-- The key of an accumulator: row 0-127, column 0-63. -/
def accKey (d t row col : Nat) : Nat := (tileKey d t * 128 + row % 128) * 64 + col % 64

/-- A vector register lane. -/
def State.vreg (s : State) (d t reg lane : Nat) : Nat := Tbl.get 0 s.fabric.vregs (vregKey d t reg lane)

/-- A vector register lane written. -/
def State.setVreg (s : State) (d t reg lane v : Nat) : State :=
  { s with fabric := { s.fabric with vregs := Tbl.set 0 s.fabric.vregs (vregKey d t reg lane) (v % 4294967296) } }

/-- An accumulator. -/
def State.acc (s : State) (d t row col : Nat) : Nat := Tbl.get 0 s.fabric.accs (accKey d t row col)

/-- An accumulator written. -/
def State.setAcc (s : State) (d t row col v : Nat) : State :=
  { s with fabric := { s.fabric with accs := Tbl.set 0 s.fabric.accs (accKey d t row col) (v % 4294967296) } }

/-- The generator of a lane (R112): a lane that has drawn nothing in the iteration holds its seed. -/
def State.gen (s : State) (p : Program) (d t lane : Nat) : Nat :=
  let g := Tbl.get 0 s.fabric.gens (tileKey d t * 256 + lane % 256)
  if g = 0 then laneSeed p.seed (if p.isSecondary d then d - 3 else d) t (lane % 256) else g

/-- The generator of a lane advanced once: its draw (R113). -/
def State.draw (s : State) (p : Program) (d t lane : Nat) : Nat × State :=
  let (g, v) := xorshift (s.gen p d t lane)
  (v, { s with fabric := { s.fabric with gens := Tbl.set 0 s.fabric.gens (tileKey d t * 256 + lane % 256) g } })

/-! ## What a bundle works on -/

/-- The bundle in work: the state, its command's run, the vector registers and accumulator rows written, and whether the
pattern has left what the manual describes. -/
structure Work where
  s : State
  r : CmdRun
  regs : List Nat
  rows : List Nat
  outside : Bool

/-- Where a bundle runs, and the beat. -/
structure Site where
  p : Program
  it : Iteration
  c : Command
  die : Nat
  tile : Nat

/-- Base of the tile's SRAM. -/
def Site.base (e : Site) : Nat := tileBase e.die e.tile

/-- The copy that the tile belongs to. -/
def Site.copy (e : Site) : Nat := e.p.copyOf e.die

/-- The QUANT_PARAMS entry of the command (R102). -/
def Site.quant (e : Site) : Option Quant := e.p.quants.find? fun q => q.cmd == e.c.id

/-- Is the copy in its wide re-run (R63)? -/
def Work.rerun (w : Work) (e : Site) : Bool := bit w.r.rerun e.copy

/-- A lane written. -/
def Work.put (w : Work) (e : Site) (reg lane v : Nat) : Work :=
  { w with s := w.s.setVreg e.die e.tile reg lane v, regs := w.regs ++ [reg % 32] }

/-- A lane read. -/
def Work.get (w : Work) (e : Site) (reg lane : Nat) : Nat := w.s.vreg e.die e.tile reg lane

/-- The tile SRAM of the tile as the command sees it. -/
def Work.load (w : Work) (e : Site) (off n : Nat) : Nat := w.s.peekVal w.r (e.base + off) n

/-- Bytes written to the command's shadow of the tile. -/
def Work.store (w : Work) (e : Site) (off : Nat) (l : List Byte) : Work := { w with r := w.r.poke (e.base + off) l }

/-- The pattern has left what the manual describes. -/
def Work.fault (w : Work) : Work := { w with outside := true }

/-- What the units of a tile do in a beat (Table 2.1): 0 the MAC array in NQ4 products, an INT8 or FP8 product counting for 2 and a BF16 one
for 8; 1 the outlier lane; 2 the depthwise path. -/
def unitRate (unit : Nat) : Nat := if unit = 0 then 16384 else if unit = 1 then 16 else 256

/-- Work of a unit of a tile booked in a beat. A unit works at its rate, on one bundle's operations after another: those of a bundle take the
beats that end with it and begin after the last bundle that used the unit, or at the command's start. More than that is no pattern of
Flahili's (R40). DESIGN CHOICE (log 6): an operation that takes a unit several beats stands in the bundle of its last. Of each unit `used`
holds the beat after its last use, what that bundle gave it, and the beat from which it was free. -/
def Work.charge (w : Work) (e : Site) (unit n : Nat) : Work :=
  let k := (tileKey e.die e.tile * 4 + unit) * 3
  let beat := w.s.fabric.beat
  let last := Tbl.get 0 w.r.used k
  let same := last == beat + 1
  let sum := if same then Tbl.get 0 w.r.used (k + 1) + n else n
  let from_ := if same then Tbl.get 0 w.r.used (k + 2) else max last (w.r.began.getD beat)
  let used := Tbl.set 0 (Tbl.set 0 (Tbl.set 0 w.r.used k (beat + 1)) (k + 1) sum) (k + 2) from_
  { w with r := { w.r with used := used }, outside := w.outside || decide (unitRate unit * (beat + 1 - from_) < sum) }

/-- The copy's statistics changed. -/
def Work.stats (w : Work) (e : Site) (g : CmdStats → CmdStats) : Work := { w with r := w.r.modStats e.copy g }

/-- Does the range lie in the tile's SRAM? -/
def inTile (off n : Nat) : Bool := decide (off + n ≤ tileSize)

/-! ## Conversions (R85 to R87, R100, R104, R108, R111) -/

/-- The formats, groups and scales in force: the first pass's, or the re-run's (R108). -/
structure Pass where
  act : Nat
  wgt : Nat
  group : Nat
  actTensor : Nat
  wgtTensor : Nat
  actOff : Nat
  wgtOff : Nat

/-- The pass that a copy is in. -/
def Quant.pass (q : Quant) (rerun : Bool) : Pass :=
  if rerun then ⟨q.rerun, q.rerun, groupLen q.rerunGroup, q.rerunActTensor, q.rerunWgtTensor, q.rerunActOff, q.rerunWgtOff⟩
  else ⟨q.act, q.wgt, groupLen q.group, q.actTensor, q.wgtTensor, q.actOff, q.wgtOff⟩

/-- Is an input channel an outlier channel of the entry (R99)? -/
def Quant.outlier (q : Quant) (ch : Nat) : Bool :=
  bit q.flags 0 && match q.outliers with
    | some (_, _, l) => l.contains ch
    | none => false

/-- An input conversion counted (Tables 3.8, 3.12). -/
def CmdStats.input (x : CmdStats) (v : Conv) (rerun grouped : Bool) (key : Nat) : CmdStats :=
  let n := fun (b : Bool) => if b then 1 else 0
  let x := { x with nanCount := sat32Count x.nanCount (n v.nan) }
  if rerun then { x with rerunInClipped := sat32Count x.rerunInClipped (n v.clipped) }
  else { x with inClipped := sat32Count x.inClipped (n v.clipped), inTotal := sat32Count x.inTotal 1,
                groupClipped := if grouped && v.clipped then
                  Tbl.set 0 x.groupClipped key (sat32Count (Tbl.get 0 x.groupClipped key) 1) else x.groupClipped }

/-- Conversions of an output counted (Table 3.12). -/
def CmdStats.output (x : CmdStats) (clipped total nan : Nat) : CmdStats :=
  { x with outClipped := sat32Count x.outClipped clipped, outTotal := sat32Count x.outTotal total,
           nanCount := sat32Count x.nanCount nan }

/-- The input conversion of element `ch` (R85 to R87, R100, R108) from the format in which activations arrive: BF16 or FP32. A re-run in BF16
takes a BF16 source unchanged. -/
def Work.inputConvert (w : Work) (e : Site) (src dst lane ch : Nat) : Work :=
  match e.quant with
  | none => w.fault
  | some q =>
    if !q.wide then w.fault
    else if q.outlier ch then w.put e dst lane 0
    else
      let rr := w.rerun e
      let f := q.pass rr
      let x := w.get e src lane
      let wide := if q.src = 3 then ofBf16 x else x
      if f.act = 3 then w.put e dst lane (if q.src = 3 then x % 65536 else roundBf16 wide)
      else
        let g := if f.group = 0 then 0 else ch / f.group
        let scale := if f.group = 0 then none else some (w.load e (f.actOff + g) 1)
        let v := convertTo f.act (f32 (f32mul wide (inputMultiplier scale f.actTensor))) none
        (w.put e dst lane v.code).stats e fun y => y.input v rr (bit q.flags 2) (tileKey e.die e.tile * 65536 + g)

/-- The output conversion of the tile's output channel `n` (R85 to R87, R111 to R114). DESIGN CHOICE (log 122): an out_format above 5 is loaded; its
conversion gives FP32 and is counted in out_total. -/
def Work.outputConvert (w : Work) (e : Site) (src dst lane n : Nat) : Work :=
  match e.quant with
  | none => w.fault
  | some q =>
    let x := w.get e src lane
    let stochastic := bit q.flags 1 && e.p.stochastic && q.out != 4 && q.out != 5
    let (draw, s) := if stochastic then
        let (v, s) := w.s.draw e.p e.die e.tile lane
        (some v, s)
      else (none, w.s)
    let w := { w with s := s }
    if q.out = 3 ∨ q.out = 5 then w.put e dst lane (convertTo q.out (f32 x) draw).code
    else
      let scale := if q.outScaleOff = 0 ∨ groupLen q.outGroup = 0 then none
        else some (w.load e (q.outScaleOff + n / groupLen q.outGroup) 1)
      let v := convertTo q.out (f32 (f32mul x (outputMultiplier q.outInv scale))) draw
      (w.put e dst lane v.code).stats e fun y => y.output (if v.clipped then 1 else 0) 1 (if v.nan then 1 else 0)

/-! ## The MAC array and the outlier lane (R89, R91 to R95, R100, R101) -/

/-- The code of element `i` of a packed row at `off`. -/
def Work.packed (w : Work) (e : Site) (fmt off i : Nat) : Nat :=
  if fmt = 4 then bits (w.load e (off + i / 2) 1) (4 * (i % 2) + 3) (4 * (i % 2))
  else w.load e (off + i * (fmtBits fmt / 8)) (fmtBits fmt / 8)

/-- outlier_acc of an output element (R101). -/
def Work.outlierAcc (w : Work) (e : Site) (q : Quant) (wideOff n nLocal : Nat) : Nat :=
  match q.outliers with
  | none => 0
  | some (_, off, l) =>
    (List.range l.length).foldl (init := 0) fun acc i =>
      let ch := l.getD i 0
      let a := if q.src = 3 then ofBf16 (w.load e (wideOff + 2 * ch) 2) else w.load e (wideOff + 4 * ch) 4
      f32add acc (f32mul (ofBf16 (roundBf16 a)) (ofBf16 (w.load e (off + 2 * (i * nLocal + n)) 2)))

/-- Products of the MAC array that an element of `k` products of a format takes (Tables 2.1, 3.7). -/
def macCost (fmtA fmtB k : Nat) : Nat := k * (if fmtA = 3 then 8 else if fmtA = 4 ∧ fmtB = 4 then 1 else 2)

/-- One output element of the MAC array (R91 to R95). Listed channels and taps in ZERO padding contribute +0 (R100, R132). A re-run group
size that does not divide K leaves a last part of a group, whose scale bytes are taken as 0 (log 45). -/
def Work.mac (w : Work) (e : Site) (row col actOff wgtOff wideOff n nLocal : Nat) (pads : List Nat) : Work :=
  match e.quant with
  | none => w.fault
  | some q =>
    let f := q.pass (w.rerun e)
    if !macPair f.act f.wgt then w.fault
    else
      let drop := fun (i : Nat) => q.outlier i || pads.contains i
      let codes := fun (fmt off : Nat) => (List.range q.k).map fun i => if drop i then 0 else w.packed e fmt off i
      let groups := if f.group = 0 then 0 else q.k / f.group
      let scales := (List.range groups).map fun g =>
        (w.load e (f.actOff + g) 1, w.load e (f.wgtOff + n * groups + g) 1)
      let y := macElement f.act f.wgt f.group (codes f.act actOff) (codes f.wgt wgtOff) scales (f32mul f.actTensor f.wgtTensor)
      let y := if bit q.flags 0 then f32add y (w.outlierAcc e q wideOff n nLocal) else y
      let w : Work := { w with s := w.s.setAcc e.die e.tile row col y, rows := w.rows ++ [row % 128] }
      (w.charge e 0 (macCost f.act f.wgt q.k)).charge e 1 (match q.outliers with
        | some (_, _, l) => if bit q.flags 0 then l.length else 0
        | none => 0)

/-! ## The depthwise path (R136) -/

/-- One output element of the depthwise path: taps in order, a tap in ZERO padding adding +0 (R132). DESIGN CHOICE (log
124): a tap in CONSTANT padding is fused like any other (R136), where R132 has it contribute the rounded product. -/
def Work.depthwise (w : Work) (e : Site) (fmt taps srcOff wgtOff pads : Nat) : Nat :=
  let n := fmtBits fmt / 8
  let a := fun (i : Nat) => w.load e (srcOff + i * n) n
  let b := fun (i : Nat) => w.load e (wgtOff + i * n) n
  if fmt = 0 then
    toF32 (.ofInt (((List.range taps).map fun i => if bit pads i then 0 else signed 8 (a i) * signed 8 (b i)).foldl (· + ·) 0) 0)
  else
    (List.range taps).foldl (init := 0) fun acc i =>
      if bit pads i then f32add acc 0 else f32fma (toF32 (decodeFmt fmt (a i))) (toF32 (decodeFmt fmt (b i))) acc

/-! ## Routes over the purl links (R48, R49) -/

/-- The ring links from die `a` on over `n` hops, upwards (R46: link n joins CDn and the next). -/
def linksUp (a n : Nat) : List Nat := (List.range n).map fun i => (a + i) % 6

/-- The ring links that data from die `a` to die `b` crosses, in order: the shorter way, of two equal ones the upward one, unless a link of it is cut
(log 99). -/
def State.route (s : State) (a b : Nat) : List Nat :=
  let up := linksUp a ((b + 6 - a) % 6)
  let down := (linksUp b ((a + 6 - b) % 6)).reverse
  let ok := fun (l : List Nat) => l.all fun n => !bit s.fabric.cut n
  if up.length ≤ down.length then (if ok up || !ok down then up else down) else (if ok down || !ok up then down else up)

/-- Beats until data sent between tiles is usable: 12 on a die, 64 for each hop of the ring (R48, R49). -/
def routeBeats (links : List Nat) : Nat := if links.isEmpty then 12 else 64 * links.length

/-! ## Operations -/

/-- A value of an attention command's run, or a fault for a command that is none. -/
def Work.attn (w : Work) (k : Attn → Work) : Work :=
  match w.r.attn with
  | some a => k a
  | none => w.fault

/-- A marker operation queued in shadow (R60, R321): by the primary copy, on a marker that the loader read from the
pattern. -/
def Work.mark (w : Work) (e : Site) (set : Bool) (marker value : Nat) : Work :=
  if !e.p.markers.contains marker then w.fault
  else if e.copy = 1 then w
  else { w with r := { w.r with marks := w.r.marks ++ [⟨set, marker, value⟩] } }

/-- The status word of the command's booked read of a buffer (R57); no read of it has been made otherwise. -/
def Site.status (e : Site) (buffer : Nat) : Option Nat :=
  (e.it.reads.find? fun r => (e.p.handovers[r.1]?).any fun h => h.bufId == buffer && h.cmd == e.c.id).map (·.2.1)

/-- One operation of a bundle (R40, R48, R49, R57, R79 to R114, R132, R136, R150 to R159). -/
def Work.op (w : Work) (e : Site) (o : TileOp) : Work :=
  match o with
  | .readStatus dst lane buffer => match e.status buffer with
    | some v => w.put e dst lane v
    | none => w.fault
  | .loadWord dst lane off => if inTile off 4 then w.put e dst lane (w.load e off 4) else w.fault
  | .storeWord src lane off n =>
    if inTile off n && decide (n ≤ 4) then w.store e off (leBytes n (w.get e src lane)) else w.fault
  | .scalarLoad reg off =>
    if inTile off 8 then
      { w with s := { w.s with fabric := { w.s.fabric with
          sregs := Tbl.set 0 w.s.fabric.sregs (tileKey e.die e.tile * 64 + reg % 64) (w.load e off 8) } } }
    else w.fault
  | .scalarStore reg off =>
    if inTile off 8 then w.store e off (leBytes 8 (Tbl.get 0 w.s.fabric.sregs (tileKey e.die e.tile * 64 + reg % 64)))
    else w.fault
  | .pull d t srcOff dstOff n =>
    if inTile srcOff n && inTile dstOff n && decide (d < 6) && decide (t < 40) && decide (n ≤ 256) then
      let links := w.s.route d e.die
      let a : Arrival := ⟨w.s.fabric.beat + routeBeats links, links, false,
        [(e.base + dstOff, w.s.peekBytes w.r (tileBase d t + srcOff) n)], [], some (d, t)⟩
      { w with r := { w.r with arrivals := w.r.arrivals ++ [a] } }
    else w.fault
  | .inputConvert src dst lane ch => w.inputConvert e src dst lane ch
  | .outputConvert src dst lane n => w.outputConvert e src dst lane n
  | .macElement row col a b x n l pads => w.mac e row col a b x n l pads
  | .accRead dst lane row col => w.put e dst lane (w.s.acc e.die e.tile row col)
  | .fma dst a b c lane => w.put e dst lane (f32fma (w.get e a lane) (w.get e b lane) (w.get e c lane))
  | .bf16Add dst a b lane => w.put e dst lane (bf16add (w.get e a lane) (w.get e b lane))
  | .bf16Mul dst a b lane => w.put e dst lane (bf16mul (w.get e a lane) (w.get e b lane))
  | .bf16Fma dst a b c lane => w.put e dst lane (bf16fma (w.get e a lane) (w.get e b lane) (w.get e c lane))
  | .int32Add dst a b lane => w.put e dst lane (sat32 (signed 32 (w.get e a lane) + signed 32 (w.get e b lane)))
  | .int32Mul dst a b lane => w.put e dst lane (sat32 (signed 32 (w.get e a lane) * signed 32 (w.get e b lane)))
  | .select dst a b c lane => w.put e dst lane (if bit (w.get e c lane) 31 then w.get e a lane else w.get e b lane)
  | .depthwise dst lane fmt taps srcOff wgtOff pads =>
    if fmt = 0 ∨ fmt = 3 ∨ fmt = 5 then (w.put e dst lane (w.depthwise e fmt taps srcOff wgtOff pads)).charge e 2 taps else w.fault
  | .attendRow entry row h => w.attn fun a => { w with r := w.s.attendRow e.p e.c w.r a e.die e.tile entry row h }
  | .finishKey entry key h => w.attn fun a => { w with r := w.s.finishKey e.p e.c w.r a e.die e.tile entry key h }
  | .appendLatent entry token => w.attn fun a =>
    let (r, clipped, total, nan) := w.s.appendRow e.p w.r a e.quant.isSome e.die e.tile entry token
    ({ w with r := r }).stats e fun y => y.output clipped total nan
  | .markAdd m v => w.mark e false m v
  | .markSet m v => w.mark e true m v

/-! ## Signatures (R338, R339) -/

/-- What a tile that has folded nothing yet holds: no signature has this value. -/
def noSig : Nat := two64

/-- xor of words, each rotated left by its index (R338). -/
def foldWords (l : List Nat) : Nat := (List.range l.length).foldl (fun x i => x ^^^ rotl64 (l.getD i 0) (i % 64)) 0

/-- One fold. -/
def foldSig (sig x tag : Nat) : Nat := rotl64 sig 5 ^^^ x ^^^ (tag % two64)

/-- Register `reg` of a tile as 128 words of 64 bits. -/
def State.regWords (s : State) (d t reg : Nat) : List Nat :=
  (List.range 128).map fun i => s.vreg d t reg (2 * i) + 4294967296 * s.vreg d t reg (2 * i + 1)

/-- Row `row` of the accumulators as 32 words of 64 bits. -/
def State.rowWords (s : State) (d t row : Nat) : List Nat :=
  (List.range 32).map fun i => s.acc d t row (2 * i) + 4294967296 * s.acc d t row (2 * i + 1)

/-- The signature of a fold period before its first write (R338). -/
def sigStart (q : Nat) : Nat := q * 0x9E3779B97F4A7C15 % two64

/-- The writes of one beat folded: register files before accumulators, each in ascending number (R338). -/
def Work.fold (w : Work) (e : Site) : CmdRun :=
  if w.regs.isEmpty && w.rows.isEmpty then w.r
  else
    let q := w.s.fabric.beat / 256
    let key := (q * 8 + e.die) * 64 + e.tile
    let old := Tbl.get noSig w.r.sigs key
    let sig := if old = noSig then sigStart q else old
    let sig := ((List.range 32).filter w.regs.contains).foldl
      (fun g n => foldSig g (foldWords (w.s.regWords e.die e.tile n)) (n + 1)) sig
    let sig := ((List.range 128).filter w.rows.contains).foldl
      (fun g n => foldSig g (foldWords (w.s.rowWords e.die e.tile n)) ((n + 1) <<< 32)) sig
    { w.r with sigs := Tbl.set noSig w.r.sigs key sig }

/-! ## Banks, ports and lanes (R40, R44) -/

/-- What an operation asks of a bank or a port: the beat, the place (0 bank, 1 sender, 2 receiver; its number) and what for. Two that ask one
place in one beat for different things conflict (R44). -/
structure Ask where
  beat : Nat
  kind : Nat
  place : Nat
  what : List Nat
deriving DecidableEq, Repr

/-- The banks of a tile that `n` bytes at an offset lie in, by rows of 256 bytes (Table 2.1); `what` tells accesses of one row apart. PRESUMED
(log 6): a bank holds 256 KiB in a row. -/
def bankAsks (beat d t off n : Nat) (what : List Nat) : List Ask :=
  if n = 0 ∨ tileSize < off + n then []
  else (List.range ((off + n - 1) / 256 - off / 256 + 1)).map fun i =>
    ⟨beat, 0, tileKey d t * 24 + (off / 256 + i) / 1024, (off / 256 + i) :: what⟩

/-- What data from tile (sd, st) asks when it arrives in tile (d, t) in the beat before it is usable: its receiving port, and the banks that it
is written to. -/
def arrivalAsks (due sd st d t off n : Nat) : List Ask :=
  ⟨due - 1, 2, tileKey d t, [sd, st]⟩ :: bankAsks (due - 1) d t off n [2, sd, st]

/-- What an operation of a tile asks of banks and ports: in this beat, and of a pull's arrival. -/
def State.opAsks (s : State) (o : TileOp) (d t : Nat) : List Ask :=
  let beat := s.fabric.beat
  match o with
  | .loadWord _ _ off => bankAsks beat d t off 4 [0]
  | .storeWord _ _ off n => bankAsks beat d t off n [1]
  | .scalarLoad _ off => bankAsks beat d t off 8 [0]
  | .scalarStore _ off => bankAsks beat d t off 8 [1]
  | .pull sd st srcOff dstOff n =>
    bankAsks beat sd st srcOff n [0] ++ [⟨beat, 1, tileKey sd st, [d, t, srcOff, dstOff]⟩] ++
      arrivalAsks (beat + routeBeats (s.route sd d)) sd st d t dstOff n
  | _ => []

/-- What a bundle asks. -/
def State.bundleAsks (s : State) (b : Bundle) : List Ask := b.ops.flatMap fun o => s.opAsks o b.die b.tile

/-- The data that tiles have sent and that is on its way. -/
def State.flying (s : State) : List Arrival :=
  s.programs.flatMap fun p => p.iterations.flatMap fun it => it.runs.flatMap fun r => r.arrivals.filter (·.sender.isSome)

/-- What data on its way asks. -/
def Arrival.asks (a : Arrival) : List Ask :=
  match a.sender with
  | none => []
  | some (sd, st) => a.cells.flatMap fun x => match regionOf x.1 with
    | .tile d t => arrivalAsks a.due sd st d t (x.1 - tileBase d t) x.2.length
    | _ => []

/-- The commands whose bundles of one beat conflict, with one another or with data on its way (R44). -/
def State.clashing (s : State) (l : List Bundle) : List CmdRef :=
  let asks := l.flatMap fun b => (s.bundleAsks b).map fun a => (b.ref, a)
  let all := asks.map (·.2) ++ if asks.isEmpty then [] else s.flying.flatMap Arrival.asks
  ((asks.filter fun x => all.any fun y =>
    x.2.beat == y.beat && x.2.kind == y.kind && x.2.place == y.place && x.2.what != y.what).map (·.1)).eraseDups

/-- The ranges of tile SRAM that a unit reads for an operation: operands, scales and weights of the MAC array and the outlier lane, taps and
weights of the depthwise path, the scale bytes of conversions, and the rows and tables of the attention extension. They have been read in
beats before (log 6). -/
def Work.operands (w : Work) (e : Site) (o : TileOp) : List (Nat × Nat) :=
  match o with
  | .inputConvert _ _ _ ch => match e.quant with
    | some q =>
      let f := q.pass (w.rerun e)
      if f.act = 3 ∨ f.group = 0 then [] else [(f.actOff + ch / f.group, 1)]
    | none => []
  | .outputConvert _ _ _ n => match e.quant with
    | some q => if q.out = 3 ∨ q.out = 5 ∨ q.outScaleOff = 0 ∨ groupLen q.outGroup = 0 then []
        else [(q.outScaleOff + n / groupLen q.outGroup, 1)]
    | none => []
  | .macElement _ _ actOff wgtOff wideOff n nLocal _ => match e.quant with
    | some q =>
      let f := q.pass (w.rerun e)
      let groups := if f.group = 0 then 0 else q.k / f.group
      [(actOff, fmtBytes f.act q.k), (wgtOff, fmtBytes f.wgt q.k), (f.actOff, groups), (f.wgtOff + n * groups, groups)] ++
        (match q.outliers with
        | some (_, off, l) => if bit q.flags 0 then (l.map fun ch => if q.src = 3 then (wideOff + 2 * ch, 2) else (wideOff + 4 * ch, 4)) ++
            (List.range l.length).map fun i => (off + 2 * (i * nLocal + n), 2) else []
        | none => [])
    | none => []
  | .depthwise _ _ fmt taps srcOff wgtOff _ => [(srcOff, fmtBytes fmt taps), (wgtOff, fmtBytes fmt taps)]
  | .attendRow entry row h => match w.r.attn with
    | some a =>
      let at_ := h * a.budget + a.firstRow entry + row
      [(a.f 68 4 + 2 * at_ * a.headDim, 2 * a.headDim)]
    | none => []
  | .finishKey entry key h => match w.r.attn with
    | some a => [(a.f 92 4 + 4 * ((h * a.budget + a.firstRow entry + key) * a.headDim), 4 * a.headDim)]
    | none => []
  | .appendLatent entry token => match w.r.attn.bind fun a => (w.s.pool a.pool).map fun q => (a, q) with
    | some (a, q) => [(a.f 76 4 + 4 * (a.firstRow entry + token) * q.width, 4 * q.width)]
    | none => []
  | _ => []

/-- An operation, with the rows of tile SRAM that its unit has read. -/
def Work.step (w : Work) (e : Site) (o : TileOp) : Work :=
  let rows := (w.operands e o).flatMap fun x => (bankAsks 0 e.die e.tile x.1 x.2 []).map fun a => a.place * 65536 + a.what.getD 0 0
  let v := w.op e o
  { v with r := { v.r with reads := (v.r.reads ++ rows).eraseDups } }

/-- Have the units of a command read more rows of one bank than it has had beats? Then two reads have asked for it in one beat (R44). -/
def CmdRun.bankCrowded (r : CmdRun) (beat : Nat) : Bool :=
  r.reads.any fun x => decide (beat + 1 - r.began.getD beat < (r.reads.filter fun y => y / 65536 == x / 65536).length)

/-- The lane that does an operation: one in a beat (Table 2.1). -/
def opLane (o : TileOp) : Option Nat :=
  match o with
  | .fma _ _ _ _ lane => some lane
  | .bf16Add _ _ _ lane => some lane
  | .bf16Mul _ _ _ lane => some lane
  | .bf16Fma _ _ _ _ lane => some lane
  | .int32Add _ _ _ lane => some lane
  | .int32Mul _ _ _ lane => some lane
  | .select _ _ _ _ lane => some lane
  | .inputConvert _ _ lane _ => some lane
  | .outputConvert _ _ lane _ => some lane
  | .accRead _ lane _ _ => some lane
  | _ => none

/-- Does a bundle give some lane more than one operation? -/
def bundleCrowded (b : Bundle) : Bool :=
  let l := b.ops.filterMap opLane
  decide (l.eraseDups.length < l.length)

/-- The hops of data sent from a die at a beat: the ring link, whether upwards, and the beat at which the hop begins (R49). -/
def hopsOf (die beat : Nat) (links : List Nat) : List (Nat × Bool × Nat) :=
  links.mapIdx fun i n => (n, links.head? == some die, beat + 64 * i)

/-- The hops and bytes of the pulls of a beat. -/
def State.newHops (s : State) (l : List Bundle) : List ((Nat × Bool × Nat) × Nat) :=
  l.flatMap fun b => b.ops.flatMap fun o => match o with
    | .pull d _ _ _ n => (hopsOf d s.fabric.beat (s.route d b.die)).map fun x => (x, n)
    | _ => []

/-- The hops and bytes of data on its way. -/
def State.oldHops (s : State) : List ((Nat × Bool × Nat) × Nat) :=
  s.flying.flatMap fun a =>
    (hopsOf ((a.sender.map (·.1)).getD 0) (a.due - routeBeats a.links) a.links).map fun x => (x, (a.cells.map (·.2.length)).foldl (· + ·) 0)

/-- Bytes that go over a link one way in a beat. -/
def hopBytes (l : List ((Nat × Bool × Nat) × Nat)) (x : Nat × Bool × Nat) : Nat :=
  ((l.filter fun y => y.1 == x).map (·.2)).foldl (· + ·) 0

/-- Do the bundles of a beat go beyond what lanes and ring links carry: one operation a lane, 320 bytes a link, way and beat (R40, R49)? -/
def State.overfull (s : State) (l : List Bundle) : Bool :=
  l.any bundleCrowded ||
    let new := s.newHops l
    new.any fun x => decide (320 < hopBytes (new ++ s.oldHops) x.1)

/-! ## What the sequencers issue (R41, R71, R77) -/

/-- Does a copy of a command still run its pattern: running, and past its decision only when it re-runs (R63)? -/
def runsPattern (c : Command) (r : CmdRun) (copy : Nat) : Bool :=
  r.phase == .running && (!c.wideRerun || !r.decided || bit r.rerun copy)

/-- The ALT condition whose sections are in effect (R46), 0 for the placement of the non-ALT sections. -/
def Program.placement (p : Program) : Nat := ((p.sections.find? (·.alt)).map fun x => x.condKind * 65536 + x.condMask).getD 0

/-- The reference of a command of an iteration. -/
def Program.ref (p : Program) (it : Iteration) (k : Nat) : CmdRef := ⟨Fin.ofNat 32 p.fn, Fin.ofNat 16 p.slot, it.number, k⟩

/-- The commands that run in this beat. -/
def State.runningRefs (s : State) : List CmdRef :=
  s.programs.flatMap fun p => p.iterations.flatMap fun it =>
    ((List.range it.runs.length).filter fun k => (it.runs[k]?).any fun r => r.phase == .running).map fun k => p.ref it k

/-- The patterns that run in this beat: the commands, each with a die on which its pattern runs. -/
def State.patterns (s : State) : List (CmdRef × Fin 6) :=
  s.runningRefs.flatMap fun c => match s.cmdRun c with
    | none => []
    | some (p, it, k, r) => (List.finRange 6).filterMap fun (d : Fin 6) =>
        if k.tiles.getD d.val 0 != 0 && s.runsOn p it d && runsPattern k r (p.copyOf d) then some (c, d) else none

/-- The bundles that the sequencers of a command on a die issue in this beat. A pattern fixes them: at a beat of the iteration that patterns
with this sections_digest and placement have run before, they are those of then (R71, R77); at any other beat the operand of FABRIC_BEAT
shows them, one for each tile of the group (log 6). -/
def State.issue (s : State) (bundles : List Bundle) (c : CmdRef) (d : Fin 6) : List Bundle × State :=
  match s.cmdRun c with
  | none => ([], s)
  | some (p, it, k, _) =>
    let mine := fun (y : Shown) => y.digest == p.digest && y.placement == p.placement && y.cmd == c.cmd && y.die == d.val
    let beat := s.fabric.beat - it.start
    let old := (s.shown.find? mine).getD ⟨p.digest, p.placement, c.cmd, d, 0, []⟩
    if beat < old.upTo then
      ((old.issued.filter fun x => x.1 == beat).map fun x => (⟨c, d, x.2.1, x.2.2⟩ : Bundle), s)
    else
      let l := (List.finRange 40).filterMap fun (t : Fin 40) =>
        if bit (k.tiles.getD d.val 0) t.val then bundles.find? fun b => b.ref == c && b.die == d && b.tile == t && !b.ops.isEmpty else none
      let new : Shown := { old with upTo := beat + 1, issued := old.issued ++ l.map fun b => (beat, b.tile, b.ops) }
      (l, { s with shown := s.shown.filter (fun y => !mine y) ++ [new] })

/-- What the tiles of a command with engine jobs hold at the beginning of this beat (R48). -/
def State.keepPast (s : State) (c : CmdRef) : State :=
  match s.cmdRun c with
  | none => s
  | some (p, _, k, _) => if p.engines.any (·.cmd == k.id) then s.modRun c fun r => r.keepPast s.fabric.beat else s

/-- All the bundles of this beat. -/
def State.issueAll (s : State) (bundles : List Bundle) : List Bundle × State :=
  s.patterns.foldl (init := ([], s)) fun x y =>
    let (l, s) := x.2.issue bundles y.1 y.2
    (x.1 ++ l, s)

/-- One bundle of a command that runs (R41): its operations are applied in order and the writes folded; one whose units ask
a bank twice in a beat fails (R44). The flag says that the pattern left what the manual describes. -/
def State.bundle (s : State) (b : Bundle) : State × Bool :=
  match s.cmdRun b.ref with
  | none => (s, false)
  | some (p, it, c, r) =>
    if r.phase != .running then (s, false)
    else
      let e : Site := ⟨p, it, c, b.die, b.tile⟩
      let w := b.ops.foldl (fun w o => w.step e o) (⟨s, r, [], [], false⟩ : Work)
      let t := w.s.modRun b.ref fun _ => w.fold e
      (if w.r.bankCrowded s.fabric.beat then t.failCommand b.ref 0x105 else t, w.outside)

/-! ## Engine jobs and data on its way -/

/-- A job of a run replaced. -/
def CmdRun.setJob (r : CmdRun) (j : Job) : CmdRun :=
  { r with jobs := r.jobs.map fun x => if x.die == j.die && x.entry == j.entry then j else x }

/-- One range of a job's source or auxiliary data read in HBM: does it come poisoned (R247)? The bursts of the operand lie at offsets of the
whole source. -/
def State.readRange (s : State) (base : Nat) (x : Nat × Nat) (ecc : EccResult) (safety : Bool) : State × Bool :=
  if hbmSize ≤ base + x.1 ∨ x.2 = 0 then (s, false)
  else s.eccRead (base + x.1) x.2 ((ecc.filter fun b => decide (x.1 ≤ b.offset) && decide (b.offset < x.1 + x.2)).map fun b =>
    { b with offset := b.offset - x.1 }) safety

/-- What a job reads, of its source or of its auxiliary data, in the steps numbered in `steps`. -/
def State.readSource (s : State) (p : Program) (it : Iteration) (k : Command) (r : CmdRun) (e : Engine) (d : Nat) (steps : List Nat)
    (aux : Bool) (ecc : EccResult) : State × Bool :=
  match s.jobAddr p it k d (if aux then e.auxKind else e.srcKind) (if aux then e.aux else e.src) with
  | none => (s, false)
  | some a => (steps.flatMap fun n => s.stepReads p it k r e d n aux).foldl (init := (s, false)) fun x y =>
      let (t, bad) := x.1.readRange a y ecc k.safety
      (t, x.2 || bad)

/-- The reads of a job that takes steps in this beat (R50, R117, R129, R247): one that reads poisoned data fails its command. -/
def State.readJob (s : State) (engines : List EngineRead) (c : CmdRef) (die entry : Nat) : State :=
  match s.cmdRun c with
  | none => s
  | some (p, it, k, r) => match p.engines[entry]?, r.jobs.find? fun j => j.die == die && j.entry == entry with
    | some e, some j =>
      let steps := (List.range (e.stepsBy (s.fabric.beat - (it.start + e.start)) - j.done)).map (j.done + ·)
      let ecc := fun (aux : Bool) =>
        ((engines.find? fun x => x.ref == c && x.die.val == die && x.job == entry && x.aux == aux).map (·.ecc)).getD []
      let (s, bad) := s.readSource p it k r e die steps false (ecc false)
      let (s, worse) := s.readSource p it k r e die steps true (ecc true)
      if bad || worse then s.failRuns p it (· == c.cmd) 0x510 k.id (s.sev32 k.safety) else s
    | _, _ => s

/-- The reads of every job of a command. -/
def State.readJobs (s : State) (engines : List EngineRead) (c : CmdRef) : State :=
  match s.cmdRun c with
  | none => s
  | some (_, _, _, r) => r.jobs.foldl (fun s j => s.readJob engines c j.die j.entry) s

/-- The steps that a job takes in this beat (R117). -/
def State.runJob (s : State) (c : CmdRef) (die entry : Nat) : State :=
  match s.cmdRun c with
  | none => s
  | some (p, it, k, r) => match p.engines[entry]?, r.jobs.find? fun j => j.die == die && j.entry == entry with
    | some e, some j =>
      match s.jobSteps p it k e (e.stepsBy (s.fabric.beat - (it.start + e.start)) - j.done) r j with
      | .ok (r', j') => s.modRun c fun _ => r'.setJob j'
      | .error code => s.failCommand c code
    | _, _ => s

/-- Every job of a command takes its steps. -/
def State.runJobs (s : State) (c : CmdRef) : State :=
  match s.cmdRun c with
  | none => s
  | some (_, _, _, r) => r.jobs.foldl (fun s j => s.runJob c j.die j.entry) s

/-- An NQ4 code put into the shadow: bits [3:0] or bits [7:4] of its byte (R89). -/
def State.putNibble (s : State) (r : CmdRun) (x : Nat × Nat) : CmdRun :=
  let old := (s.peek r (x.1 / 2)).toNat
  r.poke (x.1 / 2) (leBytes 1 (if x.1 % 2 = 0 then old / 16 * 16 + x.2 % 16 else old % 16 + 16 * (x.2 % 16)))

/-- Data that has arrived: a window's is the command's input, any other stands in its shadow. -/
def State.landed (s : State) (r : CmdRun) (a : Arrival) : CmdRun :=
  if a.window then { r with inputs := a.cells.foldl (fun t x => overlay t x.1 x.2) r.inputs }
  else a.nibbles.foldl s.putNibble (a.cells.foldl (fun r x => r.poke x.1 x.2) r)

/-- Is every purl link of a list in service (R272)? -/
def State.linksGood (s : State) (l : List Nat) : Bool := l.all fun n => s.memSys.linkUp.getD n false

/-- What arrives for a command by this beat (R48 to R51): data that was to come over a link that is down fails it with PURL_LATE (R272). -/
def State.arrive (s : State) (c : CmdRef) : State :=
  match s.cmdRun c with
  | none => s
  | some (_, _, _, r) =>
    let due := r.arrivals.filter fun a => decide (a.due ≤ s.fabric.beat)
    if due.isEmpty then s
    else if due.all fun a => s.linksGood a.links then
      s.modRun c fun r => due.foldl s.landed { r with arrivals := r.arrivals.filter fun a => !decide (a.due ≤ s.fabric.beat) }
    else s.failCommand c 0x140

/-- The commands that data is on its way to. -/
def State.awaiting (s : State) : List CmdRef :=
  s.programs.flatMap fun p => p.iterations.flatMap fun it =>
    ((List.range it.runs.length).filter fun k => (it.runs[k]?).any fun r => !r.arrivals.isEmpty).map fun k => p.ref it k

/-- Jobs whose end_beat has come are over: what their engine held is gone (R118). -/
def State.endJobs (s : State) (c : CmdRef) : State :=
  match s.cmdRun c with
  | none => s
  | some (p, it, _, _) => s.modRun c fun r =>
      { r with jobs := r.jobs.filter fun j => (p.engines[j.entry]?).any fun e => decide (s.fabric.beat < it.start + e.stop) }

/-- Fabric writes that are complete by this beat stand in their targets; the HBM they write is good again (R50, R247). -/
def State.completeWrites (s : State) : State :=
  let due := s.fabric.outgoing.filter fun x => decide (x.due ≤ s.fabric.beat)
  let s := due.foldl (init := s) fun s x =>
    let s := s.devWrite x.addr x.bytes
    if x.addr < hbmSize then s.unpoison x.addr x.bytes.length else s
  { s with fabric := { s.fabric with outgoing := s.fabric.outgoing.filter fun x => !decide (x.due ≤ s.fabric.beat) } }

/-- The beats in which a command of a stall lies within its span are counted (BUSY of HUB_CFG_STALL_CNT). -/
def State.countBusy (s : State) : State :=
  let busy := (s.programs.filter fun p => p.fn != 0 && match p.running with
    | none => false
    | some r => r.iters.any fun i => i.runs.any fun x => x.phase == .running).map (·.fn)
  busy.eraseDups.foldl (fun s k => s.count .HUB_CFG_STALL_CNT_COUNT k 2) s

/-- FABRIC_BEAT (R41, R44, R48 to R51, R117, R247): every sequencer issues its bundle, a conflict fails its command, the engines read and take
their steps, the package beat counter advances by one on all six compute dies, and what is due at the new beat arrives. -/
def execFabricBeat (bundles : List Bundle) (engines : List EngineRead) (s : State) : Out :=
  let n := s.fabric.beat
  let tooMuch := s.overfull (s.issueAll bundles).1
  let (l, s) := s.issueAll bundles
  let s := s.runningRefs.foldl State.keepPast s
  let s := (s.clashing l).foldl (fun s c => s.failCommand c 0x105) s
  let (s, bad) := l.foldl (init := (s, tooMuch)) fun (x : State × Bool) b =>
    let (s, f) := x.1.bundle b
    (s, x.2 || f)
  if bad then .fault .patternOutsideManual
  else
    let s := s.runningRefs.foldl (fun s c => s.readJobs engines c) s
    let s := (s.runningRefs.foldl State.runJobs s).countBusy
    let s := { s with fabric := { s.fabric with beat := (n + 1) % two64 } }
    let s := (s.awaiting.foldl State.arrive (s.runningRefs.foldl State.endJobs s)).completeWrites
    .next (s.programs.foldl (fun s p => s.reap p.fn p.slot) s)

end Sys2Proof.Machine
end

