-- ==== Sys2Proof/Machine/Iterations.lean ====
section
/-!
DEFINITION. Machine/Iterations.lean: what happens within an iteration at its booked beats (02): commands, re-run decisions,
engine jobs, windows, handovers, kills and task watches (R42, R50 to R73, R104 to R110, R116, R330, R331).
-/

namespace Sys2Proof.Machine

/-! ## Task watches (R72, R73) -/

/-- A watch of a command of an iteration changed by `g` on each die of its group. -/
def State.modWatch (s : State) (p : Program) (it : Iteration) (k : Nat) (c : Command) (g : Watch → Watch) : State :=
  (s.diesOf p it c).foldl (init := s) fun s d =>
    let x := s.watch d c.watch
    if x.armed && x.fn == p.fn && x.slot == p.slot && x.iter == it.number && x.index == k then
      s.setWatch d c.watch (g x)
    else s

/-- A command's commit recorded by its watches; a watch whose two beats are as expected goes on to its next command. -/
def State.watchCommit (s : State) (p : Program) (it : Iteration) (k : Nat) (c : Command) : State :=
  let s := s.modWatch p it k c fun x => { x with commit := some s.fabric.beat }
  (s.diesOf p it c).foldl (init := s) fun s d =>
    let x := s.watch d c.watch
    if x.armed && x.index == k && x.fn == p.fn && x.slot == p.slot && x.iter == it.number && x.start == some x.expStart &&
        x.commit == some x.expCommit then
      s.nextWatch p it d (c.watch % 64) c.start
    else s

/-- WATCH_DEVIATION (R53, R72, R73): a recorded beat differs from the expected one, or no commit has taken effect by the expected
beat. The record carries both recorded beats, 32 bits of each (log 44). The watch goes on to its next command, and a tile that the
deviation is traced to is marked; of a stall's program it is a fault of the stall (R479). -/
def execWatchDeviation (die : Fin 6) (watch : TracedWatch) (s : State) : Out :=
  let x := s.watch die watch.watch
  let wrong := x.start.any (· != x.expStart) || x.commit.any (· != x.expCommit) ||
    (x.start.isNone && decide (x.expStart < s.fabric.beat)) || (x.commit.isNone && decide (x.expCommit < s.fabric.beat))
  if x.armed && wrong then
    let c : Option Command := (s.program x.fn x.slot).bind fun p => p.commands[x.index]?
    let beats := x.start.getD 0 % 4294967296 + 4294967296 * (x.commit.getD 0 % 4294967296)
    let s := s.report 0x130 (s.sev32 ((c.map (·.safety)).getD false)) (some x.cmd) (some beats) (origin := die.val + 1)
    let s := match s.program x.fn x.slot, s.iteration x.fn x.slot x.iter with
      | some p, some it => s.nextWatch p it die watch.watch ((c.map Command.start).getD 0)
      | _, _ => s.setWatch die watch.watch Watch.zero
    let s := match watch.tile with
      | some t => s.tileFault die (s.physOf die t)
      | none => s
    .next (s.stallFault x.fn 0x130)
  else .next s

/-! ## Iterations (R42, R70, R303) -/

/-- The pairs whose warm-up takes in the next iteration (R350). -/
def Program.warmMask (p : Program) : Nat := p.warm.foldl (fun m w => if w.left = 0 then m else m ||| w.mask) 0

/-- A fresh iteration of a program. -/
def Iteration.fresh (p : Program) (number start entryBeat entry : Nat) (reissued : Bool) : Iteration :=
  { number := number, start := start, entryBeat := entryBeat, entry := entry,
    runs := p.commands.map fun _ => CmdRun.fresh, covering := [], failure := none, killed := false, served := [],
    written := [], reads := [], warm := p.warmMask, reissued := reissued, instant := none, split := p.split,
    invalid := false, differed := false }

/-- The first beat of an entry, 0 for the iteration start (R70). -/
def Program.entryBeat (p : Program) (entry : Nat) : Nat :=
  if entry = 0xFFFFFFFF then 0 else ((p.command entry).map (·.start)).getD 0

/-- The start of the iteration after one that starts at `b` (R303). -/
def Program.nextStart (p : Program) (b : Nat) : Nat := b + p.repeatBeats

/-- What holds the iterations of a stall's programs back (R476, R480): a power shed, a stopped coolant, or a checkpoint past
its boundary. -/
def State.stallWaits (s : State) (fn : Nat) : Bool :=
  fn != 0 && ((s.stallOf fn).powerShed || s.fld .PWR_STATUS_FLOW_STOP == 1 || s.ckptHolds fn)

/-- The generators of the lanes of a program's tiles set back to their seeds (R112). -/
def State.seedLanes (s : State) (p : Program) : State :=
  { s with fabric := { s.fabric with gens := s.fabric.gens.filter fun g =>
      !(p.commands.any fun c => bit (c.tiles.getD (g.1 / 16384) 0) (g.1 / 256 % 64)) } }

/-- Has a program a pair change whose boundary an iteration start at `beat` would be (R347)? -/
def Program.changeDue (p : Program) (beat : Nat) : Bool := p.changes.any fun c => decide (c.after ≤ beat)

/-- The first iteration that B starts through a cross-package barrier is the boundary of the scope-1 JOINs that wait (R351). -/
def State.packageJoined (s : State) (fn : Nat) (r : Running) : State :=
  if fn = 0 ∧ r.barrier.isSome ∧ s.gauge.package ≠ [] then
    let g := { s.gauge with package := [] }
    let p := { s.pair with advisory := false }
    s.gauge.package.foldl (fun s t => s.finish t 0 0 0) { s with gauge := g, pair := p }
  else s

/-- ITERATION_START (R42, R43, R70, R112, R303): at the chosen frame boundary. One that a stall's shed or checkpoint holds
back waits for the next boundary. -/
def execIterationStart (fn : Fin 32) (slot : Fin 16) (s : State) : Out :=
  match s.program fn slot with
  | none => .next s
  | some p => match p.running with
    | none => .next s
    | some r =>
      if r.next ≠ some s.fabric.beat ∨ s.fabric.beat % 8192 ≠ 0 ∨ p.changeDue s.fabric.beat then .next s
      else if s.stallWaits fn then
        .next (s.modRunning fn slot fun r => { r with next := some (s.fabric.beat + 8192) })
      else
        let it := Iteration.fresh p p.begun s.fabric.beat (p.entryBeat r.entry) r.entry false
        let last := r.left == some 1
        let s := ((s.gaugeBoundary fn slot).seedLanes p).packageJoined fn r
        let s := s.modProgram fn slot fun p =>
          { p with begun := p.begun + 1, warm := p.warm.map fun w => { w with left := w.left - 1 } }
        let s := s.modRunning fn slot fun r =>
          { r with iters := r.iters ++ [it], count := r.count + 1, left := r.left.map (· - 1), entry := 0xFFFFFFFF,
                   barrier := none, next := if last then none else some (p.nextStart s.fabric.beat) }
        let s := if last then s else s.bookAt p (p.nextStart s.fabric.beat)
        .next (s.armWatches p it)

/-! ## Commands -/

/-- COMMAND_START (R51, R59, R149, R152, R153): a command takes its tiles at its start beat, and fails on a die that is off; an attention command checks its
layer descriptor and length table. -/
def execCommandStart (c : CmdRef) (s : State) : Out :=
  match s.cmdRun c with
  | none => .next s
  | some (p, it, k, r) =>
    if r.phase ≠ .idle ∨ s.fabric.beat ≠ it.start + k.start ∨ k.start < it.entryBeat then .next s
    else
      let s := s.modRun c fun r => { r with phase := .running, began := some s.fabric.beat }
      let s := s.modWatch p it c.cmd k fun x => { x with start := some s.fabric.beat }
      if (List.range 6).any fun d => k.tiles.getD d 0 != 0 && !s.fabric.dieOn.getD d false then .next (s.failCommand c 0x140)
      else if s.idleTile k then .next (s.failCommand c 0x901)
      else match s.layerOf p k with
      | none => .next s
      | some l => match s.attnStart p it k r l with
        | .ok a => .next (s.modRun c fun r => { s.fillHot p k r a [] with attn := some a })
        | .error code => .next (s.failCommand c code)

/-- Does a copy's clipped share exceed the threshold (R106)? -/
def exceeds (x : CmdStats) (threshold : Nat) : Bool := decide (threshold * x.inTotal < x.inClipped * 65536)

/-- A table of bytes without those of the tile SRAM of the dies of a copy. -/
def dropDies {α : Type} (t : Tbl α) (dies : List Nat) : Tbl α :=
  t.filter fun b => match regionOf b.1 with
    | .tile d _ => !dies.contains d
    | _ => true

/-- Is data on its way to a tile of one of the dies? -/
def Arrival.toDies (a : Arrival) (dies : List Nat) : Bool :=
  let hits := fun (x : Nat) => match regionOf x with
    | .tile d _ => dies.contains d
    | _ => false
  a.cells.any (fun x => hits x.1) || a.nibbles.any fun x => hits (x.1 / 2)

/-- A copy's first pass discarded for its re-run (R63): its shadow and what is on its way there, its output counts and its marker
operations; the data its windows bring and the counts of its input conversions stay. -/
def CmdRun.startRerun (r : CmdRun) (p : Program) (copy : Nat) : CmdRun :=
  let dies := p.copyDies (copy == 1)
  let r := { r with rerun := r.rerun ||| 2 ^ copy, shadow := dropDies r.shadow dies,
                    arrivals := r.arrivals.filter fun a => a.window || !a.toDies dies,
                    past := r.past.map (fun (x : Nat × Tbl (Option Byte) × Tbl (Option Byte)) => (x.1, x.2.1, dropDies x.2.2 dies)),
                    marks := if copy = 0 then [] else r.marks,
                    backRows := r.backRows.filter fun e => !dies.contains (e.1 / 8192) }
  r.modStats copy fun x => { x with outClipped := 0, outTotal := 0 }

/-- WIDE_RERUN_DECISION (R63, R106, R107, R110): each copy judges its clipped share at decision_beat. -/
def execWideRerunDecision (c : CmdRef) (s : State) : Out :=
  match s.cmdRun c with
  | none => .next s
  | some (p, it, k, r) =>
    if r.phase ≠ .running ∨ !k.wideRerun ∨ r.decided ∨ s.fabric.beat ≠ it.start + k.decision then .next s
    else
      let thr := ((p.quants.find? fun q => q.cmd == k.id).map (·.threshold)).getD 0
      let tooBig := fun (n : Nat) => ((r.stats[n]?).map fun x => exceeds x thr).getD false
      .next (s.modRun c fun r =>
        let r := { r with decided := true }
        let r := if tooBig 0 then r.startRerun p 0 else r
        if tooBig 1 then r.startRerun p 1 else r)

/-- The bytes of a layer statistics record (Table 3.12). -/
def CmdStats.record (x : CmdStats) (rerun : Bool) : List Byte :=
  leBytes 4 x.inClipped ++ leBytes 4 x.inTotal ++ leBytes 4 x.outClipped ++ leBytes 4 x.outTotal ++
    leBytes 4 x.rerunInClipped ++ leBytes 4 ((if rerun then 1 else 0) + (if x.nanCount = 0 then 0 else 2)) ++
    leBytes 4 x.nanCount ++ leBytes 4 0

/-- The statistics of one copy put into the shadow: the record on its lead tile, group_clipped on each of its tiles (R104,
R105, Table 3.8). -/
def CmdRun.putStats (r : CmdRun) (p : Program) (c : Command) (q : Quant) (copy : Nat) : CmdRun :=
  match r.stats[copy]?, p.leadTile c (copy == 1) with
  | some x, some (d, t) =>
    let r := r.poke (tileBase d t + q.statsOff) (x.record (bit r.rerun copy))
    if !bit q.flags 2 || groupLen q.group == 0 then r
    else (p.copyTiles c (copy == 1)).foldl (init := r) fun r y =>
      r.poke (tileBase y.1 y.2 + q.groupStatsOff) ((List.range (q.k / groupLen q.group)).flatMap fun g =>
        leBytes 4 (Tbl.get 0 x.groupClipped (tileKey y.1 y.2 * 65536 + g)))
  | _, _ => r

/-- The status bytes of a length table put into the shadow of every tile of the group (R153). -/
def CmdRun.putStatus (r : CmdRun) (p : Program) (c : Command) : CmdRun :=
  match r.attn with
  | none => r
  | some a => (p.copyTiles c false ++ p.copyTiles c true).foldl (init := r) fun r y =>
      r.poke (tileBase y.1 y.2 + a.f 48 4) (a.entries.flatMap fun e => leBytes 1 e.status)

/-- The bytes of an overlay written to memory, for the dies that run. -/
def State.applyOverlay (s : State) (t : Tbl (Option Byte)) : State :=
  { s with mem := t.foldl (fun m e => match e.2 with | some b => Tbl.set 0 m e.1 b | none => m) s.mem }

/-- The marker operations of a command take effect in order (R60, R321, R322). -/
def State.applyMarks (s : State) (l : List MarkOp) : State :=
  l.foldl (fun s m => if m.set then s.setMarker m.marker m.value else s.addMarker m.marker m.value) s

/-- The counters that a commit advances (R109, R115, R118): re-runs on each die of a copy that took one, NaNs on the copy's
lead die, and the engine counters. -/
def State.commitCounters (s : State) (p : Program) (it : Iteration) (c : Command) (r : CmdRun) : State :=
  let dies := s.diesOf p it c
  let s := dies.foldl (init := s) fun s d =>
    let s := if bit r.rerun (p.copyOf d) then s.count .CD_RERUN_COUNT_COUNT d else s
    let s := s.count .CD_ENG_CENTRE_ONLY_COUNT d 0 (Tbl.get 0 r.engineCounts (2 * d))
    s.count .CD_ENG_STEM_CLIP_COUNT d 0 (Tbl.get 0 r.engineCounts (2 * d + 1))
  [0, 1].foldl (init := s) fun s copy =>
    match r.stats[copy]?, p.leadTile c (copy == 1) with
    | some x, some (d, _) =>
      if dies.contains d && (p.quants.any fun q => q.cmd == c.id) then s.count .CD_NAN_COUNT_COUNT d 0 x.nanCount else s
    | _, _ => s

/-- What an attention command's commit does to its pool (R163 to R165). -/
def State.commitAttn (s : State) (p : Program) (r : CmdRun) : State :=
  match r.attn with
  | none => s
  | some a =>
    if !a.append then s
    else
      let s := if a.allocBeat != 0 then s.commitPages a.pool a r.pages else s
      let s := s.writeRows p a r.rows
      if ((s.pool a.pool).map fun q => a.layerNo + 1 == q.layers).getD false then s.commitLength a.pool a else s

/-- Are the agreement entries of a command that its iteration evaluates all judged (R335, R348)? -/
def Program.agreementsIn (p : Program) (it : Iteration) (c : Command) (r : CmdRun) : Bool :=
  (List.range p.agrees.length).all fun i =>
    match p.agrees[i]? with
    | some a => a.cmd != c.id || !it.runsPair p a.die || r.verdicts.contains i
    | none => true

/-- COMMAND_COMMIT (R60, R72, R104, R105, R109, R115, R118, R163 to R165, R321, R339): all that a command holds in shadow
becomes visible in one step. -/
def execCommandCommit (c : CmdRef) (s : State) : Out :=
  match s.cmdRun c with
  | none => .next s
  | some (p, it, k, r) =>
    if r.phase ≠ .running ∨ s.fabric.beat ≠ it.start + k.commit ∨ (k.wideRerun && !r.decided) ∨ !p.agreementsIn it k r then
      .next s
    else
      let r' := match p.quants.find? fun q => q.cmd == k.id with
        | some q => (r.putStats p k q 0).putStats p k q 1
        | none => r
      let r' := r'.putStatus p k
      let off := (List.range 6).filter fun d => !s.runsOn p it d
      let s := (s.applyOverlay (dropDies r'.inputs off)).applyOverlay (dropDies r'.shadow off)
      let s := (s.commitCounters p it k r').commitAttn p r'
      let s := s.modRun c fun _ =>
        { r' with phase := .committed, ended := some s.fabric.beat, inputs := [], shadow := [], arrivals := [], jobs := [], past := [], reads := [] }
      let s := if r'.attn.any fun a => a.entries.any (·.status != 0) then
          s.modRunning c.fn c.slot fun r => { r with skipped := true } else s
      let s := s.watchCommit p it c.cmd k
      let s := if it.pairedNow p k then
          s.modIteration c.fn c.slot c.iter fun i => { i with covering := i.covering ++ [⟨k.id, 1, 0, s.now, []⟩] } else s
      let s := if p.fn = 0 then s else s.count .HUB_CFG_STALL_CNT_COUNT p.fn 1
      .next ((s.applyMarks r'.marks).reap c.fn c.slot)

/-- ENGINE_JOB_START (R116 to R119, R125, R135, R142): a job begins on every die of its command's group. One that finds the engine of a
die taken by another program's job does not begin there (log 98). -/
def execEngineJobStart (c : CmdRef) (job : Nat) (s : State) : Out :=
  match s.cmdRun c with
  | none => .next s
  | some (p, it, k, r) => match p.engines[job]? with
    | none => .next s
    | some e =>
      if r.phase ≠ .running ∨ e.cmd ≠ k.id ∨ s.fabric.beat ≠ it.start + e.start ∨ r.jobs.any (·.entry == job) then .next s
      else
        let dies := (s.diesOf p it k).filter fun d => !s.engineBusy d e.kind
        .next (s.modRun c fun r => dies.foldl (init := r) fun r d =>
          let r := { r with jobs := r.jobs ++ [s.newJob p it k r e job d] }
          if e.centreOnly then r.countEngine (2 * d) else r)

/-! ## Windows (R50, R58, R247, R274, R330) -/

/-- ⌈n beats at the present beat step⌉ in ns (400 MHz is step 4). -/
def State.beatsNs (s : State) (n : Nat) : Nat := ceilDiv (n * 10) (max 1 s.fabric.step)

/-- The value of a chunk in the gauge comparison (R337). -/
def chunkValue (l : List Byte) (cmd beat index : Nat) : Nat :=
  leVal (shake256 (l ++ leBytes 4 cmd ++ leBytes 8 beat ++ leBytes 4 index) 8)

/-- A chunk's value enters its gauge unit. -/
def addChunk (l : List Covering) (cmd index first v : Nat) : List Covering :=
  if l.any fun x => x.kind == 0 && x.cmd == cmd && x.index == index then
    l.map fun x => if x.kind = 0 ∧ x.cmd = cmd ∧ x.index = index then { x with values := x.values ++ [v] } else x
  else l ++ [⟨cmd, 0, index, first, [v]⟩]

/-- The index of the primary copy's window of an outbound window. -/
def Program.primaryWindow (p : Program) (w : Window) (i : Nat) : Nat :=
  if p.secondary w then
    (p.windows.findIdx? fun v => v.die + 3 == w.die && v.cmd == w.cmd && v.tile == w.tile && v.beat == w.beat &&
      v.dir == w.dir && v.target == w.target).getD i
  else i

/-- The chunks of an outbound window of a paired command enter the gauge unit of its pair (R337). -/
def State.enterChunks (s : State) (c : CmdRef) (p : Program) (w : Window) (i : Nat) (l : List Byte) : State :=
  let k := p.primaryWindow w i
  let first := s.now + s.beatsNs (windowBeats w.size)
  s.modIteration c.fn c.slot c.iter fun it =>
    { it with covering := (List.range (ceilDiv w.size 4096)).foldl (init := it.covering) fun acc j =>
        addChunk acc w.cmd (k * 8192 + j) first (chunkValue ((l.drop (4096 * j)).take 4096) w.cmd w.beat j) }

/-- The data of a window into the fabric: where it comes from and whether it arrives poisoned (R50, R56, R247). -/
def State.windowIn (s : State) (p : Program) (it : Iteration) (k : Command) (w : Window) (ecc : EccResult) :
    State × List Byte × Bool :=
  if w.target = 1 then
    match it.reads.find? fun r => (p.handovers[r.1]?).any fun h => h.bufId == w.addr % 1024 with
    | some (_, _, some a) =>
      let (s, bad) := if a < hbmSize then s.eccRead a w.size ecc k.safety else (s, false)
      (s, s.devRead a w.size, bad)
    | _ => (s, List.replicate w.size 0, false)
  else
    let a := s.devAddr p.fn w.addr
    let (s, bad) := if a < hbmSize then s.eccRead a w.size ecc k.safety else (s, false)
    (s, s.devRead a w.size, bad)

/-- HBM bytes of a stall counted in units of 256 (HUB_CFG_STALL_CNT). -/
def State.countBytes (s : State) (fn size : Nat) : State :=
  if fn = 0 then s else s.count .HUB_CFG_STALL_CNT_COUNT fn 3 (size / 256)

/-- Data on its way to a command's tiles. -/
def State.sendTo (s : State) (c : CmdRef) (l : List Arrival) : State := s.modRun c fun r => { r with arrivals := r.arrivals ++ l }

/-- A window into the fabric: its data is the command's input once it has come over the hub link of its die (R50, R59); from memory that does
not answer none comes (R51, R407). -/
def State.moveIn (s : State) (c : CmdRef) (p : Program) (it : Iteration) (k : Command) (w : Window) (ecc : EccResult) :
    State :=
  let (s', l, bad) := s.windowIn p it k w ecc
  let a := if w.target = 0 then s.devAddr p.fn w.addr else hubBase
  if !s.memoryUp a w.size then s.failCommand c 0x140
  else
  let s := s'
  if bad then s.failRuns p it (· == c.cmd) 0x510 k.id (s.sev32 k.safety)
  else s.sendTo c [⟨s.fabric.beat + windowBeats w.size, [6 + w.die], true, [(tileBase w.die w.tile + w.tileOff, l)], [], none⟩]

/-- A relay window (R274): tile SRAM of one die to the same tile and offset of the other (log 17), 256 bytes a beat, each usable 224 beats
after its beat. -/
def State.moveRelay (s : State) (c : CmdRef) (r : CmdRun) (w : Window) : State :=
  let l := s.peekBytes r (tileBase w.die w.tile + w.tileOff) w.size
  let dst := w.addr % 8
  s.sendTo c ((List.range (ceilDiv w.size 256)).map fun i =>
    ⟨s.fabric.beat + 224 + i, [6 + w.die, 6 + dst], true,
      [(tileBase dst w.tile + w.tileOff + 256 * i, (l.drop (256 * i)).take 256)], [], none⟩)

/-- A fabric write on its way (R50). -/
def State.sendOut (s : State) (w : Window) (addr : Nat) (l : List Byte) : State :=
  { s with fabric := { s.fabric with outgoing := s.fabric.outgoing ++ [⟨s.fabric.beat + windowBeats w.size, w.die, addr, l⟩] } }

/-- A window out of the fabric, of a committed command (R50, R58, R330): to memory, or to the half that a handover write fills, which is
not ready while it is written; a secondary's handover and hub windows go to the gauge unit only. -/
def State.moveOut (s : State) (c : CmdRef) (p : Program) (it : Iteration) (w : Window) (i : Nat) : State :=
  let l := s.devRead (tileBase w.die w.tile + w.tileOff) w.size
  let s := if it.runsPair p (w.die % 3) && (p.primary w || p.secondary w) then s.enterChunks c p w i l else s
  if w.target = 2 then
    let half := ((s.buffer (w.addr % 1024)).map Buffer.freeHalf).getD 0
    let s := if p.secondary w then s
      else match s.buffer (w.addr % 1024) with
        | none => s
        | some b => (s.clearReady (w.addr % 1024) half).sendOut w (b.halfAddr half) l
    s.modIteration c.fn c.slot c.iter fun x => { x with served := x.served ++ [(i, half)] }
  else
    let a := s.devAddr p.fn w.addr
    let s := if decide (hbmSize ≤ a) && p.secondary w then s else s.sendOut w a l
    s.modIteration c.fn c.slot c.iter fun x => { x with served := x.served ++ [(i, 0)] }

/-- WINDOW_BOOKED_BEAT (R50, R59, R247, R253, R274, R330, R337): a window moves its data at its booked beat. -/
def execWindowBookedBeat (c : CmdRef) (window : Nat) (ecc : EccResult) (s : State) : Out :=
  match s.cmdRun c with
  | none => .next s
  | some (p, it, k, r) => match p.windows[window]? with
    | none => .next s
    | some w =>
      if w.cmd ≠ k.id ∨ s.fabric.beat ≠ it.start + w.beat ∨ it.served.any (·.1 == window) ∨ !s.runsOn p it w.die ∨
          k.start < it.entryBeat then .next s
      else if w.dir = 1 ∧ w.target ≠ 3 then
        if r.phase = .committed then
          .next ((s.moveOut c p it w window).countBytes (if w.inHbm then p.fn else 0) w.size) else .next s
      else if !r.uncommitted then .next s
      else
        let s := s.modIteration c.fn c.slot c.iter fun x => { x with served := x.served ++ [(window, 0)] }
        if w.target = 3 then .next (s.moveRelay c r w)
        else .next ((s.moveIn c p it k w ecc).countBytes (if w.inHbm then p.fn else 0) w.size)

/-- PURL_DATA_RELEASE (R49, R51): the elastic buffer releases its data at the fixed beat; data that is missing fails the
receiving command. -/
def execPurlDataRelease (c : CmdRef) (present : Bool) (s : State) : Out :=
  match s.cmdRun c with
  | none => .next s
  | some (_, _, _, r) => if !present && r.uncommitted then .next (s.failCommand c 0x140) else .next s

/-! ## Covering verdicts (R341) -/

/-- Does a comparison bind the iteration's outputs: not in the warm-up of its pairs (R350)? -/
def Iteration.binds (p : Program) (it : Iteration) (x : Covering) : Bool :=
  if x.kind = 0 then ((p.windows[x.index / 8192]?).map fun w => it.compares p (w.die % 3)).getD true
  else ((p.command x.cmd).map (it.comparedNow p)).getD true

/-- Are all verdicts that cover an output of command `k` in: its chunks of a window, and the signature sets of the paired
commands that committed by its commit beat? -/
def Iteration.covered (p : Program) (it : Iteration) (k : Command) (window : Nat) : Bool :=
  it.covering.all fun x =>
    if !it.binds p x then true
    else if x.kind = 0 then !(x.cmd == k.id && x.index / 8192 == window)
    else ((p.command x.cmd).map fun y => decide (k.commit < y.commit)).getD true

/-- The halves of an iteration whose covering verdicts are in are released (R342). -/
def State.releaseHalves (s : State) (fn slot iter : Nat) : State :=
  match s.program fn slot, s.iteration fn slot iter with
  | some p, some it =>
    it.served.foldl (init := s) fun s x =>
      match p.windows[x.1]? with
      | none => s
      | some w =>
        if w.target ≠ 2 ∨ p.secondary w ∨ !it.written.contains x.1 then s
        else match p.command w.cmd, s.buffer (w.addr % 1024) with
          | some k, some b => match b.halves[x.2]? with
            | some h =>
              if h.pendingVerdict && h.iter == some it.number && it.covered p k x.1 then
                s.putHalf (w.addr % 1024) x.2 { h with pendingVerdict := false, agreed := true }
              else s
            | none => s
          | _, _ => s
  | _, _ => s

/-- OUTBOUND_WRITE_COMPLETE (R50, R55, R58, R330, R342): the half is ready with the next generation, pending its verdict when
copies on its die and the partner are compared, and without the gauge's agreement otherwise (R35); an unread other half is counted. -/
def execOutboundWriteComplete (c : CmdRef) (window : Nat) (s : State) : Out :=
  match s.cmdRun c with
  | none => .next s
  | some (p, it, k, _) => match p.windows[window]?, it.served.find? (·.1 == window) with
    | some w, some (_, half) =>
      if w.target ≠ 2 ∨ it.written.contains window ∨ s.fabric.beat ≠ it.start + w.beat + windowBeats w.size then .next s
      else
        let s := s.modIteration c.fn c.slot c.iter fun x => { x with written := x.written ++ [window] }
        let id := w.addr % 1024
        if p.secondary w then .next s
        else match s.buffer id with
          | none => .next s
          | some b =>
            let other := ((b.halves[1 - half]?).map (·.ready)).getD false
            let s := if other then s.tally 0x04 (b.entry.tallySource % 65536) else s
            let pend := it.compares p (w.die % 3) && k.tiles.getD (w.die % 3) 0 != 0 && !it.invalid
            let s := s.fillHalf id half fun h =>
              { h with pendingVerdict := pend, invalid := it.invalid, ready := !it.invalid, bytes := w.size, instant := it.instant,
                       iter := some it.number }
            .next (s.releaseHalves c.fn c.slot c.iter)
    | _, _ => .next s

/-! ## Inbound handovers (R56, R57, R179, R331) -/

/-- What a booked read of an inbound buffer finds: the status word and address of fresh data, or what USE_PREVIOUS reads
(none when the buffer was never read), with the state after the sampling. -/
def State.sample (s : State) (id : Nat) : Option (Nat × Nat) × Option (Nat × Nat) × State :=
  match s.backing id with
  | some n =>
    let (slot, gen, fresh, s) := s.streamRead n
    let at_ := slot.map fun k => (gen * 2, s.slotAddr n k)
    if fresh then (at_.map fun x => (x.1 + 1, x.2), none, s) else (none, at_, s)
  | none => match s.buffer id with
    | none => (none, none, s)
    | some b =>
      let old := b.lastRead.bind fun h => (b.halves[h]?).map fun x => (x.gen * 2, b.halfAddr h)
      match b.newest with
      | some h =>
        let gen := ((b.halves[h]?).map (·.gen)).getD 0
        let s := (s.setBuffer id (some { b with lastRead := some h })).clearReady id h
        (some (gen * 2 + 1, b.halfAddr h), none, s)
      | none => (none, old, s)

/-- The FAIL policy (R56): every uncommitted command of the iteration fails; one record is made for the buffer, which for a stall's program is
a fault of the stall (R479). -/
def State.handoverFail (s : State) (p : Program) (it : Iteration) (k : Command) : State :=
  let safety := (List.range p.commands.length).any fun i =>
    match p.commands[i]?, it.runs[i]? with
    | some c, some r => r.uncommitted && decide (it.entryBeat ≤ c.start) && c.safety
    | _, _ => false
  let sev := s.sev32 safety
  ((s.failRuns p it (fun _ => true) 0x110 k.id sev).report 0x110 sev).stallFault p.fn 0x110

/-- HANDOVER_BOOKED_READ (R56, R57, R76, R198, R331): sampled once for both copies; the policy outcome that applied is
counted. DESIGN CHOICE (log 103): of the 32-bit tally_source the low 16 bits are held against TALLY_SEL's SOURCE. -/
def execHandoverBookedRead (c : CmdRef) (buffer : Fin 1024) (s : State) : Out :=
  match s.cmdRun c with
  | none => .next s
  | some (p, it, k, r) => match p.handovers.findIdx? fun h => h.bufId == buffer.val && h.dir == 0 && h.cmd == k.id with
    | none => .next s
    | some i => match p.handovers[i]? with
      | none => .next s
      | some h =>
        if s.fabric.beat ≠ it.start + h.booked ∨ it.reads.any (·.1 == i) ∨ !r.uncommitted ∨ k.start < it.entryBeat then
          .next s
        else
          let src := h.tallySource % 65536
          let (fresh, old, s) := s.sample buffer
          let note := fun (s : State) (word : Nat) (a : Option Nat) => s.modIteration c.fn c.slot c.iter fun x =>
            { x with reads := x.reads ++ [(i, word, a)],
                     instant := if (s.backing buffer).isSome then s.readFor else x.instant }
          match fresh with
          | some (w, a) => .next (note s w (some a))
          | none =>
            if h.policy = 2 then .next ((s.tally 0x03 src).handoverFail p it k)
            else match old, h.policy with
              | some (w, a), 0 => .next (note (s.tally 0x01 src) w (some a))
              | _, _ => .next (note (s.tally 0x02 src) 0 none)

/-! ## Kills and the beat step -/

/-- Does a program wait for the re-issue of a starved iteration (R170)? -/
def Program.waitsReissue (p : Program) : Bool := p.running.any Running.waitsReissue

/-- COMMAND_KILL_BEAT (R66 to R69, R306): the kill beat that the hub die set for a KILL descriptor. -/
def execCommandKillBeat (fn : Fin 32) (slot : Fin 16) (s : State) : Out :=
  match (s.program fn slot).bind (·.running) with
  | none => .next s
  | some r =>
    if r.kill.any (fun k => k.1 == s.fabric.beat) then .next (s.killProgram fn slot 0x120 0) else .next s

/-- A beat-step change decided at the present beat (R74): it takes effect at the first later multiple of 4,096. -/
def State.decideStep (s : State) (n : Nat) : State :=
  { s with fabric := { s.fabric with pendingStep := some (n, (s.fabric.beat / 4096 + 1) * 4096) } }

/-- The nominal logic voltage of a beat step in mV (Table 13.3). -/
def stepVolts (n : Nat) : Nat := 400 + 100 * n

/-- BEAT_STEP_CHANGE (R25, R74, R75, R279, R408, R413): the step changes on all compute dies together, counted and logged; after
a lowering the voltage ramps down. -/
def execBeatStepChange (s : State) : Out :=
  match s.fabric.pendingStep with
  | none => .next s
  | some (n, b) =>
    if s.fabric.beat ≠ b then .next s
    else
      let old := s.fabric.step
      let s := { s with fabric := { s.fabric with step := n, pendingStep := none } }
      let s := { s with power := { s.power with volts := List.replicate 6 (stepVolts n) } }
      .next (((s.tally 0x09 n).report 0xA22 (if n < old then 1 else 0)).checkSteps)

/-! ## Clears (R76, R115, R145) -/

/-- TALLY_CLEAR (R76). -/
def execTallyClear (mask : Nat) (s : State) : Out :=
  .next ((List.range 64).foldl (fun s n => if bit mask n then s.setFld .HUB_CFG_TALLY_CNT_COUNT 0 n else s) s)

/-- CLR_RERUN (R115). -/
def execClrRerun (die : Fin 6) (s : State) : Out := .next (s.setFld .CD_RERUN_COUNT_COUNT 0 die)
/-- CLR_NAN (R115). -/
def execClrNan (die : Fin 6) (s : State) : Out := .next (s.setFld .CD_NAN_COUNT_COUNT 0 die)
/-- CLR_CENTRE_ONLY (R145). -/
def execClrCentreOnly (die : Fin 6) (s : State) : Out := .next (s.setFld .CD_ENG_CENTRE_ONLY_COUNT 0 die)
/-- CLR_STEM_CLIP (R145). -/
def execClrStemClip (die : Fin 6) (s : State) : Out := .next (s.setFld .CD_ENG_STEM_CLIP_COUNT 0 die)

end Sys2Proof.Machine
end

