-- ==== Sys2Proof/Machine/Starve.lean ====
section
/-!
DEFINITION. Machine/Starve.lean: the allocation of an appending batch's pages and what follows when a pool runs short (R164,
R167 to R171).
-/

namespace Sys2Proof.Machine

/-- The layer-0 command of an appending batch takes its pages into shadow storage, and the reservation of a re-issued one is used up
(R164, R171). -/
def State.takePages (s : State) (c : CmdRef) (it : Iteration) (k : Command) (a : Attn) (q : Pool) (avail : List Nat) : State :=
  let rest := q.starved.filter fun x => !x.isFor c.fn c.slot it k.id
  let s := s.setPool a.pool (some { q with starved := rest })
  let new := nameGrants (q.grants a.entries) avail
  match s.cmdRun c with
  | none => s
  | some (p, _, k, _) => s.modRun c fun r => { (if new.isEmpty then r else s.fillHot p k r a new) with pages := new }

/-- A pool runs short at alloc_beat (R170): the command and every uncommitted command of its iteration fail; when victims can
make up the shortfall and this is no re-issue, a drop and a re-issue follow, and otherwise PAGE_STARVED goes to the ring. DESIGN CHOICE (log
123): every command of an iteration that was issued again counts as a re-issue. -/
def State.starve (s : State) (c : CmdRef) (p : Program) (it : Iteration) (k : Command) (a : Attn) (q : Pool)
    (need avail : Nat) : State :=
  let s := s.count .CD_KV_STARVE_COUNT_COUNT q.die
  let barred := a.entries.map (·.seq) ++ q.starved.flatMap fun x => if x.done then [] else x.drops.map (·.1)
  match (if it.reissued then none else planDrops (q.victimOrder barred) (need - avail)) with
  | none => (s.failRuns p it (fun _ => true) 0x2C1 k.id 2).unstarve c.fn c.slot
  | some drops =>
    let s := s.failRuns p it (fun _ => true) 0x2C1 k.id 1
    let s := s.modIteration c.fn c.slot c.iter fun i => { i with killed := true }
    let s := s.modRunning c.fn c.slot fun r => { r with next := none, first := p.running.bind (·.first) }
    let entry := if k.rerunEntry then k.id else 0xFFFFFFFF
    let x : Starved := ⟨c.fn, c.slot, k.id, need, drops, false, none, entry⟩
    let s := s.setPool a.pool (some { q with starved := q.starved ++ [x] })
    (drops.foldl (fun s v => s.noteVictim a.pool q v) s).report 0x2C1 1

/-- KV_ALLOC_BEAT (R164, R166, R169, R170): at alloc_beat of the layer-0 appending command. -/
def execKvAllocBeat (c : CmdRef) (s : State) : Out :=
  match s.cmdRun c with
  | none => .next s
  | some (p, it, k, r) => match r.attn with
    | none => .next s
    | some a => match s.pool a.pool with
      | none => .next s
      | some q =>
        if !a.append ∨ a.allocBeat = 0 ∨ r.phase ≠ .running ∨ s.fabric.beat ≠ it.start + a.allocBeat ∨ r.pages ≠ [] then
          .next s
        else
          let need := (a.entries.map q.needOf).foldl (· + ·) 0
          let avail := s.takeable a.pool q c.fn c.slot it k.id
          if need ≤ avail.length then .next (s.takePages c it k a q avail)
          else .next (s.starve c p it k a q need avail.length)

/-- A starvation of a pool replaced, or removed. -/
def State.setStarved (s : State) (pool : Nat) (old : Starved) (new : List Starved) : State :=
  match s.pool pool with
  | none => s
  | some q => s.setPool pool (some { q with starved := q.starved.flatMap fun x => if x == old then new else [x] })

/-- VICTIM_DROP_DONE (R168, R170, R171): the drops of the oldest starvation that waits for them are made; the pages needed are reserved
and the re-issue is fixed at the first multiple of 8,192 beats at least 2,048 beats later. The drop of a program killed meanwhile leaves
its pages free. -/
def execVictimDropDone (pool : Fin 256) (s : State) : Out :=
  match (s.pool pool).bind fun q => q.starved.find? fun x => !x.done with
  | none => .next s
  | some x =>
    let s := x.drops.foldl (fun s v => s.dropVictim pool v) s
    match s.program x.fn x.slot with
    | some p =>
      if p.waitsReissue then
        let b := alignUp (s.fabric.beat + 2048) 8192
        .next ((s.setStarved pool x [{ x with done := true, at_ := some b }]).bookAt p b)
      else .next (s.setStarved pool x [])
    | none => .next (s.setStarved pool x [])

/-- PAGE_STARVED_REISSUE (R70, R170): the iteration starts again at its frame boundary, from C's RERUN_ENTRY or its start;
later iterations follow it. One that a stall's shed or checkpoint holds waits for the next boundary. -/
def execPageStarvedReissue (pool : Fin 256) (s : State) : Out :=
  match (s.pool pool).bind fun q => q.starved.find? fun x => x.at_ == some s.fabric.beat with
  | none => .next s
  | some x => match s.program x.fn x.slot with
    | none => .next s
    | some p => match p.running with
      | none => .next s
      | some r =>
        if s.stallWaits x.fn then .next (s.setStarved pool x [{ x with at_ := some (s.fabric.beat + 8192) }])
        else
          let s := s.setStarved pool x [{ x with at_ := none }]
          let it := { Iteration.fresh p p.begun s.fabric.beat (p.entryBeat x.entry) x.entry true with
            warm := r.iters.foldl (fun m i => if i.killed then m ||| i.warm else m) p.warmMask }
          let last := r.left == some 0 || r.stopped
          let s := (s.gaugeBoundary x.fn x.slot).seedLanes p
          let s := s.modProgram x.fn x.slot fun p => { p with begun := p.begun + 1 }
          let s := s.modRunning x.fn x.slot fun r =>
            { r with iters := r.iters ++ [it], count := r.count + 1,
                     next := if last then none else some (p.nextStart s.fabric.beat) }
          let s := if last then s else s.bookAt p (p.nextStart s.fabric.beat)
          .next (s.armWatches p it)

/-- CLR_STARVE (R170). -/
def execClrStarve (die : Fin 6) (s : State) : Out := .next (s.setFld .CD_KV_STARVE_COUNT_COUNT 0 die)

/-- CLR_DROPPED (R168). -/
def execClrDropped (die : Fin 6) (s : State) : Out := .next (s.setFld .CD_KV_DROPPED_PAGES_COUNT 0 die)

end Sys2Proof.Machine
end

