-- ==== Sys2Proof/Machine/Exec.lean ====
section
/-!
DEFINITION. Machine/Exec.lean: EXEC START and KILL and the end of an iteration (R302 to R306, R312).
-/

namespace Sys2Proof.Machine

/-! ## START (R302, R303) -/

/-- The beat at which the time base reaches `t`, at the present beat step. -/
def State.beatOf (s : State) (t : Nat) : Nat := s.fabric.beat + ceilDiv ((t - s.now) * s.fabric.step) 10

/-- The first iteration of a START that begins now (R303). -/
def State.firstStart (s : State) (startAfter : Nat) : Nat := alignUp (max (s.fabric.beat + 2048) (s.beatOf startAfter)) 8192

/-- The status of a START that is refused (R302, R282, R411, Table 12.3), with its severity. -/
def State.startRefused (s : State) (p : Program) (x : Desc) : Option (Nat × Nat) :=
  let entry := x.val 24 4
  if p.running.isSome then some (0x612, 0)
  else if p.commands.any s.idleTile then some (0x901, 2)
  else if p.powerShed then some (0xA20, 1)
  else if entry != 0xFFFFFFFF && !((p.command entry).map (·.rerunEntry)).getD false then some (0x611, 0)
  else if x.val 28 4 == 0 && x.val 18 1 != 255 then some (0x611, 0)
  else if x.val 18 1 != 255 && !s.aligned then some (0x566, 0)
  else none

/-- The START that a descriptor puts in force. -/
def runningOf (x : Desc) (t : Ticket) (next : Option Nat) : Running :=
  { desc := some t, total := if x.val 28 4 = 0 then none else some (x.val 28 4),
    left := if x.val 28 4 = 0 then none else some (x.val 28 4), cont := bit (x.val 19 1) 0,
    iterMarker := if x.val 22 2 = 65535 then none else some (x.val 22 2),
    barrier := if x.val 18 1 = 255 then none else some (x.val 18 1, x.val 20 2), startAfter := x.val 32 8,
    entry := x.val 24 4, next := next, count := 0, ended := 0, failure := none, stopped := false, iters := [],
    kill := [], skipped := false, final := none, first := none }

/-- An accepted START: at a barrier this side arrives, otherwise the first iteration's beat is fixed; redundancy is judged
again (R282, R303, R348). -/
def State.startProgram (s : State) (p : Program) (x : Desc) (t : Ticket) : State :=
  let first := s.firstStart (x.val 32 8)
  let barrier := x.val 18 1 != 255
  let r := runningOf x t (if barrier then none else some first)
  let s := s.modProgram p.fn p.slot fun p => { p with running := some r }
  let s := if barrier then s.arriveOwn (x.val 18 1) (x.val 20 2) p.fn p.slot else s.bookAt p first
  let s := if s.inDrive && p.unprotected then s.report 0x742 2 else s
  s.recheckPairs

/-- EXEC_START (R302, R303, R465). -/
def execExecStart (d : DescRef) (s : State) : Out :=
  .next (s.begin d (isOp 1 1) fun s t x =>
    match s.slotFor d.fn (x.val 17 1) with
      | .empty => s.finish t 0x613 0 0
      | .shed => s.finish t 0x522 2 0
      | .loaded p => match s.startRefused p x with
        | some (code, sev) => s.finish t code sev 0
        | none => s.startProgram p x t)

/-! ## KILL (R66, R306) -/

/-- EXEC_KILL (R66, R306): the hub die sets a kill beat at most 64 beats ahead; a KILL of a program that is not started
completes at once, and one beside another waits with it. -/
def execExecKill (d : DescRef) (killBeat : Nat) (s : State) : Out :=
  .next (s.begin d (isOp 1 2) fun s t x =>
    let slot := x.val 17 1
    match s.slotFor d.fn slot with
      | .empty => s.finish t 0 0 0
      | .shed => s.finish t 0x522 2 0
      | .loaded p => match p.running with
        | none => s.finish t 0 0 0
        | some r =>
          let b := max s.fabric.beat (min killBeat (s.fabric.beat + 64))
          s.modRunning d.fn slot fun x => { x with kill := r.kill ++ [(b, t)] })

/-! ## The end of an iteration (R304, R305, R345) -/

/-- Have all commands that the entry lets run ended? -/
def Iteration.commandsEnded (p : Program) (it : Iteration) : Bool :=
  (List.range p.commands.length).all fun k =>
    match it.runs[k]?, p.commands[k]? with
    | some r, some c => !r.uncommitted || decide (c.start < it.entryBeat)
    | _, _ => true

/-- May the iteration end: elapsed, every command ended, and every covering verdict in, or one reported as a mismatch (R304)? -/
def State.mayEnd (s : State) (p : Program) (it : Iteration) : Bool :=
  decide (it.start + p.iterBeats ≤ s.fabric.beat) && it.commandsEnded p && (it.covering.isEmpty || it.differed)

/-- The START completes (R305, R312): with the code it was given for its end, with the code of its first failure, or OK. -/
def State.completeStart (s : State) (p : Program) (r : Running) : State :=
  let (code, sev, info) := r.result
  ((s.endStart p.fn p.slot r code sev info (if r.failure.isSome || r.final.isSome then 0 else 0x121)).unstarve p.fn p.slot).recheckPairs

/-- The START completes when nothing of it is left to run. -/
def State.settleStart (s : State) (fn slot : Nat) : State :=
  match s.program fn slot with
  | none => s
  | some p => match p.running with
    | none => s
    | some r => if r.iters.isEmpty && r.next.isNone && (r.count != 0 || r.stopped) then s.completeStart p r else s

/-- The error source's request ends once every running safety program has completed 25 iterations in a row with agreement,
unless a restart is to end it (Table 6.8). -/
def State.errorOver (s : State) : State :=
  if s.degrade.req.getD 7 0 ≠ 0 ∧ s.safety.restart.state ≠ 1 ∧ !s.safety.restart.requested ∧
      s.programs.all (fun p => p.running.isNone || !p.safety || decide (25 ≤ p.agreeRun)) then s.withdraw 7 0
  else s

/-- An iteration ended without a failed command: iter_marker, the counts, and the frames that agree (R304, R345, Table 11.6). -/
def State.endGood (s : State) (p : Program) (r : Running) (it : Iteration) : State :=
  let s := s.modProgram p.fn p.slot fun p =>
    { p with agreeRun := p.agreeRun + 1, agreedSinceStart := p.agreedSinceStart || it.warm == 0 }
  let s := s.modRunning p.fn p.slot fun r => { r with ended := r.ended + 1 }
  let s := if p.fn = 0 then s else s.count .HUB_CFG_STALL_CNT_COUNT p.fn
  let s := (s.gaugeFrame p it).errorOver
  match r.iterMarker with
  | some m => s.addMarker m 1
  | none => s

/-- An iteration ended with a failed command: without CONTINUE no further one starts (R305). -/
def State.endFailed (s : State) (p : Program) (f : Nat × Nat × Nat) : State :=
  let s := s.modProgram p.fn p.slot fun p => { p with agreeRun := 0 }
  s.modRunning p.fn p.slot fun r =>
    { r with failure := some (r.failure.getD f), next := if r.cont then r.next else none,
             stopped := r.stopped || !r.cont, ended := r.ended }

/-- ITERATION_END (R304, R305, R312, R345): iterations end in their order; one that the page manager starts again (R170)
ends when its re-issue stands behind it. -/
def execIterationEnd (fn : Fin 32) (slot : Fin 16) (s : State) : Out :=
  match s.program fn slot with
  | none => .next s
  | some p => match p.running with
    | none => .next s
    | some r => match r.iters with
      | [] => .next s
      | it :: rest =>
        if !s.mayEnd p it || (it.killed && rest.isEmpty) then .next s
        else
          let s := s.modRunning fn slot fun r => { r with iters := rest }
          if it.killed then .next s
          else
            let s := match it.failure with
              | none => s.endGood p r it
              | some f => s.endFailed p f
            .next (s.settleStart fn slot)

end Sys2Proof.Machine
end

