-- ==== Sys2Proof/Machine/Redundancy.lean ====
section
/-!
DEFINITION. Machine/Redundancy.lean: redundant execution (10): input agreement, gauge verdicts, SPLIT and JOIN (R333 to R351).
-/

namespace Sys2Proof.Machine

/-! ## Input agreement (R333 to R336) -/

/-- Beats until a digest is ready (R333). -/
def Agree.delay (a : Agree) : Nat := 24 + ceilDiv a.size 136

/-- AGREEMENT_DIGEST (R333): at agreement_beat the digest units of both copies take the SHAKE256 digest of their regions. -/
def execAgreementDigest (c : CmdRef) (entry : Nat) (s : State) : Out :=
  match s.cmdRun c with
  | none => .next s
  | some (p, it, k, r) => match p.agrees[entry]? with
    | none => .next s
    | some a =>
      if a.cmd ≠ k.id ∨ !it.runsPair p a.die ∨ !r.uncommitted ∨ k.start < it.entryBeat ∨
          s.fabric.beat ≠ it.start + a.beat ∨ r.digests.any (·.1 == entry) then .next s
      else
        let digest := fun (d : Nat) => shake256 (s.peekBytes r (tileBase d a.tile + a.off) a.size) 16
        .next (s.modRun c fun r => { r with digests := r.digests ++ [(entry, digest a.die, digest (a.die + 3))] })

/-- The digests differ (R335, R336): every uncommitted command of the iteration fails, and in Drive the disagreement is a
mismatch; its own record carries the gauge request. -/
def State.inputDisagree (s : State) (p : Program) (it : Iteration) (k : Command) (a : Agree) : State :=
  let sev := s.sev32 k.safety
  let s := s.failRuns p it (fun _ => true) 0x710 k.id sev
  let s := s.report 0x710 sev none none (if s.inDrive then some (2, 3) else none)
  s.mismatch p it k.id 4 [(a.die, a.tile)]

/-- AGREEMENT_VERDICT (R334, R335): at the verdict beat each die compares the two digests that the relay delivered. -/
def execAgreementVerdict (c : CmdRef) (entry : Nat) (delivered equal : Bool) (s : State) : Out :=
  match s.cmdRun c with
  | none => .next s
  | some (p, it, k, r) => match p.agrees[entry]? with
    | none => .next s
    | some a =>
      if a.cmd ≠ k.id ∨ !it.runsPair p a.die ∨ !r.uncommitted ∨ k.start < it.entryBeat ∨
          s.fabric.beat ≠ it.start + a.beat + a.delay + 160 ∨ r.verdicts.contains entry then .next s
      else match (if delivered then r.digests.find? (·.1 == entry) else none) with
        | none =>
          let sev := s.sev32 k.safety
          .next ((s.failRuns p it (fun _ => true) 0x711 k.id sev).report 0x711 sev)
        | some (_, x, y) =>
          if equal && x == y then .next (s.modRun c fun r => { r with verdicts := r.verdicts ++ [entry] })
          else .next (s.inputDisagree p it k a)

/-! ## Gauge verdicts (R340 to R342, R344) -/

/-- A comparison of an iteration is reported: it is no longer outstanding. -/
def State.dropCovering (s : State) (c : CmdRef) (sel : Covering → Bool) : State :=
  s.modIteration c.fn c.slot c.iter fun i => { i with covering := i.covering.filter fun x => !sel x }

/-- A difference of a kind on tiles: during the warm-up of its pairs it is only logged (Table 10.6); otherwise it is a
mismatch, and the iteration counts as failed with GAUGE_MISMATCH (R304). -/
def State.gaugeDiffers (s : State) (p : Program) (it : Iteration) (k : Command) (live : Bool) (kind : Nat)
    (tiles : List (Nat × Nat)) : State :=
  if !live then (s.report 0x724 0).releaseHalves p.fn p.slot it.number
  else
    let sev := if s.inDrive then 3 else 2
    let s := s.modIteration p.fn p.slot it.number fun i =>
      { i with failure := if i.failure.isNone then some (0x720, k.id, sev) else i.failure, differed := true }
    let s := s.modRunning p.fn p.slot fun r => { r with first := r.first.or (some (0x720, k.id, sev)) }
    s.mismatch p it k.id kind tiles

/-- GAUGE_CHUNK_VERDICT (R337, R340): the two copies' values of a chunk are compared once both windows are complete. -/
def execGaugeChunkVerdict (g : GaugeCmp) (window chunk : Nat) (s : State) : Out :=
  match s.cmdRun g.ref with
  | none => .next s
  | some (p, it, k, _) =>
    let sel := fun (x : Covering) => x.kind == 0 && x.cmd == k.id && x.index == window * 8192 + chunk
    match it.covering.find? sel, p.windows[window]? with
    | some x, some w =>
      if x.values.length < 2 ∨ s.now < x.first then .next s
      else
        let s := s.dropCovering g.ref sel
        if g.agree && x.values[0]? == x.values[1]? then .next (s.releaseHalves p.fn p.slot it.number)
        else .next (s.gaugeDiffers p it k (it.binds p x) 1 [(w.die, w.tile)])
    | _, _ => .next s

/-- The signatures of a tile of die `d` of a pair, and of its partner (R338, R339). -/
def CmdRun.tileSigs (r : CmdRun) (d t : Nat) : List (Nat × Nat) :=
  r.sigs.filterMap fun e => if e.1 % 64 = t ∧ e.1 / 64 % 8 = d then some (e.1 / 512, e.2) else none

/-- Do the signatures of a logical tile differ between the dies of some pair of `pairs`? Its primary die. -/
def CmdRun.sigDiff (r : CmdRun) (pairs : List Nat) (t : Nat) : Option Nat :=
  pairs.find? fun d => r.tileSigs d t != r.tileSigs (d + 3) t

/-- The first tile in ascending order whose signatures differ (R344): die and tile. A pair outside its warm-up comes first
(R350). -/
def CmdRun.firstDiff (r : CmdRun) (p : Program) (it : Iteration) : Option (Nat × Nat) :=
  let first := fun (l : List Nat) => (List.range 40).findSome? fun t => (r.sigDiff l t).map fun d => (d, t)
  (first ((List.range 3).filter (it.compares p))).or (first ((List.range 3).filter (it.runsPair p)))

/-- The primary die of a tile of a paired command. -/
def Iteration.dieOfTile (p : Program) (it : Iteration) (k : Command) (t : Nat) : Nat :=
  ((List.range 3).find? fun d => it.runsPair p d && bit (k.tiles.getD d 0) t).getD 0

/-- GAUGE_SIGNATURE_VERDICT (R339, R340): the signature sets of a command's copies are compared after its commit. -/
def execGaugeSignatureVerdict (g : GaugeCmp) (s : State) : Out :=
  match s.cmdRun g.ref with
  | none => .next s
  | some (p, it, k, r) =>
    let sel := fun (x : Covering) => x.kind == 1 && x.cmd == k.id
    if !it.covering.any sel then .next s
    else
      let s := s.dropCovering g.ref sel
      match r.firstDiff p it with
      | some x => .next (s.gaugeDiffers p it k (it.compares p x.1) 2 [x])
      | none =>
        if g.agree then .next (s.releaseHalves p.fn p.slot it.number)
        else
          let d := it.dieOfTile p k g.tile
          .next (s.gaugeDiffers p it k (it.compares p d) 2 [(d, g.tile)])

/-- GAUGE_MISSING_TIMEOUT (R340, R344): a comparison of a command still lacks a copy 20 µs after the other arrived. -/
def execGaugeMissingTimeout (c : CmdRef) (s : State) : Out :=
  match s.cmdRun c with
  | none => .next s
  | some (p, it, k, _) =>
    let sel := fun (x : Covering) => x.cmd == k.id && decide (x.values.length < 2) && decide (x.first + 20000 ≤ s.now)
    if !it.covering.any sel then .next s
    else
      let tiles := (List.range 3).flatMap fun d =>
        if it.runsPair p d then ((List.range 40).filter fun t => bit (k.tiles.getD d 0) t).map fun t => (d, t) else []
      let live := it.covering.any fun x => sel x && it.binds p x
      .next ((s.dropCovering c sel).gaugeDiffers p it k live 3 tiles)

/-- GAUGE_SWATCH_TIMEOUT (Table 10.4): the targeted swatch is not complete 1 s after the mismatch. -/
def execGaugeSwatchTimeout (s : State) : Out :=
  if s.inDrive ∧ s.gaugeState = 1 ∧ s.gauge.since + 1000000000 ≤ s.now then
    .next (((s.setGauge 3).report 0x723 3 none none (some (2, 3))).requestRestart)
  else .next s

/-- CLR_CNT: HUB_CFG_GAUGE_CNT to 0. -/
def execClrCnt (s : State) : Out := .next (s.setFld .HUB_CFG_GAUGE_CNT_MISMATCHES 0)

/-! ## SPLIT and JOIN (R347 to R351) -/

/-- The slots that a SPLIT or JOIN names (Table 9.9). -/
def Desc.pairSlots (x : Desc) : List Nat := if x.val 18 1 = 255 then List.range 16 else [x.val 18 1]

/-- The beat from which an iteration start is the boundary of a change that begins now (R347). -/
def State.boundaryFrom (s : State) (instant : Nat) : Nat :=
  max (s.fabric.beat + 2048) (if instant = 0 then 0 else s.beatOf (s.instantTime instant))

/-- The goals of slots changed by `g` (R351: a later descriptor is checked against what earlier ones leave). -/
def State.setGoals (s : State) (slots : List Nat) (g : Nat → Nat) : State :=
  let goals := slots.foldl (fun l k => setAt l k (g (l.getD k 0))) s.gauge.goals
  { s with gauge := { s.gauge with goals := goals } }

/-- The pairs of a slot split at present. -/
def State.setSplits (s : State) (slot m : Nat) : State :=
  (State.showJoined { s with gauge := { s.gauge with splits := setAt s.gauge.splits slot m } }).modProgram 0 slot
    fun p => { p with split := s.gauge.forced ||| m }

/-- A change of a slot takes effect (R348, Table 10.6): the copies of the pairs no longer run, or run again from the loaded
sections and are warmed up. -/
def State.applyPair (s : State) (slot : Nat) (c : PairChange) : State :=
  let old := s.gauge.splits.getD slot 0
  if c.split then
    let s := s.setSplits slot (old ||| c.mask)
    let s := if (s.program 0 slot).isSome then s.report 0x742 (if s.inDrive then 2 else 0) else s
    s.recheckPairs
  else
    let s := s.setSplits slot (old &&& (7 - c.mask % 8))
    match s.program 0 slot with
    | some p =>
      let m := c.mask &&& p.pairMask
      let s := s.preload p fun d => decide (3 ≤ d) && bit m (d - 3)
      if p.warmupIters = 0 ∨ m = 0 then s.recheckPairs
      else s.modProgram 0 slot fun p =>
        { p with warm := p.warm ++ [⟨if p.running.isSome then some c.desc else none, m, p.warmupIters⟩] }
    | none => s.recheckPairs

/-- A change begins on its slots: a started program that has a named pair waits for its boundary, for any other slot it takes effect for
the next START (R347). -/
def State.beginPair (s : State) (t : Ticket) (split : Bool) (mask : Nat) (slots : List Nat) (instant : Nat) : State :=
  let c : PairChange := ⟨split, mask, s.boundaryFrom instant, t⟩
  let s := slots.foldl (init := s) fun s k =>
    match s.program 0 k with
    | some p => if p.running.isSome && p.pairMask &&& mask % 8 != 0 then s.modProgram 0 k fun p => { p with changes := p.changes ++ [c] } else s.applyPair k c
    | none => s.applyPair k c
  s.pairDone t (!split)

/-- A SPLIT or JOIN of scope 1 (R351). A SPLIT ends the JOINs before it that still wait, which leave nothing behind (log 118). -/
def State.packageChange (s : State) (t : Ticket) (split : Bool) : State :=
  if s.pairRole ≠ 1 then s.finish t 0x740 0 0
  else if split then
    let s := s.gauge.package.foldl (fun s t => s.finish t 0 0 0) { s with gauge := { s.gauge with package := [] } }
    (s.setPair { s.pair with advisory := true }).finish t 0 0 0
  else if !s.aligned then s.finish t 0x566 0 0
  else { s with gauge := { s.gauge with package := s.gauge.package ++ [t] } }

/-- SPLIT (R347, R348, R351). -/
def execSplit (d : DescRef) (s : State) : Out :=
  .next (s.begin d (fun x => x.val 0 1 == 5) fun s t x =>
    if x.val 16 1 = 1 then s.packageChange t true
    else
      let mask := x.val 17 1
      let slots := x.pairSlots
      if mask = 0 ∨ s.gauge.forced &&& mask ≠ 0 ∨ slots.any (fun k => s.gauge.goals.getD k 0 &&& mask != 0) then
        s.finish t 0x740 0 0
      else if s.inDrive ∧ s.gaugeState ≠ 0 then s.finish t 0x741 0 0
      else (s.setGoals slots (· ||| mask)).beginPair t true mask slots (x.val 24 8))

/-- Safety pools homed on the pairs of a mask. -/
def State.poolsOn (s : State) (mask : Nat) : List Pool :=
  s.pools.filterMap fun e => e.2.bind fun q => if q.safety && bit mask (q.die % 3) then some q else none

/-- JOIN (R350, R351): with safety pools homed on a pair, the resync comes first. -/
def execJoin (d : DescRef) (s : State) : Out :=
  .next (s.begin d (fun x => x.val 0 1 == 6) fun s t x =>
    if x.val 16 1 = 1 then s.packageChange t false
    else
      let mask := x.val 17 1
      let slots := x.pairSlots
      let off := (List.range 3).any fun k => bit mask k && !(s.fabric.dieOn.getD (k + 3) false)
      if mask = 0 ∨ s.gauge.forced &&& mask ≠ 0 ∨ off ∨ slots.any (fun k => s.gauge.goals.getD k 0 &&& mask != mask) then
        s.finish t 0x740 0 0
      else
        let s := s.setGoals slots fun m => m &&& (7 - mask % 8)
        if (s.poolsOn mask).isEmpty then s.beginPair t false mask slots (x.val 24 8)
        else
          let g := { s.gauge with resync := s.gauge.resync ++ [(t, mask, x.val 18 1, x.val 24 8)] }
          { s with gauge := g })

/-- A safety pool copied to its mirror: the pages, the sequence table and the page tables (R350). -/
def State.resyncPool (s : State) (q : Pool) : State :=
  { s with mem := copyBytes s.mem (s.poolAddr q q.base) s.mem (s.poolAddr q q.mirror) q.bitmapArea }

/-- JOIN_RESYNC_DONE (R350, Table 10.6): the mirrors hold what the pools hold; the boundary follows. -/
def execJoinResyncDone (d : DescRef) (s : State) : Out :=
  match s.startedDesc d fun x => s.gauge.resync.any fun y => y.1 == ticketOf d x with
  | none => .next s
  | some x => match s.gauge.resync.find? fun y => y.1 == ticketOf d x with
    | none => .next s
    | some y =>
      let (t, mask, slot, instant) := y
      let s := { s with gauge := { s.gauge with resync := s.gauge.resync.erase y } }
      let s := (s.poolsOn mask).foldl State.resyncPool s
      .next (s.beginPair t false mask (if slot = 255 then List.range 16 else [slot]) instant)

/-- Is an iteration start now the boundary of a change of a program, or is the program no longer started (R347)? -/
def State.atBoundary (s : State) (p : Program) (c : PairChange) : Bool :=
  match p.running with
  | some r => r.next == some s.fabric.beat && decide (c.after ≤ s.fabric.beat)
  | none => true

/-- PAIR_CHANGE_BOUNDARY (R347, R348, R350): at an iteration start of the program, or once it is no longer started, the first waiting change
whose boundary this is takes effect. -/
def execPairChangeBoundary (fn : Fin 32) (slot : Fin 16) (s : State) : Out :=
  match s.program fn slot with
  | none => .next s
  | some p => match p.changes.find? (s.atBoundary p) with
    | none => .next s
    | some c =>
      if fn ≠ 0 then .next s
      else
        let s := s.modProgram 0 slot fun p => { p with changes := p.changes.erase c }
        .next ((s.applyPair slot c).pairDone c.desc (!c.split))

/-- Is a warm-up over: its iterations have started and ended, or its program is no longer started (Table 10.6)? -/
def Program.warmupOver (p : Program) (w : Warmup) : Bool :=
  match p.running with
  | some r => w.left == 0 && !(r.iters.any fun i => i.warm &&& w.mask != 0)
  | none => w.desc.isSome || w.left == 0

/-- The warm-ups of a program without one that is over; of one that its program's stop ended early, the next START runs the
rest (R347). -/
def Program.endWarmup (p : Program) (w : Warmup) : List Warmup :=
  if w.left = 0 then p.warm.erase w else p.warm.map fun x => if x = w then { w with desc := none } else x

/-- JOIN_WARMUP_END (Table 10.6): the iterations of the first warm-up that is over have ended, comparison is live, and its
JOIN completes. -/
def execJoinWarmupEnd (fn : Fin 32) (slot : Fin 16) (s : State) : Out :=
  match s.program fn slot with
  | none => .next s
  | some p => match p.warm.find? p.warmupOver with
    | none => .next s
    | some w =>
      let s := (s.modProgram fn slot fun p => { p with warm := p.endWarmup w }).recheckPairs
      match w.desc with
      | some t => .next (s.pairDone t true)
      | none => .next s

end Sys2Proof.Machine
end

