-- ==== Sys2Proof/Machine/Stalls.lean ====
section
/-!
DEFINITION. Machine/Stalls.lean: the stalls of Night Market: opening, draining, closing and CHECKPOINT (R461 to R480), and the
FLR of a VF (R290).
-/

namespace Sys2Proof.Machine

/-- Stalls 1 to 31. -/
def stallIds : List Nat := (List.range 31).map (· + 1)

/-! ## Opening (R464, R465) -/

/-- A stall that is not CLOSED holds what it owns. -/
def State.stallBusy (s : State) (k : Nat) : Bool := s.stall k != .closed

/-- The declared power of all stalls that are not CLOSED, in W. -/
def State.declaredPower (s : State) : Nat :=
  (stallIds.map fun k => if s.stallBusy k then s.fld .HUB_CFG_STALL_REGION_POWER_W k else 0).foldl (· + ·) 0

/-- The conditions of R464 that make a stall bad. -/
def State.stallBad (s : State) (k : Nat) : Bool :=
  let q := s.stallQuarters k
  s.mode != .nightMarket || s.transition != .none || s.stallBusy k || q == 0 ||
  (stallIds.any fun j => j != k && s.stallBusy j && s.stallQuarters j &&& q != 0) ||
  s.stallSize k == 0 || !s.drivingHbm (s.stallBase k) (s.stallSize k) || s.fld .MEM_STALL_RATE_RATE k == 0

/-- The code that refuses an open (R464). -/
def State.openRefused (s : State) (k : Nat) : Option Nat :=
  if s.stallBad k then some 0xC02
  else if 200 < s.fld .HUB_CFG_STALL_REGION_POWER_W k + s.declaredPower then some 0xC03
  else if s.fld .PWR_WEAR_STATUS_WEAR_AHEAD == 1 || s.fld .SEC_BOOT_STATUS_IDENTITY_OK == 0 then some 0xC01
  else if !s.admits then some 0x501
  else none

/-- The write of ENABLE = 1 (R464, R465): the key is generated and the region is being zeroed. -/
def State.openStall (s : State) (k : Nat) : State :=
  match s.openRefused k with
  | some code => (s.refuse .HUB_CFG_STALL_CFG code k).stallCode k code
  | none =>
    let (key, s) := s.free 512
    (s.setFld .HUB_CFG_STALL_CFG_ENABLE 1 k).modStall k fun _ => { Stall.zero with phase := .opening, key := some key }

/-- STALL_OPEN (R464, R465). -/
def execStallOpen (stall : Fin 32) (s : State) : Out := if stall = 0 then .next s else .next (s.openStall stall)

/-- [a, a + n) of HBM holds zeros, good data (R465, R466). -/
def State.zeroHbm (s : State) (a n : Nat) : State := State.unpoison { s with mem := zeroBytes s.mem a n } a n

/-- STALL_OPEN_DONE (R465): the region is zero, the log opens with an OPEN event, the counters are 0, the stall is OPEN. -/
def execStallOpenDone (stall : Fin 32) (s : State) : Out :=
  let k := stall.val
  if s.stall k ≠ .opening then .next s
  else
    let s := s.zeroHbm (s.stallBase k) (s.stallSize k)
    let s := s.modStall k fun x => { x with log := Log.zero }
    let s := s.logStall k 1 (leBytes 2 (s.fld .HUB_CFG_STALL_REGION_POWER_W k) ++
      leBytes 4 (s.fld .MEM_STALL_RATE_RATE k) ++ leBytes 4 (s.fld .MEM_STALL_RATE_MIN_RATE k))
    let s := [0, 1, 2, 3].foldl (fun s j => s.setFld .HUB_CFG_STALL_CNT_COUNT 0 k j) s
    .next (((s.setStall k .open_).report 0xC20 0).stallCode k 0xC20)

/-! ## Draining (R478) -/

/-- Every started program of a stall starts no further iteration; its START completes with NM_DRAINED, or with the code of a
failure, once its current iteration has ended. -/
def State.drainStall (s : State) (k : Nat) : State :=
  (List.range 16).foldl (init := s.modStall k fun x => { x with draining := true }) fun s slot =>
    (s.modRunning k slot fun r => { r with next := none, stopped := true, final := some (0xC23, 0) }).settleStart k slot

/-- No program of a stall is started. -/
def State.drained (s : State) (k : Nat) : Bool := s.programs.all fun p => p.fn != k || p.running.isNone

/-- The write of ENABLE = 0 (R466): the stall drains, within DRAIN_GRACE. -/
def State.closeStall (s : State) (k : Nat) : State :=
  match s.stall k with
  | .opening => ((s.holdArea k).setFld .HUB_CFG_STALL_CFG_ENABLE 0 k).setStall k .draining
  | .open_ =>
    let s := (s.holdArea k).setFld .HUB_CFG_STALL_CFG_ENABLE 0 k
    let by_ := s.now + s.fld .HUB_CFG_NM_CFG_DRAIN_GRACE * 1000000
    (s.modStall k fun x => { x with phase := .draining, drainBy := some by_ }).drainStall k
  | _ => s

/-- STALL_CLOSE (R466). -/
def execStallClose (stall : Fin 32) (s : State) : Out := .next (s.closeStall stall)

/-- STALL_DRAINED (R466, R478): a stall that drains and has no started program is CLOSING. -/
def execStallDrained (stall : Fin 32) (s : State) : Out :=
  if s.stall stall = .draining ∧ s.drained stall then .next (s.setStall stall .closing) else .next s

/-- A pending CHECKPOINT of a stall completes with NM_CKPT_ABORTED (Table 15.4). -/
def State.abortCkpt (s : State) (k : Nat) : State :=
  match (s.stallOf k).ckpt with
  | some c => ((s.modStall k fun x => { x with ckpt := none }).finish c.desc 0xC31 1 0).stallCode k 0xC31
  | none => s

/-- STALL_DRAIN_GRACE_TIMEOUT (R466): programs that have not ended are killed. -/
def execStallDrainGraceTimeout (stall : Fin 32) (s : State) : Out :=
  let due : Bool := match (s.stallOf stall).drainBy with
    | some t => decide (t ≤ s.now)
    | none => false
  if s.stall stall = .draining ∧ due then .next ((s.killFunction stall 0x120 0).setStall stall .closing) else .next s

/-! ## Closing (R466) -/

/-- Every loaded or shed program of a function leaves its slot. -/
def State.unloadFunction (s : State) (fn : Nat) : State :=
  (List.range 16).foldl (init := s) fun s slot =>
    match s.slot fn slot with
    | .empty => s
    | _ => (s.clearShed fn slot).unload fn slot .empty

/-- The markers of the groups of a function set to 0. -/
def State.clearMarkers (s : State) (fn : Nat) : State :=
  (List.range 128).foldl (init := s) fun s g =>
    if s.fld .HUB_CFG_MARKER_OWNER_FUNCTION g = fn then
      (List.range 64).foldl (fun s i => s.setMarker (64 * g + i) 0) s
    else s

/-- SRAM of a logical tile set to zero. -/
def State.zeroTile (s : State) (d t : Nat) : State := { s with mem := zeroBytes s.mem (tileBase d t) tileSize }

/-- The SRAM of a stall's quarters set to zero. -/
def State.zeroQuarters (s : State) (k : Nat) : State :=
  let q := s.stallQuarters k
  (List.range 24).foldl (init := s) fun s b =>
    if bit q b then (List.range 10).foldl (fun s t => s.zeroTile (b / 4) (10 * (b % 4) + t)) s else s

/-- Steps 1 to 3 of R466: rings stopped, programs unloaded, markers 0, the key destroyed (the scrub follows at once, or the region has been
sealed); what the page manager held of the
stall's pools goes with its region. -/
def State.clearStall (s : State) (k : Nat) : State :=
  let s := ((s.abortCkpt k).stopRings k).killFunction k 0x120 0
  let s := (s.unloadFunction k).clearMarkers k
  let pools := s.pools.filter fun e => match e.2 with
    | some q => q.stall != k
    | none => true
  State.modStall { s with pools := pools } k fun x => { x with key := none, draining := false, drainBy := none }

/-- Step 4 of R466: the region and the tile quarters scrubbed. -/
def State.scrubStall (s : State) (k : Nat) : State :=
  (s.zeroHbm (s.stallBase k) (s.stallSize k)).zeroQuarters k

/-- Step 5 of R466: the CLOSE event, the record, and the stall CLOSED. -/
def State.shutStall (s : State) (k : Nat) : State :=
  let s := s.logStall k 5 []
  let s := ((s.modStall k fun x => { x with phase := .closed, powerShed := false, held := if x.scrub then x.held else none }).report 0xC21 0).stallCode k 0xC21
  s.setFld .HUB_CFG_STALL_CFG_ENABLE 0 k

/-- STALL_CLOSE_DONE (R466). -/
def execStallCloseDone (stall : Fin 32) (s : State) : Out :=
  if s.stall stall = .closing then .next (((s.clearStall stall).scrubStall stall).shutStall stall).restore else .next s

/-! ## CHECKPOINT (R476, R477) -/

/-- The stall that a CHECKPOINT names (Table 9.10). -/
def Desc.ckptStall (x : Desc) (fn : Nat) : Nat := if fn = 0 then x.val 17 1 else fn

/-- CHECKPOINT (R465, R476, R478): waits for the boundary of its stall, which drains first with DRAIN; a second one starts
when the first has completed. -/
def execCheckpoint (d : DescRef) (s : State) : Out :=
  .next (s.begin d (fun x => x.val 0 1 == 8 && (s.stallOf (x.ckptStall d.fn)).ckpt.isNone) fun s t x =>
    let k := x.ckptStall d.fn
    if s.stall k ≠ .open_ then (s.finish t 0xC02 0 0).stallCode k 0xC02
    else
      let drain := bit (x.val 16 1) 0
      let s := s.modStall k fun y => { y with ckpt := some ⟨t, drain, none⟩ }
      if drain then s.drainStall k else s)

/-- Does every started program of a stall lie between two iterations (R476)? -/
def State.betweenIterations (s : State) (k : Nat) : Bool :=
  s.programs.all fun p => p.fn != k || (match p.running with
    | some r => r.iters.isEmpty
    | none => true)

/-- The program entries of a checkpoint (Table 15.2). -/
def State.ckptPrograms (s : State) (k : Nat) : List Byte :=
  (s.programs.filter fun p => p.fn == k).flatMap fun p =>
    leBytes 1 p.slot ++ leBytes 1 (if p.running.isSome then 1 else 0) ++ leBytes 6 0 ++
      leBytes 8 ((p.running.map (·.ended)).getD 0) ++ p.digest

/-- The marker entries of a checkpoint. -/
def State.ckptMarkers (s : State) (k : Nat) : List Byte :=
  ((List.range 128).filter fun g => s.fld .HUB_CFG_MARKER_OWNER_FUNCTION g == k).flatMap fun g =>
    (List.range 64).flatMap fun i => leBytes 4 (64 * g + i) ++ leBytes 4 (s.marker (64 * g + i))

/-- Is a checkpoint at its boundary: every started program lies between two iterations, or with DRAIN the stall is drained (R476, R478)? -/
def State.atCheckpoint (s : State) (k : Nat) (c : Ckpt) : Bool :=
  c.boundary.isSome || if c.drain then s.drained k else s.betweenIterations k

/-- The boundary of a checkpoint, once: its time and the event arbiter's number (R476, Table 15.2); a drain is over with it. -/
def State.reachBoundary (s : State) (k : Nat) (c : Ckpt) : State :=
  if c.boundary.isSome then s
  else
    let (q, s) := s.stamp
    s.modStall k fun x => { x with draining := x.draining && !c.drain, ckpt := some { c with boundary := some (s.now, q) } }

/-- A checkpoint written to the host: payload and header (Table 15.2), and the CHECKPOINT event. -/
def State.writeCkpt (s : State) (k addr : Nat) (drain : Bool) : State :=
  let programs := s.ckptPrograms k
  let markers := s.ckptMarkers k
  let head := 256 + programs.length + markers.length
  let gap := List.replicate (alignUp head 4096 - head) (0 : Byte)
  let payload := programs ++ markers ++ gap ++ s.devRead (s.stallBase k) (s.stallSize k)
  let digest := shake256 payload 32
  let n := (s.stallOf k).sequence + 1
  let (at_, q) := ((s.stallOf k).ckpt.bind (·.boundary)).getD (0, 0)
  let s := s.modStall k fun x => { x with sequence := n }
  let header := leBytes 4 0x54504B43 ++ leBytes 2 1 ++ leBytes 1 k ++ leBytes 1 (if drain then 1 else 0) ++ leBytes 8 n ++
    leBytes 8 at_ ++ leBytes 6 q ++ leBytes 2 0 ++ leBytes 8 (s.stallSize k) ++ leBytes 2 (programs.length / 48) ++
    leBytes 2 (markers.length / 8) ++ leBytes 4 0 ++ digest ++ leBytes 8 (s.fld .HUB_CFG_STALL_CNT_COUNT k) ++
    List.replicate 168 0
  let s := (s.hostWrite (addr + 256) payload).hostWrite addr header
  s.logStall k 2 (digest.take 16)

/-- A checkpoint's size (R477). -/
def State.ckptBytes (s : State) (k : Nat) : Nat :=
  alignUp (256 + (s.ckptPrograms k).length + (s.ckptMarkers k).length) 4096 + s.stallSize k

/-- The reads of a checkpoint run under the stall's sub-partition (R477): its tokens, while the region's memory has power. -/
def State.ckptTokens (s : State) (k : Nat) : Option State :=
  if s.memoryUp (s.stallBase k) (s.stallSize k) then s.chargeBulk 1 k (s.stallSize k) else none

/-- CHECKPOINT_BOUNDARY (R476, R477, R478): the checkpoint is written once its regulation lets it read the region, or nothing is when there is no space for it or a drain
was all that was asked for. -/
def execCheckpointBoundary (stall : Fin 32) (s : State) : Out :=
  let k := stall.val
  match (s.stallOf k).ckpt with
  | none => .next s
  | some c =>
    let r := Tbl.get Ring.zero s.host.rings c.desc.ring
    match r.descs.find? fun x => x.order == c.desc.order with
    | none => .next (s.modStall k fun x => { x with ckpt := none })
    | some x =>
      if x.done.isSome ∨ !s.atCheckpoint k c then .next s
      else
        let s := s.reachBoundary k c
        if x.val 32 8 = 0 ∧ c.drain then .next (s.finish c.desc 0 0 0)
        else if x.val 32 8 < s.ckptBytes k then .next ((s.finish c.desc 0xC30 0 0).stallCode k 0xC30)
        else match s.ckptTokens k with
          | some s => .next ((s.writeCkpt k (x.val 24 8) c.drain).finish c.desc 0 0 0)
          | none => .next s

/-! ## FLR of a VF (R290) -/

/-- VF_FLR (R290). -/
def execVfFlr (vf : Fin 32) (s : State) : Out := if vf = 0 then .next s else .next (s.flr vf)

end Sys2Proof.Machine
end

