-- ==== Sys2Proof/Machine/Errors.lean ====
section
/-!
DEFINITION. Machine/Errors.lean: the error queue of the islands and the host log (R375 to R379).
-/

namespace Sys2Proof.Machine

/-! ## The host log (R379) -/

/-- The 32 bytes of an error record (Table 11.7). -/
def ErrRec.encode (r : ErrRec) (step handling : Nat) : List Byte :=
  let flags := (if r.injected then 16384 else 0) + (if r.unsequenced then 32768 else 0)
  leBytes 2 (r.code % 4096 + r.sev % 4 * 4096 + flags) ++ leBytes 1 r.origin ++ leBytes 1 r.mode ++ leBytes 6 r.seq ++
    leBytes 1 step ++ leBytes 1 handling ++ leBytes 4 r.detail0 ++ leBytes 8 r.time ++ leBytes 8 r.detail1

/-- The error queue changed. -/
def State.modErrq (s : State) (g : ErrQueue → ErrQueue) : State :=
  { s with safety := { s.safety with errq := g s.safety.errq } }

/-- A record's handling ends in the host log (R377, R379): written while the log is enabled and the link is up. -/
def State.hostLog (s : State) (r : ErrRec) (handling : Nat) : State :=
  let s := s.modErrq fun q => { q with lastCode := r.code, lastSev := r.sev }
  if s.fld .HUB_CFG_ERRLOG_CFG_ENABLE = 1 ∧ s.host.linkUp then
    let k := s.fld .HUB_CFG_ERRLOG_COUNT_COUNT
    let slot := k % 2 ^ s.fld .HUB_CFG_ERRLOG_CFG_LOG2_ENTRIES
    let s := s.hostWrite (s.fld .HUB_CFG_ERRLOG_BASE_BASE * 4096 + 32 * slot) (r.encode s.degrade.step handling)
    (s.setFld .HUB_CFG_ERRLOG_COUNT_COUNT (k + 1)).sendMsix 0 0
  else s

/-- The write of ENABLE = 1 (R379): records are counted from now. -/
def State.enableErrlog (s : State) : State :=
  if s.fld .HUB_CFG_ERRLOG_CFG_ENABLE = 1 then s
  else (s.setFld .HUB_CFG_ERRLOG_CFG_ENABLE 1).setFld .HUB_CFG_ERRLOG_COUNT_COUNT 0

/-- ERRLOG_ENABLE (R379). -/
def execErrlogEnable (s : State) : Out := .next s.enableErrlog

/-! ## Effects of a record (R371, R372, R377) -/

/-- The iterations that lift the error source's request are counted from now (Table 6.8). -/
def State.countAgreement (s : State) : State :=
  let slots := s.fabric.slots.map fun e => match e.2 with
    | .loaded p => (e.1, Slot.loaded { p with agreeRun := 0 })
    | _ => e
  { s with fabric := { s.fabric with slots := slots } }

/-- The degradation request of a record: its own, or that of the error source for any other severity-3 record (Table 6.8). -/
def State.applyRequest (s : State) (r : ErrRec) : State :=
  match r.request with
  | some (src, d) => s.request src d r.seq r.code
  | none => if r.sev = 3 ∧ r.code ≠ 0x350 then s.countAgreement.request 7 3 r.seq r.code else s

/-- What handling a record does in Drive (R365, R371, R372, R377): its requests; for severity 3 at least the main-path safe
state and a new heartbeat; a lost hub heartbeat asks for a restart. An injected record has no effect (R352). -/
def State.applyRecord (s : State) (r : ErrRec) : State :=
  if !s.inDrive || r.injected then s
  else
    let s := s.applyRequest r
    if r.sev = 3 then
      let s := if s.safety.authority = 1 then s.setAuthority s.fallbackAuthority r.code r.time else s
      let s := if r.code = 0x820 then s.requestRestart else s
      s.heartbeat
    else s

/-- The start of the handling of a severity-3 record in Drive (R365, R371, Table 11.4): authority goes to the fallback, and a new heartbeat
closes the hub die's output. -/
def State.closeOutput (s : State) (r : ErrRec) : State :=
  if s.inDrive && r.sev == 3 && !r.injected then
    (if s.safety.authority = 1 then s.setAuthority s.fallbackAuthority r.code r.time else s).heartbeat
  else s

/-- ERRQ_OVERFLOW or SEV3_BURST: handled at once, without a queue entry, by entering the fallback safe state in Drive (R376, R378). -/
def State.atOnce (s : State) (code : Nat) : State :=
  let (q, s) := s.stamp
  let (d0, s) := s.free 32
  let (d1, s) := s.free 64
  let origin := if s.safety.commander = 2 then 8 else 7
  let r : ErrRec := ⟨code, 3, false, false, origin, s.mode.code, q, 0, 2, d0, s.now, d1, none, false⟩
  let s := s.applyRecord r
  let s := if s.inDrive then s.fallbackState code s.now else s
  s.hostLog r 2

/-! ## The queue (R375 to R378) -/

/-- Entries occupied: those waiting and those in handling. -/
def ErrQueue.depth (q : ErrQueue) : Nat := q.queue.length + q.handling.length

/-- The first record of the highest severity in a list. -/
def firstWorst (l : List ErrRec) : Option ErrRec :=
  (l.find? (·.sev == 3)).or ((l.find? (·.sev == 2)).or ((l.find? (·.sev == 1)).or l.head?))

/-- The record to handle next: one of higher severity than the one in work pre-empts it, which counts where that one was being handled
(R377). -/
def ErrQueue.next (q : ErrQueue) (counts : Bool) : ErrQueue :=
  match firstWorst q.queue, q.handling with
  | none, _ => q
  | some r, [] => { q with queue := q.queue.erase r, handling := [r] }
  | some r, h :: t =>
    if h.sev < r.sev then
      { q with queue := q.queue.erase r, handling := r :: { h with handling := 1 } :: t,
               preemptions := if counts then satAdd 65535 q.preemptions 1 else q.preemptions }
    else q

/-- The next record taken into handling, whose start closes the hub die's output where it is of severity 3 (R365, R377). -/
def State.handleNext (s : State) (counts : Bool) : State :=
  let before := s.safety.errq.handling.length
  let s := s.modErrq fun q => q.next counts
  match s.safety.errq.handling with
  | r :: _ => if before < s.safety.errq.handling.length then s.closeOutput r else s
  | [] => s

/-- Does a severity-3 record count toward a pair (R378)? -/
def ErrRec.counts (r : ErrRec) : Bool := r.sev == 3 && !r.injected && !([0x350, 0x801, 0x802].contains r.code)

/-- Two detection times lie within 1 ms. -/
def near (a b : Nat) : Bool := decide (a ≤ b + 1000000) && decide (b ≤ a + 1000000)

/-- A counting record forms a pair with the last one that is not part of a pair (R378), in every mode. -/
def State.countPair (s : State) (r : ErrRec) : State :=
  if !r.counts then s
  else match s.safety.errq.lastCounting with
    | some t =>
      if near t r.time then (s.modErrq fun q => { q with lastCounting := none }).atOnce 0x802
      else s.modErrq fun q => { q with lastCounting := some r.time }
    | none => s.modErrq fun q => { q with lastCounting := some r.time }

/-- A record reaches the queue (R376). An injected one takes its place while there is one, and is counted nowhere (R400). -/
def State.enqueue (s : State) (r : ErrRec) : State :=
  let depth := s.safety.errq.depth
  if r.injected ∧ 64 ≤ depth then s.hostLog r 3
  else if r.sev ≤ 1 ∧ 48 ≤ depth ∧ !r.injected then
    (s.modErrq fun q => { q with notesBypassed := satAdd 65535 q.notesBypassed 1 }).hostLog r 3
  else if 64 ≤ depth then (((s.hostLog r 2).applyRecord r).atOnce 0x801).countPair r
  else
    let s := s.modErrq fun q =>
      { q with queue := q.queue ++ [r], maxDepth := if r.injected then q.maxDepth else max q.maxDepth (depth + 1) }
    (s.handleNext true).countPair r

/-- ERROR_RECORD_ENQUEUE (R375, R376, R378): a record under way reaches the queue of both islands, the stamped ones in their order; an
UNSEQUENCED one, which no event arbiter delivers, waits for none of them (log 56). -/
def execErrorRecordEnqueue (s : State) : Out :=
  let l := s.safety.errq.inFlight
  match (l.find? (·.unsequenced)).or l.head? with
  | none => .next s
  | some r => .next ((s.modErrq fun q => { q with inFlight := q.inFlight.erase r }).enqueue r)

/-- ERROR_HANDLING_DONE (R377, R378): the commanding island completes the handling of the record in work. -/
def execErrorHandlingDone (s : State) : Out :=
  match s.safety.errq.handling with
  | [] => .next s
  | r :: l =>
    if s.safety.commander = 0 then .next s
    else
      let s := (s.modErrq fun q => { q with handling := l }).applyRecord r
      let s := s.hostLog r r.handling
      .next (s.handleNext false)

end Sys2Proof.Machine
end

