-- ==== Sys2Proof/Machine/PlanGeom.lean ====
section
/-!
DEFINITION. Machine/PlanGeom.lean: the world snapshot, the checks of Table 7.4, the broad and the narrow phase, and the cost
key of a candidate (R217 to R230). Every value is an FP32 pattern and every operation is rounded by rne32 in the order
written. The functions read bytes; they change nothing.
-/

namespace Sys2Proof.Machine

/-! ## FP32 patterns -/

/-- |x| and -x of an FP32 pattern. -/
def fabs32 (a : Nat) : Nat := a % 0x80000000
def fneg32 (a : Nat) : Nat := a ^^^ 0x80000000

/-- Comparisons of FP32 patterns; a NaN compares false. -/
def flt32 (a b : Nat) : Bool := (f32 a).lt (f32 b)
def fle32 (a b : Nat) : Bool := (f32 a).le (f32 b)

/-- Is an FP32 pattern finite? -/
def fin32 (a : Nat) : Bool := (f32 a).isFinite

/-- The smaller and the larger of two. -/
def fmin32 (a b : Nat) : Nat := if flt32 b a then b else a
def fmax32 (a b : Nat) : Nat := if flt32 a b then b else a

/-- The floor of an FP32 value; an infinity lies beyond every grid. -/
def floor32 (a : Nat) : Int :=
  match f32 a with
  | .nan => -2 ^ 300
  | .inf neg => if neg then -2 ^ 300 else 2 ^ 300
  | .fin neg m e => if 0 ≤ e then signedMant neg m * 2 ^ e.toNat else signedMant neg m / 2 ^ (-e).toNat

/-- x·n of R223: rne32 of the sum of the rounded products. -/
def dot32 (ax ay nx ny : Nat) : Nat := f32add (f32mul ax nx) (f32mul ay ny)

/-! ## Snapshots (Tables 7.1 to 7.3) -/

/-- The snapshot header (Table 7.2); FP32 fields are patterns. -/
structure World where
  magic : Nat
  version : Nat
  headerSize : Nat
  primCount : Nat
  vertexCount : Nat
  origin : Nat
  fused : Nat
  slicePeriod : Nat
  sliceCount : Nat
  gridW : Nat
  gridH : Nat
  originX : Nat
  originY : Nat
  cell : Nat
  inflate : Nat
  front : Nat
  rear : Nat
  half : Nat
  zLo : Nat
  zHi : Nat
deriving DecidableEq, Repr

/-- A little-endian value at an offset of a list of bytes. -/
def valAt (l : List Byte) (off n : Nat) : Nat := leVal ((l.drop off).take n)

/-- The header in its 256 bytes. -/
def World.read (l : List Byte) : World :=
  ⟨valAt l 0 4, valAt l 4 2, valAt l 6 2, valAt l 8 4, valAt l 12 4, valAt l 16 8, valAt l 24 8, valAt l 32 2, valAt l 34 1,
   valAt l 36 2, valAt l 38 2, valAt l 40 4, valAt l 44 4, valAt l 48 4, valAt l 52 4, valAt l 56 4, valAt l 60 4,
   valAt l 64 4, valAt l 68 4, valAt l 72 4⟩

/-- A primitive record (Table 7.3). `z0` is z_lo or cz, `z1` z_hi or the radius. -/
structure Prim where
  kind : Nat
  count : Nat
  mask : Nat
  z0 : Nat
  z1 : Nat
  cx : Nat
  cy : Nat
  len : Nat
  wid : Nat
  yaw : Nat
  first : Nat
deriving DecidableEq, Repr

/-- A primitive in its 64 bytes. -/
def Prim.read (l : List Byte) : Prim :=
  ⟨valAt l 0 1, valAt l 2 2, valAt l 4 4, valAt l 8 4, valAt l 12 4, valAt l 16 4, valAt l 20 4, valAt l 24 4, valAt l 28 4,
   valAt l 32 4, valAt l 36 4⟩

/-- A vertex in its 8 bytes. -/
def readVertex (l : List Byte) : Nat × Nat := (valAt l 0 4, valAt l 4 4)

/-! ## The rules of Table 7.4 -/

/-- Rule 1. -/
def World.headerOk (h : World) : Bool :=
  h.magic == 0x444C5257 && h.version == 1 && h.headerSize == 256 && decide (h.primCount ≤ 4096) &&
    decide (h.vertexCount ≤ 65536) && decide (10 ≤ h.slicePeriod ∧ h.slicePeriod ≤ 1000) &&
    decide (1 ≤ h.sliceCount ∧ h.sliceCount ≤ 32) && decide (1 ≤ h.gridW ∧ h.gridW ≤ 128) &&
    decide (1 ≤ h.gridH ∧ h.gridH ≤ 128) &&
    [h.originX, h.originY, h.cell, h.inflate, h.front, h.rear, h.half, h.zLo, h.zHi].all fin32 &&
    fle32 0x3E800000 h.cell && fle32 h.cell 0x41800000

/-- Rule 2. -/
def World.egoOk (h : World) : Bool :=
  let f := fmax32 h.front h.rear
  fle32 0 h.front && fle32 0 h.rear && fle32 0 h.half && fle32 h.zLo h.zHi &&
    fle32 (f32add (f32mul f f) (f32mul h.half h.half)) (f32mul h.inflate h.inflate)

/-- The vertices of a mesh, from those that the header declares. -/
def Prim.mesh (p : Prim) (vs : List (Nat × Nat)) : List (Nat × Nat) := (vs.drop p.first).take p.count

/-- Rule 3 for one used record; kind 0 marks an unused one. -/
def Prim.ok (p : Prim) (vs : List (Nat × Nat)) : Bool :=
  match p.kind with
  | 0 => true
  | 1 => [p.z0, p.z1, p.cx, p.cy, p.len, p.wid, p.yaw].all fin32 && fle32 p.z0 p.z1 && fle32 0 p.len && fle32 0 p.wid
  | 2 => [p.z0, p.z1, p.cx, p.cy].all fin32 && fle32 0 p.z1
  | 3 => fin32 p.z0 && fin32 p.z1 && fle32 p.z0 p.z1 && decide (3 ≤ p.count ∧ p.count ≤ 64) &&
      decide (p.first + p.count ≤ vs.length) && (p.mesh vs).all fun v => fin32 v.1 && fin32 v.2
  | _ => false

/-- Consecutive vertices of a closed polygon, three by three. -/
def corners (v : List (Nat × Nat)) : List ((Nat × Nat) × (Nat × Nat) × (Nat × Nat)) :=
  let at_ := fun i => v.getD (i % v.length) (0, 0)
  (List.range v.length).map fun i => (at_ i, at_ (i + 1), at_ (i + 2))

/-- Rule 4: strictly convex and anticlockwise. -/
def Prim.convex (p : Prim) (vs : List (Nat × Nat)) : Bool :=
  p.kind != 3 || (corners (p.mesh vs)).all fun (a, b, c) =>
    let ax := f32sub b.1 a.1
    let ay := f32sub b.2 a.2
    let bx := f32sub c.1 b.1
    let by_ := f32sub c.2 b.2
    flt32 0 (f32sub (f32mul ax by_) (f32mul ay bx))

/-! ## Broad phase (R221, R222) -/

/-- Footprint bounds: x from, x to, y from, y to. -/
def Prim.bounds (p : Prim) (vs : List (Nat × Nat)) : Nat × Nat × Nat × Nat :=
  match p.kind with
  | 1 =>
    let c := fabs32 (crTrig true 1 p.yaw)
    let s := fabs32 (crTrig false 1 p.yaw)
    let hx := f32add (f32mul p.len c) (f32mul p.wid s)
    let hy := f32add (f32mul p.len s) (f32mul p.wid c)
    (f32sub p.cx hx, f32add p.cx hx, f32sub p.cy hy, f32add p.cy hy)
  | 2 => (f32sub p.cx p.z1, f32add p.cx p.z1, f32sub p.cy p.z1, f32add p.cy p.z1)
  | _ =>
    match p.mesh vs with
    | [] => (0, 0, 0, 0)
    | v :: l =>
      (l.foldl (fun m w => fmin32 m w.1) v.1, l.foldl (fun m w => fmax32 m w.1) v.1,
       l.foldl (fun m w => fmin32 m w.2) v.2, l.foldl (fun m w => fmax32 m w.2) v.2)

/-- The cells of one axis that a range covers: none when it lies wholly off the grid. -/
def World.span (h : World) (lo hi origin n : Nat) : Option (Nat × Nat) :=
  let at_ := fun v => floor32 (f32div (f32sub v origin) h.cell)
  let a := at_ (f32sub lo h.inflate)
  let b := at_ (f32add hi h.inflate)
  if b < 0 ∨ (n : Int) ≤ a then none else some ((max 0 a).toNat, (min b ((n : Int) - 1)).toNat)

/-- The cells a primitive is listed in: ix from and to, iy from and to. -/
def World.cells (h : World) (vs : List (Nat × Nat)) (p : Prim) : Option (Nat × Nat × Nat × Nat) :=
  let (x0, x1, y0, y1) := p.bounds vs
  match h.span x0 x1 h.originX h.gridW, h.span y0 y1 h.originY h.gridH with
  | some (a, b), some (c, d) => some (a, b, c, d)
  | _, _ => none

/-- The used primitives with a footprint on the grid: index, slices and cells. -/
def World.listed (h : World) (ps : List Prim) (vs : List (Nat × Nat)) : List (Nat × Nat × (Nat × Nat × Nat × Nat)) :=
  ps.zipIdx.filterMap fun (p, i) =>
    if p.kind = 0 then none else (h.cells vs p).map fun c => (i, p.mask % 2 ^ h.sliceCount, c)

/-- The references of a cell of a slice, in ascending primitive index. -/
def cellRefs (l : List (Nat × Nat × (Nat × Nat × Nat × Nat))) (s ix iy : Nat) : List Nat :=
  (l.filter fun (_, m, a, b, c, d) => bit m s && decide (a ≤ ix ∧ ix ≤ b ∧ c ≤ iy ∧ iy ≤ d)).map (·.1)

/-- All cells of all slices in table order. -/
def World.table (h : World) (ps : List Prim) (vs : List (Nat × Nat)) : List (List Nat) :=
  let l := h.listed ps vs
  (List.range h.sliceCount).flatMap fun s =>
    (List.range h.gridH).flatMap fun iy => (List.range h.gridW).map fun ix => cellRefs l s ix iy

/-- The result of a build (R217): the cells, or the code and record of the first failing rule. -/
def World.build (h : World) (ps : List Prim) (vs : List (Nat × Nat)) : Except (Nat × Option Nat) (List (List Nat)) :=
  let bad := fun (ok : Prim → Bool) => (ps.zipIdx.find? fun x => !ok x.1).map (·.2)
  if !h.headerOk || !h.egoOk then .error (0x402, none)
  else match bad (·.ok vs) with
    | some i => .error (0x402, some i)
    | none => match bad (·.convex vs) with
      | some i => .error (0x402, some i)
      | none =>
        let cells := h.table ps vs
        if cells.any fun c => decide (256 < c.length) then .error (0x403, none)
        else if 1048576 < (cells.map List.length).sum then .error (0x404, none)
        else .ok cells

/-- The cell table entries (R221): first reference in [19:0], count in [28:20]. -/
def tableEntries (first : Nat) : List (List Nat) → List Nat
  | [] => []
  | c :: l => (first % 1048576 + c.length * 1048576) :: tableEntries (first + c.length) l

/-- The slice of a pose at `t` ms after `base` (R222). -/
def World.slice (h : World) (base t : Nat) : Nat :=
  let p := (h.slicePeriod : Int) * 1000000
  (clampInt 0 ((h.sliceCount : Int) - 1) (((base : Int) + t * 1000000 - h.origin + p / 2) / p)).toNat

/-- The cell of a pose; none off the grid (R222). -/
def World.cellOf (h : World) (x y : Nat) : Option (Nat × Nat) :=
  let ix := floor32 (f32div (f32sub x h.originX) h.cell)
  let iy := floor32 (f32div (f32sub y h.originY) h.cell)
  if 0 ≤ ix ∧ ix < h.gridW ∧ 0 ≤ iy ∧ iy < h.gridH then some (ix.toNat, iy.toNat) else none

/-! ## Narrow phase (R223 to R226) -/

/-- The ego box of a pose (R223): centre, direction and half-extents. -/
structure Ego where
  ex : Nat
  ey : Nat
  cs : Nat
  sn : Nat
  a : Nat
  b : Nat
deriving DecidableEq, Repr

/-- The ego box of a pose. -/
def World.ego (h : World) (x y yaw : Nat) : Ego :=
  let cs := crTrig true 1 yaw
  let sn := crTrig false 1 yaw
  let off := f32mul (f32sub h.front h.rear) 0x3F000000
  ⟨f32add x (f32mul off cs), f32add y (f32mul off sn), cs, sn, f32mul (f32add h.front h.rear) 0x3F000000, h.half⟩

/-- radius_on(n). -/
def Ego.radiusOn (e : Ego) (nx ny : Nat) : Nat :=
  f32add (f32mul e.a (fabs32 (dot32 e.cs e.sn nx ny))) (f32mul e.b (fabs32 (dot32 (fneg32 e.sn) e.cs nx ny)))

/-- Is there a gap in height? -/
def World.gapZ (h : World) (p : Prim) : Bool := flt32 h.zHi p.z0 || flt32 p.z1 h.zLo

/-- R224. -/
def World.hitsBox (h : World) (p : Prim) (e : Ego) : Bool :=
  let c2 := crTrig true 1 p.yaw
  let s2 := crTrig false 1 p.yaw
  let dx := f32sub p.cx e.ex
  let dy := f32sub p.cy e.ey
  !h.gapZ p && [(e.cs, e.sn), (fneg32 e.sn, e.cs), (c2, s2), (fneg32 s2, c2)].all fun (nx, ny) =>
    let rp := f32add (f32mul p.len (fabs32 (dot32 c2 s2 nx ny))) (f32mul p.wid (fabs32 (dot32 (fneg32 s2) c2 nx ny)))
    !flt32 (f32add (e.radiusOn nx ny) rp) (fabs32 (dot32 dx dy nx ny))

/-- R225. -/
def World.hitsMesh (h : World) (p : Prim) (v : List (Nat × Nat)) (e : Ego) : Bool :=
  let normals := (corners v).map fun (a, b, _) => (f32sub b.2 a.2, f32sub a.1 b.1)
  !h.gapZ p && ((e.cs, e.sn) :: (fneg32 e.sn, e.cs) :: normals).all fun (nx, ny) =>
    let c := dot32 e.ex e.ey nx ny
    let r := e.radiusOn nx ny
    match v.map fun w => dot32 w.1 w.2 nx ny with
    | [] => true
    | q :: l => !flt32 (l.foldl fmax32 q) (f32sub c r) && !flt32 (f32add c r) (l.foldl fmin32 q)

/-- clamp of R226. -/
def clamp32 (v lo hi : Nat) : Nat := fmin32 (fmax32 v lo) hi

/-- R226. -/
def World.hitsSphere (h : World) (p : Prim) (e : Ego) : Bool :=
  let dx := f32sub p.cx e.ex
  let dy := f32sub p.cy e.ey
  let l := f32add (f32mul dx e.cs) (f32mul dy e.sn)
  let m := f32sub (f32mul dy e.cs) (f32mul dx e.sn)
  let ql := f32sub l (clamp32 l (fneg32 e.a) e.a)
  let qm := f32sub m (clamp32 m (fneg32 e.b) e.b)
  let qz := f32sub p.z0 (clamp32 p.z0 h.zLo h.zHi)
  fle32 (f32add (f32add (f32mul ql ql) (f32mul qm qm)) (f32mul qz qz)) (f32mul p.z1 p.z1)

/-- Does a primitive overlap the ego box? -/
def World.hits (h : World) (p : Prim) (v : List (Nat × Nat)) (e : Ego) : Bool :=
  match p.kind with
  | 1 => h.hitsBox p e
  | 2 => h.hitsSphere p e
  | 3 => h.hitsMesh p v e
  | _ => false

/-! ## Candidates (Tables 7.5, 7.6, R229, R230) -/

/-- A pose in its 16 bytes (Table 7.6). -/
def readPose (l : List Byte) : Pose := ⟨valAt l 0 4, valAt l 4 4, valAt l 8 4, valAt l 12 2, valAt l 14 2⟩

/-- A pose as 16 bytes. -/
def poseBytes (p : Pose) : List Byte :=
  leBytes 4 p.x ++ leBytes 4 p.y ++ leBytes 4 p.yaw ++ leBytes 2 p.t ++ leBytes 2 p.speed

/-- The 64 poses of a candidate's 1,040 bytes. -/
def candPoses (raw : List Byte) : List Pose := (List.range 64).map fun k => readPose ((raw.drop (16 + 16 * k)).take 16)

/-- A pose's speed as an FP32 pattern. -/
def poseSpeed (p : Pose) : Nat := p.speed % 65536 * 65536

/-- Is a pose finite? -/
def poseFinite (p : Pose) : Bool := fin32 p.x && fin32 p.y && fin32 p.yaw && fin32 (poseSpeed p)

/-- Consecutive elements of a list. -/
def steps {α : Type} (l : List α) : List (α × α) := l.zip (l.drop 1)

/-- The poses that a checker accepts (R229). -/
def posesOk (l : List Pose) : Bool := l.all poseFinite && (steps l).all fun (a, b) => decide (a.t < b.t)

/-- The yaw step of R230, brought into (-π, π]. -/
def yawStep (a b : Nat) : Nat :=
  let dy := f32sub b a
  if flt32 0x40490FDB dy then f32sub dy 0x40C90FDB
  else if fle32 dy (fneg32 0x40490FDB) then f32add dy 0x40C90FDB
  else dy

/-- The cost c of R230. -/
def costOf (prior wSpeed wYaw : Nat) (l : List Pose) : Nat :=
  (steps l).foldl (init := prior) fun c (a, b) =>
    let dv := f32sub (poseSpeed b) (poseSpeed a)
    let dy := yawStep a.yaw b.yaw
    let c := f32add c (f32mul wSpeed (f32mul dv dv))
    f32add c (f32mul wYaw (f32mul dy dy))

/-- The 32-bit key, or none for a bad cost (R230). -/
def costKey (prior wSpeed wYaw : Nat) (l : List Pose) : Option Nat :=
  let c := costOf prior wSpeed wYaw l
  match f32 c with
  | .nan => none
  | .inf neg => if neg then some 0 else none
  | _ => some (if fle32 c 0 then 0 else c)

end Sys2Proof.Machine
end

