-- ==== Sys2Proof/Machine/Planner.lean ====
section
/-!
DEFINITION. Machine/Planner.lean: the planning engine (R212 to R241): set-up, snapshots and epochs, plan cycles, proposals,
the checker lanes, the frontier queue, selection and publication.
-/

namespace Sys2Proof.Machine

/-- The engine changed by `g`. -/
def State.modPlanner (s : State) (g : Planner → Planner) : State := { s with planner := g s.planner }

/-! ## Time (R213) -/

/-- The period in ns. -/
def State.planPeriod (s : State) : Nat := s.fld .PLAN_CYCLE_PERIOD * 1000

/-- The start of plan cycle `n`. -/
def State.cycleStart (s : State) (n : Nat) : Nat := s.fld .PLAN_CYCLE_PHASE_PHASE + n * s.planPeriod

/-- The selection instant of a cycle. -/
def State.selectAt (s : State) (c : PlanCycle) : Nat := c.start + s.fld .PLAN_CYCLE_SELECT_OFFSET * 1000

/-- The next cycle whose start lies in the future (R213). -/
def State.nextCycle (s : State) : Nat := (s.cycleNow + 1).toNat

/-- Does the engine run plan cycles (R212)? -/
def State.planning (s : State) : Bool := s.domainOn 31 && s.fld .PLAN_CFG_ENABLE == 1 && s.inDrive

/-- The cycle in progress is left, with what it had taken; cycles start again with the next one. -/
def State.stopCycles (s : State) : State :=
  s.modPlanner fun p => { p with cycle := none, waiting := [], lanes := List.replicate 64 none, queue := [],
                                 first := s.nextCycle }

/-! ## Snapshot buffers (R216 to R220) -/

/-- Base of a snapshot buffer as a device address (07: offsets 0x0300_0000 and 0x0380_0000 of hub SRAM). -/
def snapBase (b : Nat) : Nat := hubBase + 0x03000000 + b * 0x00800000

/-- The buffer granted: WRITABLE, and a unit on FREE_MARKER (R216). -/
def State.grant (s : State) (b : Nat) : State :=
  (s.modPlanner fun p => { p with states := setAt p.states b 0, granted := some b }).addMarker
    (s.fld .PLAN_MARKERS_FREE_MARKER) 1

/-- The first buffer in a state. -/
def Planner.inState (p : Planner) (x : Nat) : Option Nat := [0, 1].find? fun b => p.states.getD b 0 == x

/-- The header in a buffer. -/
def State.world (s : State) (b : Nat) : World := World.read (s.devRead (snapBase b) 256)

/-- Primitive `i` of a buffer. -/
def State.prim (s : State) (b i : Nat) : Prim := Prim.read (s.devRead (snapBase b + 0x100 + 64 * i) 64)

/-- The vertices that the header of a buffer declares. -/
def State.vertices (s : State) (b n : Nat) : List (Nat × Nat) :=
  (List.range n).map fun i => readVertex (s.devRead (snapBase b + 0x41000 + 8 * i) 8)

/-- The cell table and the references that the engine writes (Table 7.1, R221). -/
def State.writeTable (s : State) (b : Nat) (cells : List (List Nat)) : State :=
  let s := s.devWrite (snapBase b + 0x100000) ((tableEntries 0 cells).flatMap (leBytes 4))
  s.devWrite (snapBase b + 0x300000) (cells.flatten.flatMap (leBytes 2))

/-- The primitives listed for a cell of a slice, as the table and the references in hub SRAM give them. -/
def State.listedIn (s : State) (b : Nat) (h : World) (slice ix iy : Nat) : List Nat :=
  let e := s.devVal (snapBase b + 0x100000 + 4 * ((slice * h.gridH + iy) * h.gridW + ix)) 4
  (List.range (bits e 28 20)).map fun i => s.devVal (snapBase b + 0x300000 + 2 * (e % 1048576 + i)) 2

/-! ## Checking (R227) -/

/-- What a check finds: no collision, a pose off the grid, or a pose and primitive that collide. -/
inductive Verdict where
  | free
  | offGrid (pose : Nat)
  | collides (pose prim : Nat)
deriving DecidableEq, Repr

/-- One pose in the world of a buffer. -/
def State.checkPose (s : State) (b : Nat) (h : World) (base k : Nat) (p : Pose) : Verdict :=
  match h.cellOf p.x p.y with
  | none => .offGrid k
  | some (ix, iy) =>
    let e := h.ego p.x p.y p.yaw
    match (s.listedIn b h (h.slice base p.t) ix iy).find? fun i =>
        let q := s.prim b i
        h.hits q ((List.range q.count).map fun j => readVertex (s.devRead (snapBase b + 0x41000 + 8 * (q.first + j)) 8)) e with
    | some i => .collides k i
    | none => .free

/-- A candidate against the world of a buffer: the first collision, pose by pose. -/
def State.check (s : State) (b base : Nat) (raw : List Byte) : Verdict :=
  let h := s.world b
  (candPoses raw).zipIdx.foldl (init := Verdict.free) fun v (p, k) =>
    match v with
    | .free => s.checkPose b h base k p
    | v => v

/-- The collision of a verdict is recorded (R227). -/
def State.noteVerdict (s : State) (index : Nat) : Verdict → State
  | .free => s
  | .offGrid k => s.modPlanner fun p => { p with found := ⟨index, k, none⟩ :: p.found }
  | .collides k i => s.modPlanner fun p => { p with found := ⟨index, k, some i⟩ :: p.found }

/-! ## Lanes (R229, R240) -/

/-- Is a lane in service: not out and not under a swatch? -/
def State.laneUp (s : State) (l : Nat) : Bool :=
  !s.planner.out.contains l && !s.holding.any fun x => x.ref.kind == .lane && x.ref.target % 64 == l

/-- Lanes in service. -/
def State.lanesUp (s : State) : Nat := ((List.range 64).filter s.laneUp).length

/-- The lowest lane in service other than `l` (R235). -/
def State.otherLane (s : State) (l : Nat) : Option Nat := (List.range 64).find? fun k => k != l && s.laneUp k

/-- May a lane take a candidate: in service and free? -/
def State.laneFree (s : State) (l : Nat) : Bool := s.laneUp l && (s.planner.lanes.getD l none).isNone

/-- Waiting candidates, in the order taken, given to the free lanes, the lowest first; the fuel bounds their number. -/
def feedLanes : Nat → State → State
  | 0, s => s
  | n + 1, s =>
    match s.planner.waiting, (List.range 64).find? s.laneFree with
    | c :: l, some k => feedLanes n (s.modPlanner fun p => { p with waiting := l, lanes := setAt p.lanes k (some c) })
    | _, _ => s

/-- Free lanes take waiting candidates while a cycle that is not stale checks (R214, R220). -/
def State.feed (s : State) : State :=
  match s.planner.cycle with
  | some c => if c.stale || c.selected then s else feedLanes 64 s
  | none => s

/-- A lane fails: out of service until the next main-path start (R240). -/
def State.laneOut (s : State) (l : Nat) : State :=
  if s.planner.out.contains l then s
  else
    let before := s.planner.out.length
    let s := s.modPlanner fun p => { p with out := p.out ++ [l] }
    let s := s.report 0x421 2
    if before = 19 then s.report 0x422 2 else s

/-! ## Set-up (R241) -/

/-- Is the set-up one that R241 accepts? -/
def State.planSetupOk (s : State) : Bool :=
  decide (20 ≤ s.fld .PLAN_CFG_MAX_WORLD_AGE) && decide (5000 ≤ s.fld .PLAN_CYCLE_PERIOD) &&
    decide (s.fld .PLAN_CYCLE_PERIOD ≤ 200000) &&
    decide (s.fld .PLAN_CYCLE_SELECT_OFFSET + 200 ≤ s.fld .PLAN_CYCLE_PERIOD) &&
    s.fld .PLAN_MARKERS_FREE_MARKER != s.fld .PLAN_MARKERS_PUBLISH_MARKER &&
    decide (1 ≤ s.fld .PLAN_PROP_BUF_COUNT) && decide (s.fld .PLAN_PROP_BUF_COUNT ≤ 4) &&
    decide (s.fld .PLAN_OUT_BASE_OFFSET * 256 + 17408 ≤ 0x03000000) &&
    decide (s.fld .PLAN_STORE_BASE_BASE * 4096 + 68157440 ≤ hbmSize)

/-- PLAN_ENABLE (R213, R216, R241): the set-up checked, the first buffer granted. -/
def State.planEnable (s : State) : State :=
  if s.fld .PLAN_CFG_ENABLE = 1 then s
  else if !s.planSetupOk then (s.refuse .PLAN_CFG 0x401)
  else
    let s := (s.setFld .PLAN_CFG_ENABLE 1).stopCycles
    let s := { s with safety := { s.safety with planFrom := s.nextCycle } }
    (if s.planner.granted.isNone then s.grant 0 else s)

/-- PLAN_ENABLE: the command. -/
def execPlanEnable (s : State) : Out := .next (s.planEnable)

/-- PLAN_DISABLE (R212). -/
def State.planDisable (s : State) : State :=
 (s.setFld .PLAN_CFG_ENABLE 0).stopCycles

/-- PLAN_DISABLE: the command. -/
def execPlanDisable (s : State) : Out := .next (s.planDisable)

/-- CLR_PLAN_STAT: PLAN_STAT_CLR clears the statistics whose bits are 1. -/
def State.clearStats (s : State) (mask : Nat) : State :=
  (List.range 8).foldl (fun s n => if bit mask n then s.setFld .PLAN_STAT_COUNT 0 n else s) s

/-- CLR_PLAN_STAT: bit n of PLAN_STAT_CLR. -/
def execClrPlanStat (n : Fin 8) (s : State) : Out := .next (s.clearStats (2 ^ n.val))

/-! ## Cycles (R213 to R220) -/

/-- The STANDBY buffer becomes ACTIVE and the other one WRITABLE and granted (R218). -/
def State.activate (s : State) : State :=
  match s.planner.inState 2 with
  | some b => (s.modPlanner fun p => { p with states := setAt p.states b 3 }).grant (1 - b)
  | none => s

/-- The fusion tally of R215. -/
def State.olderFusion (s : State) : State :=
  match s.sensing.readInstant with
  | none => s
  | some i =>
    let f := match s.planner.inState 3 with
      | some b => (s.world b).fused
      | none => 0xFFFFFFFFFFFFFFFF
    if f < i ∨ f = 0xFFFFFFFFFFFFFFFF then s.tally 0x05 0 else s

/-- Is a cycle that starts at `t` stale (R220)? -/
def State.staleAt (s : State) (t : Nat) : Bool :=
  match s.planner.inState 3 with
  | none => true
  | some b => decide ((s.world b).origin + s.fld .PLAN_CFG_MAX_WORLD_AGE * 1000000 < t)

/-- PLAN_CYCLE_START (R213, R215, R218, R220, R231). -/
def execPlanCycleStart (s : State) : Out :=
  let n := s.cycleNow.toNat
  if !s.planning || decide (s.cycleNow < s.planner.first) then .next s
  else
    let s := s.activate.olderFusion
    let t := s.cycleStart n
    let stale := s.staleAt t
    let epoch := match s.planner.inState 3 with
      | some b => s.planner.epochs.getD b 0
      | none => 0
    let s := s.modPlanner fun p =>
      { p with cycle := some ⟨n, t, false, stale, epoch, [], 0⟩, waiting := [], lanes := List.replicate 64 none, queue := [],
               found := [], first := n + 1 }
    .next (if stale then s.report 0x405 2 else s)

/-! ## Snapshots (R217) -/

/-- SNAPSHOT_PUBLISH (R217, R322): a unit of PUBLISH_MARKER is consumed and the granted buffer moves to BUILDING. The engine's TAKE goes
behind a TAKE that waits on the marker. -/
def execSnapshotPublish (s : State) : Out :=
  let m := s.fld .PLAN_MARKERS_PUBLISH_MARKER
  match s.planner.granted with
  | none => .next s
  | some b =>
    if s.fld .PLAN_CFG_ENABLE = 1 ∧ s.planner.states.getD b 0 = 0 then
      let build := fun (s : State) => s.modPlanner fun p => { p with states := setAt p.states b 1, taken := false }
      if s.planner.taken then .next (build s)
      else if s.host.waits.any fun w => w.desc == engineTake then .next s
      else if s.host.waits.any fun w => w.marker == m && w.kind == 1 then
        .next { s with host := { s.host with waits := s.host.waits ++ [⟨engineTake, m, 1, 1, none⟩] } }
      else if reached (s.marker m) 1 then .next ((build s).setMarker m (s.marker m + 4294967295))
      else .next s
    else .next s

/-- SNAPSHOT_BUILD_DONE (R217, Table 7.4). -/
def execSnapshotBuildDone (s : State) : Out :=
  match s.planner.inState 1 with
  | none => .next s
  | some b =>
    let h := s.world b
    let prims := (List.range h.primCount).map (s.prim b)
    match h.build prims (s.vertices b h.vertexCount) with
    | .error (code, i) => .next ((s.report code 2 i).grant b)
    | .ok cells =>
      let e := s.planner.top + 1
      .next ((s.writeTable b cells).modPlanner fun p =>
        { p with states := setAt p.states b 2, epochs := setAt p.epochs b e, built := setAt p.built b s.now, top := e })

/-! ## Proposals (R228, R229) -/

/-- A cycle that takes proposals: in progress and before its selection instant. -/
def State.takingCycle (s : State) : Option PlanCycle :=
  match s.planner.cycle with
  | some c => if c.selected || decide (s.selectAt c ≤ s.now) then none else some c
  | none => none

/-- The proposal buffers in PLAN_PROP_BUF order. -/
def State.propBuffers (s : State) : List Nat :=
  [s.fld .PLAN_PROP_BUF_BUF0, s.fld .PLAN_PROP_BUF_BUF1, s.fld .PLAN_PROP_BUF_BUF2, s.fld .PLAN_PROP_BUF_BUF3].take
    (s.fld .PLAN_PROP_BUF_COUNT)

/-- The ready half of a buffer to take: released, the older one first. -/
def Buffer.toTake (b : Buffer) : Option Nat :=
  let ok := fun i => match b.halves[i]? with
    | some h => h.ready && !h.pendingVerdict && !h.invalid && !h.held
    | none => false
  let filled := fun (i : Nat) => ((b.halves[i]?.map (·.filled)).getD 0 : Nat)
  if ok 0 && ok 1 then some (if filled 1 < filled 0 then 1 else 0)
  else if ok 0 then some 0 else if ok 1 then some 1 else none

/-- One candidate taken (R229): bad, or queued for the lanes. -/
def State.takeCandidate (s : State) (c : Candidate) : State :=
  match s.planner.cycle with
  | none => s
  | some y =>
    let bad := y.taken.contains c.index || !posesOk (candPoses c.raw)
    let s := s.modPlanner fun p => { p with cycle := some { y with taken := c.index :: y.taken } }
    if bad then s.count .PLAN_STAT_COUNT 4 else s.modPlanner fun p => { p with waiting := p.waiting ++ [c] }

/-- A block's candidates taken, or the block discarded whole (Table 7.5). -/
def State.takeBlock (s : State) (size : Nat) (block : List Byte) : State :=
  let n := valAt block 8 4
  if valAt block 0 4 ≠ 0x504F5250 ∨ valAt block 4 2 ≠ 1 ∨ valAt block 6 2 ≠ 64 ∨ n = 0 ∨ size < 64 + 1040 * n then
    s.report 0x406 1
  else
    ((List.range n).foldl (init := s) fun s j =>
      let raw := (block.drop (64 + 1040 * j)).take 1040
      s.takeCandidate ⟨valAt raw 0 4, valAt block 16 8, raw⟩).feed

/-- PROPOSAL_TAKE (R228): the first ready half in PLAN_PROP_BUF order. -/
def execProposalTake (s : State) : Out :=
  match s.takingCycle with
  | none => .next s
  | some _ =>
    match s.propBuffers.findSome? fun id => match s.buffer id with
        | some b => b.toTake.map fun h => (id, b, h)
        | none => none with
    | none => .next s
    | some (id, b, h) =>
      let block := s.devRead (b.halfAddr h) b.entry.size
      .next ((s.clearReady id h).takeBlock b.entry.size block)

/-! ## The frontier queue (R231 to R233) -/

/-- Does one entry rank before another (R231)? -/
def Frontier.before (a b : Frontier) : Bool := decide (a.key < b.key) || (a.key == b.key && decide (a.index < b.index))

/-- An entry put in its place. -/
def insertFrontier (e : Frontier) : List Frontier → List Frontier
  | [] => [e]
  | x :: l => if e.before x then e :: x :: l else x :: insertFrontier e l

/-- The lowest slot of the candidate store that neither an entry of the queue nor the plan published last holds; with all 65,536 taken, that of
the plan published last. -/
def Planner.freeSlot (p : Planner) : Nat :=
  let free := fun (k : Nat) => !p.queue.any (·.slot == k)
  ((List.range (min 65536 (p.queue.length + 2))).find? fun k => free k && !p.prev.any (·.slot == k)).getD
    (((List.range 65536).find? free).getD 0)

/-- The device address of a slot of the candidate store (R233). -/
def State.storeAddr (s : State) (slot : Nat) : Nat := s.fld .PLAN_STORE_BASE_BASE * 4096 + 1040 * slot

/-- A request of the planning engine, master 4 of Table 8.4, for one slot of the store (R233). -/
def State.askStore (s : State) (slot : Nat) (isWrite : Bool) : State := s.askMemory 4 0 (s.storeAddr slot) 1040 isWrite 0

/-- A candidate of the store, read back (R233). -/
def State.stored (s : State) (slot : Nat) : List Byte := s.devRead (s.storeAddr slot) 1040

/-- A candidate that lane `lane` found free, inserted and copied into the store through the planner's partition (R231 to R233). The
bytes stand in the store at once: a read of the engine that follows leaves its regulator after the write (R257, log 106). -/
def State.insertCandidate (s : State) (lane key : Nat) (c : Candidate) : State :=
  let put := fun (s : State) =>
    let k := s.planner.freeSlot
    let s := s.modPlanner fun p => { p with queue := insertFrontier ⟨key, c.index, c.base, k, lane⟩ p.queue }
    (((s.devWrite (s.storeAddr k) c.raw).unpoison (s.storeAddr k) 1040).askStore k true).count .PLAN_STAT_COUNT 1
  if s.planner.queue.length < 65536 then put s
  else
    let s := s.count .PLAN_STAT_COUNT 5
    match s.planner.queue.getLast? with
    | some w =>
      if Frontier.before ⟨key, c.index, c.base, 0, lane⟩ w then put (s.modPlanner fun p => { p with queue := p.queue.dropLast }) else s
    | none => s

/-- CANDIDATE_CHECK_DONE (R227, R229, R230): before the selection instant a lane's verdict counts. -/
def execCandidateCheckDone (lane : Fin 64) (s : State) : Out :=
  match s.takingCycle, s.planner.lanes.getD lane none, s.planner.inState 3 with
  | some y, some c, some b =>
    let v := s.check b c.base c.raw
    let key := costKey (valAt c.raw 4 4) (s.fld .PLAN_COST_W_W_SPEED) (s.fld .PLAN_COST_W_W_YAW) (candPoses c.raw)
    let s := s.modPlanner fun p =>
      { p with lanes := setAt p.lanes lane none, cycle := some { y with checked := y.checked + 1 } }
    let s := (s.count .PLAN_STAT_COUNT 0).noteVerdict c.index v
    let s := match v, key with
      | .offGrid _, _ => s.count .PLAN_STAT_COUNT 3
      | .collides .., _ => s.count .PLAN_STAT_COUNT 2
      | .free, none => s.count .PLAN_STAT_COUNT 4
      | .free, some k => s.insertCandidate lane k c
    .next s.feed
  | _, _, _ => .next s

/-! ## Selection and publication (R234 to R238) -/

/-- The bytes of a plan record (Table 7.7). -/
def PlanRecord.header (r : PlanRecord) (step time : Nat) : List Byte :=
  leBytes 4 0x4E414C50 ++ leBytes 2 1 ++ leBytes 1 r.outcome ++ leBytes 1 step ++ leBytes 8 r.cycle ++
    leBytes 4 r.epochStart ++ leBytes 4 r.epochPublish ++ leBytes 4 r.candidate ++ leBytes 4 r.key ++ leBytes 8 r.base ++
    leBytes 8 time ++ leBytes 6 r.seq ++ leBytes 2 r.flags ++ leBytes 4 r.checked ++ leBytes 4 0

/-- The step that the planning source asks for. -/
def Planner.level (p : Planner) : Nat := if p.d4 then 4 else if p.mismatch then 3 else 0

/-- A plan record written to slot cycle mod 16 of the ring (R238), for the relay and the CAN controllers. While the D4 request stands,
its step shows D4 (R237). -/
def State.writePlan (s : State) (y : PlanCycle) (outcome epoch unchecked : Nat) (e : Published) : State :=
  let (q, s) := s.stamp
  let flags := (if unchecked = 0 then 0 else 1) + (if y.stale then 2 else 0)
  let poses := if outcome = 3 then List.replicate 64 ⟨0, 0, 0, 0, 0⟩ else candPoses (s.stored e.slot)
  let r : PlanRecord := ⟨y.number, e.base, y.epoch, epoch, outcome, e.index, e.key, y.checked, y.taken.length, flags, q, poses⟩
  let a := hubBase + s.fld .PLAN_OUT_BASE_OFFSET * 256 + 1088 * (y.number % 16)
  let s := s.devWrite a (r.header (if s.planner.d4 then 4 else s.degrade.step) s.now ++ poses.flatMap poseBytes)
  let again := { s.safety.restart with planned := true }
  let relayed := fun (x : Island) => if x.alive then { x with relay := x.relay ++ [r] } else x
  { s with safety := { s.safety with lastPlan := some r, restart := again, wha := relayed s.safety.wha, whb := relayed s.safety.whb } }

/-- no_path() (R236, R237). -/
def State.noPath (s : State) (y : PlanCycle) (unchecked : Nat) : State :=
  let s := s.modPlanner fun p => { p with d4 := true, run := 0, keep := 0, prev := none }
  let s := s.report 0x412 3 (request := some (4, 4))
  s.writePlan y 3 0 unchecked ⟨y.number, 0, 0, 0, 0, 0⟩

/-- The counts of R234 and R237 after a publication, and the requests that end with it: D4 after 25 winners in a row, that of a
withheld publication at a record whose final check agrees (Table 6.8). -/
def State.countOutcome (s : State) (outcome : Nat) : State :=
  let s := s.modPlanner fun p =>
    if outcome = 2 then { p with keep := satAdd 255 p.keep 1, run := 0 } else { p with keep := 0, run := satAdd 255 p.run 1 }
  let s := s.modPlanner fun p => { p with d4 := p.d4 && decide (p.run < 25), mismatch := false }
  s.lower 4 s.planner.level 0

/-- A candidate of the store checked in the world of a buffer by a lane, the collision recorded (R227, R234, R235). -/
def State.checkStored (s : State) (b : Nat) (e : Published) : Bool × State :=
  let v := s.check b e.base (s.stored e.slot)
  (v == .free, (s.askStore e.slot false).noteVerdict e.index v)

/-- Publication under the final check of R235, in the world of buffer `b`: a lane other than the one relied on checks again. `agrees` is
false where that lane, being faulty, finds a collision that is none. -/
def State.publish (s : State) (y : PlanCycle) (b outcome epoch unchecked : Nat) (agrees : Bool) (e : Published) : State :=
  let lane := s.otherLane e.lane
  let (free, s) := s.checkStored b e
  let s := s.modPlanner fun p => { p with final := lane.map fun l => (e.lane, l) }
  if lane.isSome && free && agrees then
    let s := s.modPlanner fun p => { p with prev := some { e with cycle := y.number } }
    (s.countOutcome outcome).writePlan y outcome epoch unchecked e
  else
    let s := s.modPlanner fun p => { p with mismatch := true, run := 0, keep := 0, prev := none }
    s.report 0x420 3 (request := some (4, s.planner.level))

/-- The cheapest entry leaves the queue (R233). -/
def State.extractMin (s : State) : Option (Published × State) :=
  match s.planner.queue with
  | [] => none
  | f :: l => some (⟨0, f.key, f.index, f.base, f.slot, f.lane⟩, s.modPlanner fun p => { p with queue := l })

/-- A re-check (R234), on the lowest lane in service: its verdict, with the candidate that now relies on that lane. -/
def State.recheck (s : State) (b : Nat) (e : Published) : Bool × Published × State :=
  let e := { e with lane := ((List.range 64).find? s.laneUp).getD 0 }
  let (free, s) := (s.count .PLAN_STAT_COUNT 7).checkStored b e
  (free, e, s)

/-- The re-check loop (R234); the fuel is the number of re-checks that the time to the end of the cycle allows. -/
def recheckLoop (y : PlanCycle) (b epoch unchecked : Nat) (agrees : Bool) : Nat → State → State
  | 0, s => s.noPath y unchecked
  | n + 1, s =>
    match s.extractMin with
    | none => s.noPath y unchecked
    | some (e, s) =>
      let (free, e, s) := s.recheck b e
      if free then s.publish y b 1 epoch unchecked agrees e
      else recheckLoop y b epoch unchecked agrees n (s.report 0x413 0)

/-- The re-checks that fit before the cycle ends: at 700 ns at most each, at least this many, and as many more as they take
less (R234): a free value. -/
def State.recheckRoom (s : State) (y : PlanCycle) : Nat × State :=
  let (more, s) := s.free 16
  ((y.start + s.planPeriod - s.now) / 700 + more, s)

/-- What time leaves when nothing survived (R234): the plan of the previous cycle kept, or no path. -/
def State.keepOrNone (s : State) (y : PlanCycle) (b epoch unchecked : Nat) (agrees : Bool) : State :=
  match s.planner.prev with
  | some e =>
    if unchecked ≠ 0 ∧ e.cycle + 1 = y.number ∧ s.planner.keep < s.fld .PLAN_CFG_KEEP_LIMIT then
      let (free, e, s) := s.recheck b e
      if free then (s.publish y b 2 epoch unchecked agrees e).report 0x411 1 else s.noPath y unchecked
    else s.noPath y unchecked
  | none => s.noPath y unchecked

/-- The buffer of the epoch at selection (R219): STANDBY if its build completed before the selection instant. -/
def State.selectionBuffer (s : State) (y : PlanCycle) : Option Nat :=
  match s.planner.inState 2 with
  | some b => if s.planner.built.getD b 0 < s.selectAt y then some b else s.planner.inState 3
  | none => s.planner.inState 3

/-- PLAN_SELECTION (R234 to R240): at the selection instant checking stops, and one plan is published or none. -/
def execPlanSelection (finalAgrees : Bool) (s : State) : Out :=
  match s.planner.cycle with
  | none => .next s
  | some y =>
    if y.selected || !s.planning || decide (s.now < s.selectAt y) then .next s
    else
      let unchecked := s.planner.waiting.length + (s.planner.lanes.filter Option.isSome).length
      let y := { y with selected := true }
      let up := s.lanesUp
      let s := s.modPlanner fun p => { p with cycle := some y, waiting := [], lanes := List.replicate 64 none }
      let s := s.count .PLAN_STAT_COUNT 6 0 unchecked
      match s.selectionBuffer y with
      | none => .next (s.noPath y unchecked)
      | some b =>
        if y.stale || decide (up < 2) then .next (s.noPath y unchecked)
        else
          let epoch := s.planner.epochs.getD b 0
          let s := if unchecked = 0 then s else (s.tally 0x06 0).report 0x410 1
          let s := if epoch = y.epoch then s else s.tally 0x0B 0
          if s.planner.queue.isEmpty then .next (s.keepOrNone y b epoch unchecked finalAgrees)
          else if epoch = y.epoch then
            match s.extractMin with
            | some (e, s) => .next (s.publish y b 0 epoch unchecked finalAgrees e)
            | none => .next s
          else
            let (n, s) := s.recheckRoom y
            .next (recheckLoop y b epoch unchecked finalAgrees n s)

/-! ## Drive and restarts -/

/-- On entry to Drive the planning source has no request, and cycles start with the next one (R213, R520). -/
def State.planDrive (s : State) : State :=
  (s.modPlanner fun p => { p with d4 := false, mismatch := false, run := 0, keep := 0, prev := none }).stopCycles

/-- A main-path start: every lane in service, the D4 request withdrawn (R237, R240). -/
def State.planRestart (s : State) : State :=
  let s := s.modPlanner fun p => { p with out := [], d4 := false, run := 0 }
  s.stopCycles.lower 4 s.planner.level 0

end Sys2Proof.Machine
end

