-- ==== Sys2Proof/Machine/Supervise.lean ====
section
/-!
DEFINITION. Machine/Supervise.lean: the checks that an island runs on a plan record (R362, Table 11.3). The dynamics are
compared exactly; the free-space geometry is computed in fixed point with 704 fraction bits.
-/

namespace Sys2Proof.Machine

/-! ## Dynamics -/

/-- Is |a| · n > b · m for FP32 values a and b? -/
def overLimit (a : FVal) (n : Nat) (b m : Nat) : Bool :=
  let lhs := match a with
    | .fin _ x e => (FVal.fin false x e).mul (FVal.ofInt n 0)
    | .inf _ => FVal.inf false
    | .nan => FVal.nan
  ((f32 b).mul (FVal.ofInt m 0)).lt lhs

/-- Between two consecutive poses: the change of speed and the lateral acceleration within ACC_MAX and LAT_MAX, with the
speed of the earlier pose and the yaw step of R230 (DEDUCED, log 30). -/
def dynamicsOk (accMax latMax : Nat) (a b : Pose) : Bool :=
  let dt := b.t - a.t
  let dv := (f32 (poseSpeed b)).add (f32 (poseSpeed a)).neg
  let lat := (f32 (poseSpeed a)).mul (f32 (yawStep a.yaw b.yaw))
  dt == 0 || (!overLimit dv 1000 accMax dt && !overLimit lat 1000 latMax dt)

/-- The dynamics check of a record (Table 11.3); without a VEHICLE_STATE its speed is not compared. -/
def State.dynamicsPass (s : State) (v : Option VehState) (poses : List Pose) : Bool :=
  let first := match poses.head?, v with
    | some p, some x => !overLimit ((f32 (poseSpeed p)).add (f32 x.speed).neg) 1 s.speedTol 1
    | _, _ => true
  first && (steps poses).all fun x => dynamicsOk s.accMax s.latMax x.1 x.2

/-! ## Free space -/

/-- A finite FP32 pattern in fixed point; anything else is 0. -/
def fix32 (b : Nat) : Int :=
  match f32 b with
  | .fin neg m e => toFix neg m e
  | _ => 0

/-- A pose in the plane, in fixed point. -/
structure Spot where
  x : Int
  y : Int
  yaw : Int

/-- `p` seen from the frame of `o`. -/
def Spot.within (o p : Spot) : Spot :=
  let (c, s) := trigFix o.yaw
  let dx := p.x - o.x
  let dy := p.y - o.y
  ⟨fmul c dx + fmul s dy, fmul c dy - fmul s dx, p.yaw - o.yaw⟩

/-- `p`, given in the frame of `o`, in the frame that `o` is given in. -/
def Spot.outOf (o p : Spot) : Spot :=
  let (c, s) := trigFix o.yaw
  ⟨o.x + fmul c p.x - fmul s p.y, o.y + fmul s p.x + fmul c p.y, o.yaw + p.yaw⟩

/-- Where a vehicle is after `ns` at a constant speed and yaw rate: an arc (DEDUCED, log 30). -/
def travel (speed rate ns : Int) : Spot :=
  let dist := divEven (speed * ns) 1000000000
  let yaw := divEven (rate * ns) 1000000000
  if rate = 0 then ⟨dist, 0, 0⟩
  else
    let (c, s) := trigFix yaw
    let r := speed * one / rate
    ⟨fmul r s, fmul r (one - c), yaw⟩

/-- Does the ego box at a place overlap or touch the cell (ix, iy) of the pilot's grid: 0.5 m cells, 128 to a side, centred on
the reference point? -/
def coversCell (front rear half : Int) (p : Spot) (ix iy : Nat) : Bool :=
  let (c, s) := trigFix p.yaw
  let a := (front + rear) / 2
  let off := (front - rear) / 2
  let dx := ((ix : Int) - 64) * one / 2 + one / 4 - (p.x + fmul off c)
  let dy := ((iy : Int) - 64) * one / 2 + one / 4 - (p.y + fmul off s)
  let q := one / 4
  let abs := fun (i : Int) => if i < 0 then -i else i
  let axis := fun (nx ny : Int) =>
    decide (abs (fmul dx nx + fmul dy ny) ≤
      fmul a (abs (fmul c nx + fmul s ny)) + fmul half (abs (fmul c ny - fmul s nx)) + fmul q (abs nx + abs ny))
  axis one 0 && axis 0 one && axis c s && axis (-s) c

/-- A pose of the record as a place. -/
def poseSpot (p : Pose) : Spot := ⟨fix32 p.x, fix32 p.y, fix32 p.yaw⟩

/-- Does the record leave the free space of the island's latest grid (Table 11.3)? Cell (ix, iy) is byte 128·iy + ix of the
grid (DESIGN CHOICE, log 30). -/
def State.spaceFails (s : State) (x : Island) (r : PlanRecord) : Bool :=
  match x.pilot.out, x.vehicle, r.poses.head? with
  | some o, some v, some p0 =>
    let moved := travel (fix32 v.speed) (fix32 v.yawRate) ((r.base : Int) - o.base)
    let occupied := (List.range 16384).filter fun k => decide (s.occThr ≤ (o.grid.getD k 0).toNat)
    (r.poses.filter fun p => decide (p.t ≤ s.supHorizon)).any fun p =>
      let at_ := moved.outOf ((poseSpot p0).within (poseSpot p))
      occupied.any fun k => coversCell (fix32 s.egoFront) (fix32 s.egoRear) (fix32 s.egoHalf) at_ (k % 128) (k / 128)
  | _, _, _ => false

end Sys2Proof.Machine
end

