-- ==== Sys2Proof/Machine/TimeSync.lean ====
section
/-!
DEFINITION. Machine/TimeSync.lean: the time base and gPTP (06, R186 to R189), and the tick of an idle block.
-/

namespace Sys2Proof.Machine

/-- A time-base condition changed. -/
def State.modTime (s : State) (g : TimeBase → TimeBase) : State := { s with timeBase := g s.timeBase }

/-- Does MAC `n` carry gPTP (TIME_CFG)? -/
def State.gptpOn (s : State) (n : Nat) : Bool :=
  s.domainOn 33 && s.fld .TIME_CFG_GPTP_EN == 1 && bit (s.fld .TIME_CFG_PORT_MASK) n && s.fld .NET_MAC_CFG_ENABLE n == 1

/-- The interval that a Sync at `t` closes, kept within what the device accepts: 31.25 ms to 1 s (06). -/
def syncInterval (last : Option Nat) (t : Nat) : Nat :=
  match last with
  | none => 125000000
  | some l => max 31250000 (min 1000000000 (t - l))

/-- The offset to remove by a step (R188): outside Drive, above 1 µs and not LOCKED, once in an acquisition. -/
def State.mustStep (s : State) (offset : Int) : Bool :=
  !s.inDrive && s.timeBase.state != 2 && !s.timeBase.stepped && decide (1000 < offset.natAbs)

/-- The first time `base` + N × `cycle`, N ≥ 0, at or after `t` (R492). -/
def firstCycle (base cycle t : Nat) : Nat := if t ≤ base then base else base + ceilDiv (t - base) cycle * cycle

/-- The time base stepped to `t`: the operational cycle restarts at the first base time + N × cycle after it, the gates staying
as they are until then; what the transmitter measures in time moves with it (R492). -/
def MacTx.stepTo (m : MacTx) (offset : Int) (t : Nat) : MacTx :=
  let moved := fun (x : Nat) => ((x : Int) - offset).toNat
  let m := { m with busy := moved m.busy, creditAt := m.creditAt.map moved }
  if m.oper = [] then m
  else
    let r := firstCycle m.base m.cycle (t + 1)
    { m with origin := r, entry := m.oper.length, entryEnd := r, cycleEnd := r }

/-- A trigger line after a step of the time base from `a` to `b` (R192): the edges skipped are not generated, and after a backward step
none at or below the last one is. A pulse in progress keeps its width (R190). -/
def Trigger.stepped (t : Trigger) (a b : Nat) : Trigger :=
  let t := { t with pulseEnd := t.pulseEnd.map fun e => e + b - a }
  if a < b then { t with gaps := ((a, b - 1) :: t.gaps).take 8 } else { t with barred := t.lastEdge }

/-- The time base moved back by `offset`, with the trigger lines and the transmitters (R192, R492). -/
def State.moveTime (s : State) (offset : Int) : State :=
  let t := (((s.now : Int) - offset) % (two64 : Int)).toNat
  let lines := s.sensing.triggers.map fun (e : Nat × Trigger) => (e.1, e.2.stepped s.now t)
  let macs := s.macTx.map fun (m : MacTx) => m.stepTo offset t
  { s with now := t, sensing := { s.sensing with triggers := lines }, macTx := macs }

/-- The time base steps by the offset (R188, R192) and logs it. -/
def State.timeStep (s : State) (offset : Int) : State :=
  let s := s.moveTime offset
  let s := s.modTime fun t => { t with stepped := true, slew := 0, good := 0, lastSync := some s.now, lastTaken := some s.now }
  s.report 0x344 0

/-- A Sync that is not a duplicate: the offset and correction are shown, the good Syncs counted, the offset removed by a
step or by slewing, and LOCKED reached at the sixteenth good Sync in a row (Table 6.3, R188). An offset above 1 ms in Drive is logged
once until a Sync shows a smaller one or Drive is left. -/
def State.takeSync (s : State) (offset freqAdj : Int) (seq : Nat) : State :=
  let s := s.modTime fun t => { t with
    interval := syncInterval t.lastTaken s.now, lastSync := some s.now, lastTaken := some s.now, cbSeq := some seq,
    offset := clampInt (-2147483648) 2147483647 offset, freqAdj := clampInt (-25000) 25000 freqAdj,
    good := if offset.natAbs ≤ 100 then min 16 (t.good + 1) else 0 }
  let s := if s.mustStep offset then s.timeStep offset
    else s.modTime fun t => { t with slew := offset }
  let large := s.inDrive && decide (1000000 < offset.natAbs)
  let s := if large && !s.timeBase.largeLogged then s.report 0x343 1 else s
  let s := s.modTime fun t => { t with largeLogged := large }
  if s.timeBase.state ≠ 2 ∧ s.timeBase.good = 16 then
    let s := { s with wear := { s.wear with firstLock := some (s.wear.firstLock.getD s.now) } }
    (s.modTime fun t => { t with state := 2, stepped := false }).report 0x340 0
  else s

/-- Is a Sync with this 802.1CB sequence number one that has come already: not ahead of the last one taken (R187)? The numbers have 16
bits. -/
def State.syncKnown (s : State) (seq : Nat) : Bool :=
  s.fld .TIME_CFG_CB_EN == 1 && match s.timeBase.cbSeq with
  | some n => !(decide (1 ≤ (seq + 65536 - n % 65536) % 65536) && decide ((seq + 65536 - n % 65536) % 65536 < 32768))
  | none => false

/-- GPTP_SYNC_RX (R186, R187, R188): a copy that the other path has brought already only shows that its path is alive. -/
def execGptpSyncRx (mac : Fin 6) (offset freqAdj : Int) (cbSeq : Nat) (s : State) : Out :=
  if s.gptpOn mac then
    if s.syncKnown cbSeq then
      .next (s.modTime fun t => { t with lastSync := some s.now })
    else .next (s.takeSync offset freqAdj cbSeq)
  else .next s

/-- GPTP_PDELAY_REQ_RX: the device answers peer-delay requests (06). -/
def execGptpPdelayReqRx (mac : Fin 6) (s : State) : Out :=
  if s.gptpOn mac then .next (s.modTime fun t => { t with pdelayAnswers := t.pdelayAnswers + 1 }) else .next s

/-- GPTP_PDELAY_RESP_RX: a link-delay measurement (06). -/
def execGptpPdelayRespRx (mac : Fin 6) (delay : Nat) (s : State) : Out :=
  if s.gptpOn mac then .next (s.modTime fun t => { t with delays := setAt t.delays mac delay }) else .next s

/-- The time at which LOCKED ends for want of a valid Sync (Table 6.3). -/
def State.syncDeadline (s : State) : Nat :=
  s.timeBase.lastSync.getD 0 + s.fld .TIME_CFG_SYNC_TIMEOUT * s.timeBase.interval

/-- SYNC_TIMEOUT (Table 6.3): LOCKED with no valid Sync on any path for SYNC_TIMEOUT intervals becomes HOLDOVER. -/
def execSyncTimeout (s : State) : Out :=
  if s.timeBase.state = 2 ∧ s.syncDeadline ≤ s.now then
    .next ((s.modTime fun t => { t with state := 1, holdSince := s.now, good := 0, stepped := false, cbSeq := none }).report 0x341 1)
  else .next s

/-- The holdover error estimate in units of 1/2,000,000 ns: 50 ns + 0.5 ppm of the time in holdover (Table 6.3). -/
def State.holdError (s : State) : Nat := 100000000 + (s.now - s.timeBase.holdSince)

/-- HOLDOVER_LIMIT (Table 6.3): an estimate above HOLD_LIMIT × 100 µs makes the time base FREE, which runs
uncorrected. -/
def execHoldoverLimit (s : State) : Out :=
  if s.timeBase.state = 1 ∧ s.fld .TIME_CFG_HOLD_LIMIT * 100000 * 2000000 < s.holdError then
    .next ((s.modTime fun t => { t with state := 0, good := 0, freqAdj := 0, slew := 0 }).report 0x342 1)
  else .next s

/-! ## The tick -/

/-- The trigger outputs of an island at clock value `t` (R190, R355): phase 0, period PILOT_PERIOD; the outputs are driven once its pilot runs
(log 113). -/
def Island.pulse (x : Island) (period t : Nat) : Island :=
  let driven := x.trig.driven || x.pilot.running
  let ended := x.trig.pulseEnd.any fun e => decide (e ≤ t)
  let trig : Trigger := { x.trig with driven := driven, pulseEnd := if ended then none else x.trig.pulseEnd }
  let barred := trig.barred.any fun k => decide (t / period ≤ k)
  if x.pilot.running && t % period == 0 && !barred then
    { x with trig := { trig with lastEdge := some (t / period), timing := (period, 0), pulseEnd := some (t + Config.islandPulse) } }
  else { x with trig := trig }

/-- One nanosecond of an island clock (R355), which counts while the island has its supply. -/
def Island.tick (period : Nat) (x : Island) : Island :=
  if x.supplyOk then Island.pulse { x with clock := (x.clock + 1) % two64 } period ((x.clock + 1) % two64) else x

/-- The offset left to slew after the nanosecond `t`: ±100 ppm is 1 ns in 10,000 (R188). -/
def slewOf (t : Nat) (i : Int) : Int :=
  if t % 10000 = 9999 then (if 0 < i then i - 1 else if i < 0 then i + 1 else 0) else i

/-- What an idle block does in a step (DESIGN CHOICE, log 1): the time base, while the always-on domain has its supply (R425, R428), and
the island clocks count one nanosecond, a slew goes on, and lowerings deferred past their cycle take effect (R209). -/
def State.tick (s : State) : State :=
  let s := if s.domainOn 38 then
      State.modTime { s with now := (s.now + 1) % two64 } fun t => { t with slew := slewOf ((s.now + 1) % two64) t.slew }
    else s
  let p := s.setting 0 1 20 * 1000000
  let s := { s with safety := { s.safety with wha := s.safety.wha.tick p, whb := s.safety.whb.tick p } }
  s.lowerDeferred

end Sys2Proof.Machine
end

