-- ==== Sys2Proof/Machine/Islands.lean ====
section
/-!
DEFINITION. Machine/Islands.lean: the Weighhouse islands (R354 to R368): their clocks and heartbeats, loss of an island and
transfer of command, the fallback pilot, supervision of the main path and hand-back.
-/

namespace Sys2Proof.Machine

/-- An error record that island `i` makes; UNSEQUENCED while the hub die is unreachable for it (R375). -/
def State.islandReport (s : State) (i code sev : Nat) (request : Option (Nat × Nat) := none) : State :=
  s.reportWith code sev (7 + i) none none request false (s.island i).hubLost

/-- Is the purl link of island `i` in service (R272)? -/
def State.islandLink (s : State) (i : Nat) : Bool := s.memSys.linkUp.getD (12 + i) false

/-! ## Pilots (R358 to R360) -/

/-- The edge after time `t` of an island's trigger line with period PILOT_PERIOD and phase 0 (R355; DEDUCED, log 31). -/
def State.edgeAfter (s : State) (t : Nat) : Nat := ceilDiv t s.pilotPeriod

/-- A working island starts its pilot (R360). -/
def State.startPilot (s : State) (i : Nat) : State :=
  let x := s.island i
  if !x.alive || !x.accelOk || x.pilot.running || s.boot.config.isEmpty then s
  else
    let n := s.edgeAfter x.clock
    s.modIsland i fun x => { x with pilot := { Pilot.zero with running := true, since := x.clock, next := n } }

/-- A pilot stops. -/
def State.stopPilot (s : State) (i : Nat) : State := s.modIsland i fun x => { x with pilot := Pilot.zero }

/-- Both pilots. -/
def State.startPilots (s : State) : State := (s.startPilot 0).startPilot 1
def State.stopPilots (s : State) : State := (s.stopPilot 0).stopPilot 1

/-- The pilot source asks for D4 while PILOT_INPUT_LOST stands on the commanding island (R359, Table 6.8). -/
def State.judgePilot (s : State) : State :=
  match s.commanding with
  | some i =>
    if (s.island i).pilot.inputLost then (if s.degrade.req.getD 8 0 < 4 then s.request 8 4 0 0x850 else s) else s.withdraw 8 0
  | none => s

/-- Three published cycles on each island that is alive (R360). -/
def State.pilotsReady (s : State) : Bool :=
  [0, 1].all fun i => !(s.island i).alive || !(s.island i).accelOk || decide (3 ≤ (s.island i).pilot.published)

/-! ## Command (R363, R368, Table 11.5) -/

/-- The event-arbiter number of the newest record under way with a code, 0 where there is none (R210). -/
def State.numberOf (s : State) (code : Nat) : Nat :=
  ((s.safety.errq.inFlight.reverse.find? (·.code == code)).map (·.seq)).getD 0

/-- Neither island has a working accelerator: the commanding island asks for D4 (Table 12.3). -/
def State.accelCheck (s : State) (code : Nat) : State :=
  if [0, 1].any fun i => (s.island i).alive && (s.island i).accelOk then s
  else if s.commanding.isSome ∧ s.degrade.req.getD 10 0 < 4 then s.request 10 4 (s.numberOf code) code else s

/-- Island `i` takes command (Table 11.5): the sequence number goes up, FALLBACK_A and FALLBACK_B change places, MAIN and
NONE stay. -/
def State.takeCommand (s : State) (i code : Nat) : State :=
  let a := s.safety.authority
  let s := { s with safety := { s.safety with commander := i + 1 } }
  let s := s.newAuthority (if 2 ≤ a then fallbackOf i else a) code s.now
  (s.judgePilot).accelCheck code

/-- Island `i` no longer commands: command passes to its peer if that is alive. -/
def State.passCommand (s : State) (i code : Nat) : State :=
  if s.commanding = some i then
    if (s.island (1 - i)).alive then s.takeCommand (1 - i) code
    else { s with safety := { s.safety with commander := 0 } }
  else s

/-- A reset of WHA closes scan and debug (R404). -/
def State.shutScan (s : State) (i : Nat) : State :=
  if i = 0 ∧ s.fld .SEC_SCAN_STATUS_CLEARED = 1 then
    let s := s.setFld .SEC_SCAN_STATUS_CLEARED 0
    { s with boot := { s.boot with scope := 0, jtag := if 4 ≤ s.boot.jtag then 0 else s.boot.jtag } }
  else s

/-- Island `i` goes silent and is held in reset: its pilot stops, its trigger outputs float and its CAN queues are gone (R354, R356,
R404). -/
def State.islandDown (s : State) (i : Nat) : State :=
  let s := (s.modIsland i fun x => { x with alive := false, aligned := false, relay := [], trig := Trigger.zero }).stopPilot i
  let s := s.shutScan i
  let s := { s with safety := { s.safety with
    canTx := s.safety.canTx.mapIdx fun c q => if (controllersOf (i + 1)).contains c then [] else q } }
  if s.commanding = some i ∧ !(s.island (1 - i)).alive then { s with safety := { s.safety with commander := 0 } } else s

/-- Does the pilot run in a sequence that leads into Drive: Day-open, or a boot from its main-path start, unless that leads into Night
Market (R360)? -/
def State.leadsToDrive (s : State) : Bool :=
  match s.transition with
  | .dayOpen .. => true
  | .boot night => !night && s.boot.stage == 4
  | _ => false

/-- An island runs its firmware again (R360, R363, R368, R505): in Drive the pilot of WHB runs and a WHA that returns supervises only; in a
sequence that leads into Drive either pilot runs. The first island that runs commands. -/
def State.islandUp (s : State) (i : Nat) : State :=
  let s := s.modIsland i fun x =>
    { Island.zero with supplyOk := x.supplyOk, accelOk := x.accelOk, alive := true, clock := x.clock, lastCross := x.clock,
                       lastHub := x.clock, lastHubHb := x.clock, upAt := x.clock }
  let s := if s.safety.commander = 0 then { s with safety := { s.safety with commander := i + 1 } } else s
  if (s.inDrive && i == 1) || s.leadsToDrive then s.startPilot i else s

/-- ISLAND_SUPPLY_FAULT (R354). -/
def execIslandSupplyFault (island : Fin 2) (s : State) : Out :=
  let i := island.val
  let s := (s.modIsland i fun x => { x with supplyOk := false }).islandDown i
  .next (if (s.island (1 - i)).alive then s.islandReport (1 - i) 0x813 2 else s)

/-- ISLAND_SUPPLY_RESTORED (R354, R368, R404): in a device that runs, the island starts again; WHA starts the device otherwise. A
WHA whose VIN_WHA was removed finds its PUF again. -/
def execIslandSupplyRestored (island : Fin 2) (s : State) : Out :=
  let i := island.val
  if (s.island i).supplyOk then .next s
  else
    let s := s.modIsland i fun x => { x with supplyOk := true }
    let s := if i = 0 then { s with boot := { s.boot with puf := s.boot.puf || s.boot.whaCycled, whaCycled := false } } else s
    .next (if (s.island (1 - i)).alive || s.boot.hub then s.islandUp i else s)

/-- The island clock set to `t`: its trigger outputs generate no skipped edge and none twice (R192, R355). -/
def Island.alignTo (x : Island) (t : Nat) : Island :=
  { x with clock := t, aligned := true, holdover := 0, trig := x.trig.stepped x.clock t }

/-- gPTP time on an island's own MAC: what the time base shows while it is LOCKED, and a free value otherwise (log 113). -/
def State.gptpTime (s : State) : Nat × State := if s.timeBase.state = 2 then (s.now, s) else s.free 64

/-- ISLAND_CLOCK_ALIGN (R355): to the time base while the hub die is reachable; otherwise by 802.1AS on its own MAC, or in
holdover. -/
def execIslandClockAlign (island : Fin 2) (s : State) : Out :=
  let i := island.val
  let x := s.island i
  if !x.alive then .next s
  else if s.boot.hub && s.islandLink i && !x.hubLost then
    .next (s.modIsland i fun x => x.alignTo s.now)
  else if bit (s.setting 23 1 0) i then
    let (t, s) := s.gptpTime
    .next (s.modIsland i fun x => x.alignTo t)
  else .next (s.modIsland i fun x => { x with aligned := false, holdover := x.holdover + 1 })

/-- CROSS_HEARTBEAT (R356): what an island receives of its peer on the cross link and through the hub die. -/
def execCrossHeartbeat (island : Fin 2) (cross hub : Bool) (s : State) : Out :=
  let i := island.val
  if !(s.island i).alive || !(s.island (1 - i)).alive then .next s
  else
    let hub := hub && s.boot.hub && s.islandLink 0 && s.islandLink 1
    .next (s.modIsland i fun x =>
      { x with lastCross := if cross then x.clock else x.lastCross, lastHub := if hub then x.clock else x.lastHub,
               peerLost := x.peerLost && !(cross || hub), pathLost := x.pathLost && !(cross && hub) })

/-- CROSS_HB_TIMEOUT (R356): missing on both paths the peer is lost, on one path the path; a lost commander is replaced. -/
def execCrossHbTimeout (island : Fin 2) (s : State) : Out :=
  let i := island.val
  let x := s.island i
  let late := fun (t : Nat) => decide (t + s.crossHbTimeout ≤ x.clock)
  if !x.alive then .next s
  else if late x.lastCross && late x.lastHub then
    if x.peerLost then .next s
    else
      let s := (s.modIsland i fun x => { x with peerLost := true }).islandReport i 0x811 2
      .next (if s.commanding = some (1 - i) then s.takeCommand i 0x811 else s)
  else if late x.lastCross || late x.lastHub then
    if x.pathLost then .next s
    else .next ((s.modIsland i fun x => { x with pathLost := true }).islandReport i 0x812 1)
  else .next s

/-- LOCKSTEP_MISMATCH (R356, R502): the fail signal, recessive CAN transmitters, and reset. -/
def execLockstepMismatch (island : Fin 2) (s : State) : Out :=
  let i := island.val
  if (s.island i).alive then .next ((s.modIsland i fun x => { x with failSignal := true }).islandDown i) else .next s

/-- PEER_FAIL_SIGNAL (R356, Table 11.5): the island sees its peer's fail signal. -/
def execPeerFailSignal (island : Fin 2) (s : State) : Out :=
  let i := island.val
  let x := s.island i
  if !x.alive || x.peerLost || !(s.island (1 - i)).failSignal then .next s
  else
    let s := (s.modIsland i fun x => { x with peerLost := true }).islandReport i 0x810 2
    .next (if s.commanding = some (1 - i) ∨ (s.commanding = none ∧ s.inDrive) then s.takeCommand i 0x810 else s)

/-- An island's accelerator stops: it serves as supervisor only, and command passes to a peer with one (Table 12.3, R426). -/
def State.accelStop (s : State) (i code : Nat) : State :=
  let s := (s.modIsland i fun x => { x with accelOk := false }).stopPilot i
  let y := s.island (1 - i)
  let s := if s.commanding = some i ∧ y.alive ∧ y.accelOk then s.takeCommand (1 - i) code else s
  s.accelCheck code

/-- ISLAND_ACCELERATOR_THERMAL_STOP (R426). -/
def execIslandAcceleratorThermalStop (island : Fin 2) (s : State) : Out := .next (s.accelStop island 0)

/-! ## The fallback pilot (R358, R359) -/

/-- The pilot of an island changed. -/
def State.modPilot (s : State) (i : Nat) (g : Pilot → Pilot) : State :=
  s.modIsland i fun x => { x with pilot := g x.pilot }

/-- ISLAND_SENSOR_FRAME (R358): the input of a cycle not yet begun. -/
def execIslandSensorFrame (island : Fin 2) (input : Fin 3) (edge : Nat) (s : State) : Out :=
  if (s.island island).pilot.running then
    .next (s.modPilot island fun p =>
      if edge < p.next then p else { p with inputs := setAt p.inputs input (edge :: (p.inputs.getD input []).erase edge) })
  else .next s

/-- Has VEHICLE_STATE been missing for VS_TIMEOUT, counted from the last one or from the start of the pilot (R359)? -/
def State.vehicleLate (s : State) (x : Island) : Bool :=
  let last := match x.vehicle with
    | some v => max v.time x.pilot.since
    | none => x.pilot.since
  decide (last + s.vsTimeout ≤ x.clock)

/-- PILOT_INPUT_LOST is logged; the commanding island asks for D4 (R359). -/
def State.pilotLost (s : State) (i : Nat) : State :=
  if (s.island i).pilot.inputLost then s.modPilot i fun p => { p with good := 0 }
  else
    let s := s.modPilot i fun p => { p with inputLost := true, good := 0 }
    s.islandReport i 0x850 2 (if s.commanding = some i then some (8, 4) else none)

/-- PILOT_CYCLE_START (R358, R359): when every input of the next edge is complete, or one PILOT_PERIOD after it. -/
def execPilotCycleStart (island : Fin 2) (s : State) : Out :=
  let i := island.val
  let x := s.island i
  let p := x.pilot
  let have_ := (List.range 3).map fun k => (p.inputs.getD k []).contains p.next
  if !p.running || !(have_.all id || decide ((p.next + 1) * s.pilotPeriod ≤ x.clock)) then .next s
  else
    let late := s.vehicleLate x
    let missing := have_.zipWith (fun ok m => if ok then 0 else m + 1) p.missing
    let c : PilotCycle := ⟨p.next, !have_.all id, have_.all id && !late⟩
    let s := s.modPilot i fun p =>
      { p with next := p.next + 1, inputs := p.inputs.map fun l => l.filter (p.next < ·), work := p.work ++ [c],
               missing := missing }
    .next (if late || missing.any (3 ≤ ·) then s.pilotLost i else s)

/-- A cycle with full inputs that publishes counts toward the 25 that end PILOT_INPUT_LOST (R359). -/
def State.pilotGood (s : State) (i : Nat) (full : Bool) : State :=
  let s := s.modPilot i fun p => { p with overruns := 0, good := if full then p.good + 1 else 0 }
  let p := (s.island i).pilot
  if p.inputLost ∧ 25 ≤ p.good then (s.modPilot i fun p => { p with inputLost := false }).judgePilot else s

/-- PILOT_PUBLISH (R358): the oldest cycle in work, by its deadline; TRAJ in Drive. -/
def execPilotPublish (island : Fin 2) (cont stop : List Pose) (grid : List Byte) (s : State) : Out :=
  let i := island.val
  let x := s.island i
  match x.pilot.work with
  | [] => .next s
  | c :: l =>
    if (c.edge + 2) * s.pilotPeriod < x.clock then .next s
    else
      let out : PilotOut := ⟨c.edge, c.edge * s.pilotPeriod, cont, stop, grid, c.degraded⟩
      let s := s.modPilot i fun p => { p with work := l, published := p.published + 1, out := some out }
      .next ((s.islandTraj i).pilotGood i c.full)

/-- PILOT_DEADLINE (R359): a cycle that did not publish in time is discarded. -/
def execPilotDeadline (island : Fin 2) (s : State) : Out :=
  let i := island.val
  let x := s.island i
  match x.pilot.work with
  | [] => .next s
  | c :: l =>
    if x.clock < (c.edge + 2) * s.pilotPeriod then .next s
    else
      let s := s.modPilot i fun p => { p with work := l, overruns := p.overruns + 1, good := 0 }
      let s := s.islandReport i 0x851 2
      .next (if 2 ≤ (s.island i).pilot.overruns then s.pilotLost i else s)

/-! ## Supervision (R361, R362, Table 11.3) -/

/-- HUB_HEARTBEAT (R361). -/
def execHubHeartbeat (s : State) : Out :=
  if !s.boot.hub || !s.domainOn 30 then .next s
  else
    let s := { s with safety := { s.safety with heartbeats := s.safety.heartbeats + 1 } }
    .next ([0, 1].foldl (init := s) fun s i =>
      if (s.island i).alive && s.islandLink i then s.modIsland i fun x => { x with lastHubHb := x.clock, hubLost := false }
      else s)

/-- HUB_HEARTBEAT_LOST (R361): no heartbeat for HUB_HB_TIMEOUT, or a purl link that is down. -/
def execHubHeartbeatLost (island : Fin 2) (s : State) : Out :=
  let i := island.val
  let x := s.island i
  if !x.alive || x.hubLost || !(decide (x.lastHubHb + s.hubHbTimeout ≤ x.clock) || !s.islandLink i) then .next s
  else .next ((s.modIsland i fun x => { x with hubLost := true }).islandReport i 0x820 3)

/-- Is a severity-3 record pending on the islands? -/
def State.sev3Pending (s : State) : Bool :=
  (s.safety.errq.queue ++ s.safety.errq.handling).any fun r => r.sev == 3

/-- Hand-back (R367): authority returns to MAIN at a record that meets the three conditions; the fallback holds it during a restart, and
from the request of one (R372). -/
def State.tryHandback (s : State) : State :=
  if s.inDrive && decide (2 ≤ s.safety.authority) && s.safety.restart.state != 1 && !s.safety.restart.requested && decide (maxReq s.degrade.req < 3) &&
      decide (s.handbackCycles ≤ s.safety.handback.length) && !s.sev3Pending then
    (s.setAuthority 1 0 s.now).heartbeat
  else s

/-- SUPERVISE_DISAGREE, once for a record whichever island finds it (log 30); the record, and those before it, no longer count toward
hand-back (R367). -/
def State.disagree (s : State) (i seq : Nat) : State :=
  let s := { s with safety := { s.safety with handback := s.safety.handback.takeWhile (· != seq) } }
  if s.safety.disagreed = some seq then s
  else ({ s with safety := { s.safety with disagreed := some seq } }).islandReport i 0x822 3

/-- The commanding island counts the records that meet R367. -/
def State.countRecord (s : State) (seq : Nat) (good : Bool) : State :=
  { s with safety := { s.safety with handback := if good then (seq :: s.safety.handback).take 25 else [] } }

/-- PLAN_RECORD_RELAY (R362, R367): the oldest plan record not yet relayed reaches an island, which checks it in Drive, but not during a
main-path restart. -/
def execPlanRecordRelay (island : Fin 2) (s : State) : Out :=
  let i := island.val
  let x := s.island i
  match x.relay with
  | [] => .next s
  | r :: l =>
    if !x.alive || !s.boot.hub || !s.islandLink i then .next s
    else
      let s := s.modIsland i fun x => { x with lastRecord := some (r.seq, r.cycle), relay := l }
      let run := s.inDrive && s.safety.restart.state != 1
      let path := run && r.outcome != 3
      let dyn := !path || s.dynamicsPass x.vehicle r.poses
      let space := path && s.spaceFails x r
      let ok := dyn && !(space && x.spaceFail)
      let s := if run then s.modIsland i fun x => { x with spaceFail := space } else s
      let s := if ok then s else s.disagree i r.seq
      if s.commanding = some i then
        let late := match s.safety.missed with
          | some n => decide (r.cycle ≤ n)
          | none => false
        .next (s.countRecord r.seq (run && ok && !late && decide (r.outcome ≤ 1) && s.safety.disagreed != some r.seq)).tryHandback
      else .next s

/-- MAIN_PLAN_MISSING (Table 11.3): no record of cycle n by the start of cycle n + 1 + 1 ms; once for a cycle. -/
def execMainPlanMissing (island : Fin 2) (s : State) : Out :=
  let i := island.val
  let x := s.island i
  let n := (((s.now : Int) - 1000000 - (s.fld .PLAN_CYCLE_PHASE_PHASE : Nat)) / (s.planPeriod : Int) - 1).toNat
  let here := match x.lastRecord with
    | some (_, c) => decide (n ≤ c)
    | none => false
  let told := match s.safety.missed with
    | some m => decide (n ≤ m)
    | none => false
  if !x.alive || !s.planning || s.safety.restart.state == 1 || decide (n < s.safety.planFrom) || here || told ||
      decide (s.now < s.cycleStart (n + 1) + 1000000) then .next s
  else
    let s := { s with safety := { s.safety with missed := some n, handback := [] } }
    .next (s.islandReport i 0x821 (if s.safety.authority = 1 then 3 else 2))

/-- AUTHORITY_HEARTBEAT (R365): the commanding island sends the hub die its authority. -/
def execAuthorityHeartbeat (s : State) : Out :=
  match s.commanding with
  | some i => .next (if (s.island i).alive && s.boot.hub && s.islandLink i then s.heartbeat else s)
  | none => .next s

end Sys2Proof.Machine
end

