-- ==== Sys2Proof/Machine/Starts.lean ====
section
/-!
DEFINITION. Machine/Starts.lean: the main-path start (Table 11.6, R53, R54, R273, R397 to R399), which a boot and a main-path
restart share, and the retained programs (R373).
-/

namespace Sys2Proof.Machine

/-! ## Retained programs (R373) -/

/-- The retained copies note which of their programs are started, and how. -/
def State.noteStarted (s : State) : State :=
  let note := fun (r : Retained) => { r with start := (s.program 0 r.slot).bind fun p => p.running }
  { s with fabric := { s.fabric with retained := s.fabric.retained.map note } }

/-- Every started program killed, its START completing with a code (R66, R306). -/
def State.killAll (s : State) (status sev : Nat) : State :=
  s.programs.foldl (fun s p => s.killProgram p.fn p.slot status sev) s

/-- A retained program loaded again from its copy in the retain area (Table 11.6); one that the checks refuse stays absent. -/
def State.reloadOne (s : State) (r : Retained) : State :=
  let c := s.devRead (s.fld .HUB_CFG_RETAIN_BASE_BASE * 4096 + r.offset) r.bytes.length
  match s.checkLoad 0 r.slot c with
  | .error _ => s
  | .ok p => (s.place p).modProgram 0 r.slot fun p => { p with retained := true }

/-- Every retained program loaded again, in slot order. -/
def State.reload (s : State) : State :=
  (s.fabric.retained.mergeSort fun a b => decide (a.slot ≤ b.slot)).foldl State.reloadOne s

/-- A START taken up again with its settings, from the iteration start, with no descriptor (R373); a barrier it waited at has
been given up. -/
def Running.again (r : Running) (next : Nat) : Running :=
  { r with desc := none, left := r.total, entry := 0xFFFFFFFF, barrier := none, next := some next, count := 0, ended := 0,
           failure := none, stopped := false, iters := [], kill := [], skipped := false, final := none, first := none }

/-- A retained program that was started is started again. -/
def State.restartOne (s : State) (r : Retained) : State :=
  match r.start, s.program 0 r.slot with
  | some x, some p =>
    if p.running.isSome then s
    else
      let first := s.firstStart x.startAfter
      let s := s.modProgram 0 r.slot fun p => { p with running := some (x.again first), agreedSinceStart := false }
      let s := s.bookAt p first
      let s := if s.inDrive && p.unprotected then s.report 0x742 2 else s
      s.recheckPairs
  | _, _ => s

/-- Every retained program that was started is started again. -/
def State.startRetained (s : State) : State :=
  let s := s.fabric.retained.foldl State.restartOne s
  { s with fabric := { s.fabric with retained := s.fabric.retained.map fun r => { r with start := none } } }

/-! ## The main-path start -/

/-- A die is present at a start unless it counts as absent (R407), its engines failed (Table 12.3), or fewer than 40 of its tiles are good
(R445). -/
def State.diePresent (s : State) (d : Nat) : Bool :=
  !s.power.absent.contains d && !s.swatch.engines.contains d && decide (40 ≤ (s.goodTiles d).length)

/-- Pairs with a die switched off are split until the next main-path start (R349), with those of `also`. -/
def State.forceSplits (s : State) (also : Nat) : State :=
  let off := fun (k : Nat) => !(s.fabric.dieOn.getD k false && s.fabric.dieOn.getD (k + 3) false)
  let m := also ||| ((List.range 3).map fun k => if off k then 2 ^ k else 0).foldl (· ||| ·) 0
  let s := { s with gauge := { s.gauge with forced := m } }
  let s := s.programs.foldl (fun s p => s.modProgram p.fn p.slot fun p => { p with split := s.splitOf p.fn p.slot }) s
  s.showJoined

/-- Pending repairs of tiles are made (R53, R54), and a new field part is written when there were any. -/
def State.makeRepairs (s : State) : State :=
  if s.fabric.repairs.isEmpty then s
  else (s.fabric.repairs.foldl (fun s x => s.repairTile x.1 x.2) s).writeField

/-- Every target id (Table 12.1). -/
def targetIds : List Nat :=
  List.range 246 ++ (List.range 64).map (256 + ·) ++ (List.range 120).map (320 + ·) ++ [448, 449]

/-- A die switched off at a main-path start as under R54 (Tables 12.3, 12.5). -/
def State.dieOut (s : State) (d : Nat) : State := (s.report 0x150 2 (origin := d + 1)).setDie d false

/-- A full pass begins (R397), with every target to cover: slices that run are given up with it. -/
def State.beginPass (s : State) : State :=
  { s with swatch := { s.swatch with
      running := [], passed := [], fullPass := true, toCover := targetIds, injecting := none } }

/-- The injections of a main-path start begin (R399). -/
def State.beginInjection (s : State) : State :=
  let s := (s.setFld .HUB_CFG_INJECT_STATUS_DONE 0).setFld .HUB_CFG_INJECT_STATUS_FAILED 0
  { s with swatch := { s.swatch with running := [], fullPass := false, injecting := some s.now } }

/-- The counters of the CDn blocks back at 0 (Table 16.3). -/
def State.resetCd (s : State) : State :=
  (List.range 6).foldl (init := s) fun s d =>
    let s := [Fld.CD_RERUN_COUNT_COUNT, .CD_NAN_COUNT_COUNT, .CD_ENG_CENTRE_ONLY_COUNT, .CD_ENG_STEM_CLIP_COUNT,
      .CD_KV_STARVE_COUNT_COUNT, .CD_KV_DROPPED_PAGES_COUNT, .CD_PURL_RETRY_COUNT].foldl (fun s f => s.resetFld f d) s
    (s.resetFld .CD_PURL_RETRY_COUNT d 1).applyMap d

/-- What held until the next main-path start ends: the rail budget (R409), guard bands (R422), unreported injections (R401,
Table 12.5), lanes out of service (R240) and the self-test request. -/
def State.clearStandings (s : State) : State :=
  let agrees := fun (p : DiodePair) => p.together.any fun t => decide (t + 100000000 ≤ s.now)
  let pairs := s.thermal.pairs.map fun p => { p with held := false, suspect := if agrees p then none else p.suspect }
  let s := { s with power := { s.power with rail := none }, thermal := { s.thermal with pairs := pairs } }
  let s := { s with swatch := { s.swatch with suspended := false, unreported := [], badPorts := [], pairHeld := false } }
  (s.withdraw 6 0).planRestart

/-- The compute dies and the links come up afresh (R430, R489): their registers are reset, the tiles that failed are mapped out, and a die
whose ENGINE swatch failed stays off (Table 12.3). -/
def State.raiseFabric (s : State) : State :=
  let f := { s.fabric with
    dieOn := List.replicate 6 false, vregs := [], accs := [], sregs := [], gens := [], watches := [], copied := [],
    outgoing := [] }
  let s := State.settleQuadrants { s with fabric := f }
  let s := { s with memSys := { s.memSys with linkUp := List.replicate 14 true } }
  let s := s.resetCd.clearStandings.makeRepairs
  let failed := s.swatch.engines
  let s := (List.range 6).foldl (fun s d => s.setDie d (s.diePresent d)) s
  failed.foldl State.dieOut { s with power := { s.power with absent := [] }, swatch := { s.swatch with engines := [] } }

/-- The main-path start up to its full pass (Table 11.6): the domains of the compute dies are switched off and on, the links
retrained (R273), repairs made, and the injections begin (R399). -/
def State.startMain (s : State) : State := (s.raiseFabric.forceSplits 0).beginInjection

/-- Links that stay down after the retrain (R273): a hub link switches its die off, and a ring link between dies that are
present is cut. -/
def State.settleLinks (s : State) : State :=
  let s := (List.range 6).foldl (fun s d => if s.purlUp (6 + d) then s else s.setDie d false) s
  let cut := ((List.range 6).map fun n =>
    if !s.purlUp n && (linkDies n).all (fun d => s.fabric.dieOn.getD d false) then 2 ^ n else 0).foldl (· ||| ·) 0
  State.forceSplits { s with fabric := { s.fabric with cut := cut } } s.gauge.forced

/-- The codes of the status and error code tables (R18), as runs of a first code and their number. -/
def codeRuns : List (Nat × Nat) :=
  [(0x002, 4), (0x101, 5), (0x110, 2), (0x130, 1), (0x140, 1), (0x150, 2), (0x201, 3), (0x210, 2), (0x220, 1), (0x2C0, 2),
    (0x301, 3), (0x310, 5), (0x320, 6), (0x330, 1), (0x340, 5), (0x350, 1), (0x360, 1), (0x401, 6), (0x410, 4), (0x420, 3), (0x501, 4),
    (0x510, 4), (0x520, 5), (0x530, 2), (0x541, 2), (0x560, 7), (0x601, 4), (0x606, 1), (0x610, 4), (0x620, 3), (0x630, 4), (0x640, 1)] ++
  [(0x701, 1), (0x710, 2), (0x720, 1), (0x722, 3), (0x730, 1), (0x740, 4), (0x801, 2), (0x810, 4), (0x820, 3), (0x830, 2), (0x840, 5),
    (0x850, 2), (0x860, 2), (0x901, 6), (0x910, 1), (0x920, 2), (0xA01, 1), (0xA10, 6), (0xA20, 6), (0xA30, 3), (0xA40, 2), (0xA50, 3),
    (0xA60, 1), (0xB01, 9), (0xB10, 1), (0xB20, 2), (0xB30, 2), (0xC01, 4), (0xC10, 4), (0xC20, 5), (0xC30, 2)]

/-- Every code that the device may report, in ascending order. -/
def reportCodes : List Nat := codeRuns.flatMap fun r => (List.range r.2).map (r.1 + ·)

/-- The injected record of one path (R400), written unless the injection was not reported. -/
def State.pathRecord (s : State) (row inst code : Nat) : State :=
  if s.swatch.unreported.contains (row, inst) then s else s.reportWith code 0 0 none none none true false

/-- The injected records of the path rows, one per path at severity 0: the paths of the gauge units to the event arbiter
(Table 10.7) carry a mismatch, those of the event arbiter to the island queues (Table 12.5) a record whose code the manual
does not state, a free choice among the codes that the device may report (R18, log 7). -/
def State.pathRecords (s : State) : State :=
  let s := (List.range 3).foldl (fun s k => s.pathRecord 3 (255 + k) 0x720) s
  (List.range 2).foldl (fun s k => let (c, s) := s.free 12; s.pathRecord 13 k (reportCodes.getD (c % reportCodes.length) 0x910)) s

/-- The injections of a main-path start have ended, and the full pass begins (R397, R399): the manual gives no event for it, and the model
takes the first booking of a slice (log 115). -/
def State.endInjection (s : State) : State :=
  if s.swatch.injecting.isNone then s else ((s.setFld .HUB_CFG_INJECT_STATUS_DONE 1).pathRecords).beginPass

/-- The full pass of a main-path start has ended: ALT sections are matched against the links and dies in
service, and retained programs are loaded and started again. -/
def State.resumeMain (s : State) : State :=
  let s := s.settleLinks
  (s.reload).startRetained.recheckPairs

end Sys2Proof.Machine
end

