-- ==== Sys2Proof/Machine/Wear.lean ====
section
/-!
DEFINITION. Machine/Wear.lean: the wear ledger and its records (R434 to R437).
-/

namespace Sys2Proof.Machine

/-- The allowance A(t) in ppm after `t` s of elapsed life (R435), rounded by R84. -/
def allowance (t : Nat) : Nat := min 1000000 (20000 + (divEven (1000000 * t : Nat) (131490 * 3600)).toNat)

/-- Is D ahead of A(t), as an exact comparison (R435)? -/
def aheadOf (consumed t : Nat) : Bool :=
  decide (1000000 < consumed) || decide (20000 * (131490 * 3600) + 1000000 * t < consumed * (131490 * 3600))

/-- The consumed life in ppm that a reading shows (R434), rounded by R84, with the monitor that shows it: 1,000,000 × loss / 0.05, or
1,000,000 × count / end-of-life count. -/
def lifeOf : WearReading → Nat × Nat
  | .ring m loss => (m, (divEven (loss : Nat) 50).toNat)
  | .migration m count => (m, (divEven (1000000 * count : Nat) (max 1 (Config.endOfLife m))).toNat)

/-- The ledger changed. -/
def State.modWear (s : State) (g : Wear → Wear) : State := { s with wear := g s.wear }

/-- PWR_WEAR_STATUS shows the ledger; WEAR_AHEAD stays 1 while the newest record carries NO_HISTORY (R435, R437). -/
def State.showWear (s : State) : State :=
  let w := s.wear
  let ahead := aheadOf w.consumed w.elapsed || w.noHistory
  let s := s.setFld .PWR_WEAR_STATUS_WEAR_AHEAD (if ahead then 1 else 0)
  let s := s.setFld .PWR_WEAR_STATUS_END_OF_LIFE (if 1000000 ≤ w.consumed then 1 else 0)
  (s.setFld .PWR_WEAR_STATUS_ALLOWANCE (allowance w.elapsed)).setFld .PWR_WEAR_STATUS_CONSUMED (min w.consumed 1048575)

/-- A state of the ledger that has begun is logged: ahead of the curve at severity 1, and the end of life once (R435,
R436). -/
def State.logWear (s : State) : State :=
  let ahead := aheadOf s.wear.consumed s.wear.elapsed
  let s := if ahead && !s.wear.ahead then s.report 0xA50 1 else s
  let s := s.modWear fun w => { w with ahead := ahead }
  if 1000000 ≤ s.wear.consumed ∧ !s.wear.ended then (s.modWear fun w => { w with ended := true }).report 0xA51 1 else s

/-- The 64 bytes of a wear record (Table 13.10). -/
def Wear.body (w : Wear) (clean : Bool) (sequence : Nat) : List Byte :=
  leBytes 4 0x52414557 ++ leBytes 2 1 ++ leBytes 2 ((if clean then 1 else 0) + (if w.noHistory then 2 else 0)) ++
    leBytes 8 (w.firstLock.getD 0) ++ leBytes 8 w.elapsed ++ leBytes 4 w.consumed ++ leBytes 4 (w.driveS / 3600) ++
    leBytes 4 (w.nightS / 3600) ++ leBytes 4 w.worst ++ leBytes 8 sequence ++ leBytes 16 0

/-- The flash address of the slot of a wear record (Table 14.2). -/
def wearSlot (sequence : Nat) : Nat := 0x40000 + 2048 * (sequence % 128)

/-- Elapsed life brought up to now (R435): by the gPTP time while LOCKED, otherwise by the whole seconds that the always-on domain has
counted, in Park too. -/
def State.countLife (s : State) : State :=
  let locked := s.timeBase.state == 2
  s.modWear fun w =>
    let more := (s.now - w.upTo) / 1000000000
    let t := match w.firstLock with
      | some f => if locked then (s.now - f) / 1000000000 else w.elapsed + more
      | none => w.elapsed
    let gap := match w.covered with
      | some c => if locked then 23 * ((t - c) / 3600) else 0
      | none => 0
    { w with elapsed := t, upTo := if locked then s.now else w.upTo + more * 1000000000, consumed := w.consumed + gap,
             covered := if locked then none else w.covered }

/-- A signed wear record is written to its slot (R436); without an identity none is (R437, R453). -/
def State.writeWear (s : State) (clean : Bool) : State :=
  match s.boot.seed with
  | none => s
  | some seed =>
    if s.fld .SEC_BOOT_STATUS_IDENTITY_OK = 0 then s
    else
      let n := s.wear.sequence + 1
      let body := s.wear.body clean n
      let s := s.modWear fun w => { w with sequence := n, recorded := w.upTo }
      (s.flashErase (wearSlot n) 2048).flashWrite (wearSlot n) (body ++ Config.falconSign seed body)

/-- The wear record of a Park entry (R436). Whether the flash takes it is a free value (log 84): a record that cannot be written is
logged. -/
def State.parkWear (s : State) : State :=
  let (v, s) := s.countLife.free 1
  if v = 0 ∨ s.boot.seed.isNone ∨ s.fld .SEC_BOOT_STATUS_IDENTITY_OK = 0 then s.writeWear true else s.report 0xA52 1

/-- Is a slot's record one that the ledger may use (R437)? -/
def wearOk (key r : List Byte) : Bool :=
  fieldAt r 0 4 == 0x52414557 && fieldAt r 4 2 == 1 && Config.falconVerify key (slice r 0 64) (slice r 64 1280)

/-- The valid wear record with the highest sequence (R437). -/
def State.newestWear (s : State) (key : List Byte) : Option (List Byte) :=
  ((List.range 128).map fun i => s.flashRead (0x40000 + 2048 * i) 1344).foldl (init := none) fun best r =>
    if wearOk key r then
      match best with
      | none => some r
      | some b => if fieldAt b 40 8 < fieldAt r 40 8 then some r else best
    else best

/-- Was the slot after that of record `n` skipped: it is not erased, and holds no record that the ledger may use (R437)? -/
def State.slotSkipped (s : State) (key : List Byte) (n : Nat) : Bool :=
  let r := s.flashRead (wearSlot (n + 1)) 1344
  !(r.all fun b => b == 0xFF) && !wearOk key r

/-- The ledger at start (R435 to R437): it goes on from the newest valid record, with 23 ppm for the unrecorded time after one
that was not written at a Park entry, and with the time that the always-on domain has counted since that record where it is this ledger's
last; with none it has no history. -/
def State.startWear (s : State) (key : List Byte) : State :=
  match s.newestWear key with
  | none =>
    State.showWear ((s.modWear fun _ => { Wear.zero with noHistory := true, firstLock := s.wear.firstLock, upTo := s.now }).report 0xA52 1)
  | some r =>
    let clean := bit (fieldAt r 6 2) 0
    let w : Wear := {
      firstLock := if fieldAt r 8 8 = 0 then s.wear.firstLock else some (fieldAt r 8 8), elapsed := fieldAt r 16 8,
      consumed := fieldAt r 24 4 + (if clean then 0 else 23), driveS := fieldAt r 28 4 * 3600,
      nightS := fieldAt r 32 4 * 3600, worst := fieldAt r 36 4, sequence := fieldAt r 40 8,
      noHistory := bit (fieldAt r 6 2) 1, ahead := false, ended := decide (1000000 ≤ fieldAt r 24 4),
      upTo := if s.wear.sequence = fieldAt r 40 8 then s.wear.recorded else s.now, recorded := s.wear.recorded,
      covered := if s.slotSkipped key (fieldAt r 40 8) then some (fieldAt r 16 8) else none }
    State.showWear { s with wear := w }

end Sys2Proof.Machine
end

