-- ==== Sys2Proof/Machine/Modes.lean ====
section
/-!
DEFINITION. Machine/Modes.lean: the modes and their transitions (00, 13, 15): entry to and exit from Drive, the Park sequence,
Night-close and Day-open.
-/

namespace Sys2Proof.Machine

/-! ## The vehicle -/

/-- Is an FP32 speed below 0.1 m/s? 0x3DCCCCCC is the largest pattern below 0.1. -/
def slow (p : Nat) : Bool := decide (p ≤ 0x3DCCCCCC) || (decide (0x80000000 ≤ p) && decide (p ≤ 0xFF800000))

/-- The islands' latest VEHICLE_STATE (R429). -/
def State.latestVehicle (s : State) : Option VehState :=
  match s.safety.wha.vehicle, s.safety.whb.vehicle with
  | some a, some b => some (if a.time < b.time then b else a)
  | some a, none => some a
  | none, b => b

/-- Gear park and a speed below 0.1 m/s (R429, R456, R474). -/
def State.parked (s : State) : Bool :=
  match s.latestVehicle with
  | some v => v.gear == 0 && slow v.speed
  | none => false

/-! ## Entry to and exit from Drive (R360, R364, R520) -/

/-- The island that commands on entry to Drive: WHA, unless only WHB is alive or has a working accelerator (R363, R368). -/
def State.driveCommander (s : State) : Nat :=
  let a := s.safety.wha
  let b := s.safety.whb
  if a.alive && (a.accelOk || !(b.alive && b.accelOk)) then 1 else if b.alive then 2 else 0

/-- The step that the power source calls for (R419, R425, Table 6.8). -/
def State.powerStep (s : State) : Nat :=
  if s.thermal.shutdown then 4 else if s.thermal.stop || s.thermal.trip then 3 else 0

/-- The step that each source calls for at the entry to Drive (R520); planning, restart and error call for none. -/
def State.entrySteps (s : State) : List (Nat × Nat) :=
  let lost : Bool := match s.commanding with
    | some i => (s.island i).pilot.inputLost
    | none => false
  let noAccel := !([0, 1].any fun i => (s.island i).alive && (s.island i).accelOk)
  [(0, s.sensingStep), (1, if s.wantsPair then 2 else 0), (2, if s.gaugeState = 0 then 0 else 3), (3, s.powerStep),
   (5, if s.memSys.safetyUnmet then 3 else 0), (6, if s.swatch.unreported.isEmpty then 0 else 3), (8, if lost then 4 else 0),
   (10, if noAccel then 4 else 0)]

/-- A request made at the entry to Drive (R520): logged as a raise from D0 and reported. -/
def State.entryRequest (s : State) (x : Nat × Nat) : State :=
  if x.2 = 0 then s
  else
    let d := { s.degrade with req := setAt s.degrade.req x.1 x.2, step := max s.degrade.step x.2, raisedAt := some s.now }
    let s := { s with degrade := d }
    let s := (s.report 0x350 (stepSev 0 x.2) (some (x.2 + x.1 * 65536)) (some 0)).event 2 0 x.2 0x350 s.now
    if x.2 = 4 ∧ !s.safety.mrm then ({ s with safety := { s.safety with mrm := true } }).event 3 0 1 0x350 s.now else s

/-- The device enters Drive (R360, R364, R473, R520); a D4 that WHB held over a reset of WHA ends (R369, R505). -/
def State.enterDrive (s : State) : State :=
  let s := if s.safety.mrm then s.event 4 1 0 0 s.now else s
  let s := { s with mode := .drive, transition := .none, since := s.now, degrade := Degrade.zero }
  let s := { s with safety := { s.safety with commander := s.driveCommander, handback := [], missed := none, mrm := false } }
  let s := s.setAuthority s.fallbackAuthority 0 s.now
  let s := s.entrySteps.foldl State.entryRequest s
  let s := { s with swatch := { s.swatch with covered := [], late := [], drivenAt := s.now } }
  let s := s.planDrive
  let s := { s with safety := { s.safety with planFrom := s.nextCycle } }
  if s.safety.restart.held then
    State.requestRestart { s with safety := { s.safety with restart := { s.safety.restart with held := false } } }
  else s

/-- The device leaves Drive (R364, R520): no request, so that a D4 ends (R369), authority NONE, no pilot and no plan cycle. -/
def State.leaveDrive (s : State) : State :=
  let cleared := s.safety.mrm
  let s := { s with degrade := Degrade.zero, safety := { s.safety with mrm := false } }
  let s := if cleared then s.event 4 1 0 0 s.now else s
  let s := { s with timeBase := { s.timeBase with largeLogged := false } }
  ((s.setAuthority 0 0 s.now).stopPilots).stopCycles

/-- A mode entry in the device log (Table 14.11, type 8). The manual lays out no item for it: its digest is a free value. -/
def State.logFree (s : State) (kind : Nat) (rom : Bool := false) : State :=
  let (v, s) := s.free 256
  s.measure 0 kind (leBytes 32 v) rom

/-! ## Programs at a mode change -/

/-- The programs of the PF complete their current iteration and start no further one (R429, Table 15.1). -/
def State.drainPf (s : State) : State :=
  (List.range 16).foldl (init := s) fun s slot =>
    (s.modRunning 0 slot fun r => { r with next := none, stopped := true }).settleStart 0 slot

/-- No program of the PF is started, or 50 ms have passed. -/
def State.pfEnded (s : State) : Bool :=
  s.programs.all (fun p => p.fn != 0 || p.running.isNone) || decide (s.since + 50000000 ≤ s.now)

/-- All tile SRAM set to zero (Tables 15.1 and 15.4). -/
def State.scrubTiles (s : State) : State :=
  let tile := fun (a : Nat) => match regionOf a with
    | .tile _ _ => true
    | _ => false
  { s with mem := s.mem.filter (fun p => !tile p.1), fabric := { s.fabric with copied := [] } }

/-- The PF's programs are killed where they still run, and unloaded; tile SRAM is scrubbed (Table 15.1). -/
def State.clearPf (s : State) : State := ((s.killFunction 0 0x120 0).unloadFunction 0).scrubTiles

/-! ## Day-open (R482, R483, Table 15.4) -/

/-- A stall drains for Day-open: DRAIN_REQ is set, and what has not ended at G is killed. -/
def State.drainForDay (s : State) (k : Nat) : State :=
  match s.stall k with
  | .open_ =>
    let s := s.stallEvent k 0
    ((s.holdArea k).modStall k fun x => { x with
      phase := .draining, drainBy := some (s.now + s.fld .HUB_CFG_NM_CFG_DRAIN_GRACE * 1000000) }).drainStall k
  | .opening => (s.holdArea k).setStall k .draining
  | _ => s

/-- The start of Day-open. -/
def State.startDayOpen (s : State) (thenPark : Bool) : State :=
  let s := { s with transition := .dayOpen 0 thenPark false, since := s.now }
  let s := stallIds.foldl State.drainForDay (s.report 0xC11 0)
  s.startPilots

/-- Night-close is given up for Day-open (R4): the driving work ends as in Table 15.1, and Day-open runs at once. DESIGN CHOICE (log
80): the manual does not say which mode the device shows while such a Day-open runs; the model takes Night Market at once. -/
def State.abortNightClose (s : State) (thenPark : Bool) : State :=
  let s := if s.inDrive then s.leaveDrive else s
  State.startDayOpen { s.clearPf with mode := .nightMarket } thenPark

/-- A wake request in Night Market or during Night-close (R4, R482). -/
def State.nightWake (s : State) (thenPark : Bool) : State :=
  match s.transition with
  | .nightClose => s.abortNightClose thenPark
  | .none => if s.mode = .nightMarket then s.startDayOpen thenPark else s
  | _ => s

/-! ## Mode requests (R2 to R4, R429, R474, R482) -/

/-- The Park sequence begins (R429). -/
def State.startPark (s : State) : State := State.drainPf { s with transition := .park, since := s.now }

/-- The first admission condition of Night Market that fails (R474); from Park, only 2 to 4 apply. -/
def State.nightRefused (s : State) (fromPark : Bool) : Option Nat :=
  let r := s.safety.restart
  if !fromPark && !s.parked then some 1
  else if s.fld .PWR_WEAR_STATUS_WEAR_AHEAD = 1 ∨ s.fld .PWR_WEAR_STATUS_END_OF_LIFE = 1 then some 2
  else if s.fld .SEC_BOOT_STATUS_IDENTITY_OK = 0 then some 3
  else if s.fld .SEC_BOOT_STATUS_CONFIG_VALID = 0 then some 4
  else if !fromPark && (r.state == 1 || r.held || r.requested) then some 5 else none

/-- Night-close begins (Table 15.1); retained copies record what is started (R373). -/
def State.startNightClose (s : State) : State :=
  State.drainPf { s.noteStarted with transition := .nightClose, since := s.now }

/-- A mode request evaluated in the mode that the device is in: 0 Park, 1 Drive, 2 Night Market. -/
def State.evalMode (s : State) (m : Nat) : State :=
  if s.mode = .drive ∧ m = 0 then (if s.parked then s.startPark else s.refuse .PWR_MODE_REQ 0x002)
  else if s.mode = .drive ∧ m = 2 then
    match s.nightRefused false with
    | some n => s.refuseAt 0 (Reg.offset .PWR_MODE_REQ 0 0) 0xC01 (some n)
    | none => s.startNightClose
  else if s.mode = .nightMarket ∧ m < 2 then s.startDayOpen (m == 0)
  else s.refuse .PWR_MODE_REQ 0x002

/-- A write of MODE in PWR_MODE_REQ (R4): evaluated now, or once the transition in progress has ended; a wake request during
Night-close ends that. -/
def State.requestMode (s : State) (m : Nat) : State :=
  match s.transition with
  | .none => s.evalMode m
  | .nightClose => if m < 2 then s.abortNightClose (m == 0) else { s with deferred := s.deferred ++ [m] }
  | _ => { s with deferred := s.deferred ++ [m] }

/-- The requests that waited evaluated in their order, each against the mode then reached, until one starts a transition, for whose
end the rest wait (R4). The fuel bounds their number. -/
def settleModes : Nat → State → State
  | 0, s => s
  | n + 1, s => match s.deferred with
    | [] => s
    | m :: l => if s.transition = .none then settleModes n (State.evalMode { s with deferred := l } m) else s

/-- A transition has ended: the requests that waited for it are evaluated (R4). -/
def State.settleMode (s : State) : State := settleModes s.deferred.length s

/-- MODE_REQ_PARK (R429). -/
def execModeReqPark (s : State) : Out := .next (s.requestMode 0)

/-- MODE_REQ_NIGHT_MARKET (R474). -/
def execModeReqNightMarket (s : State) : Out := .next (s.requestMode 2)

/-- MODE_REQ_DRIVE (R482): MODE = 1, or MODE = 0 for Park after Day-open. -/
def execModeReqDrive (thenPark : Bool) (s : State) : Out := .next (s.requestMode (if thenPark then 0 else 1))

/-! ## Night-close and Day-open -/

/-- NIGHT_CLOSE_DONE (R475, Table 15.1). -/
def execNightCloseDone (s : State) : Out :=
  if s.transition ≠ .nightClose ∨ !s.pfEnded then .next s
  else
    let s := s.killFunction 0 0x120 0
    let s := (if s.inDrive then s.leaveDrive else s).clearPf
    let s := ({ s with mode := .nightMarket }).logFree 8
    .next (State.settleMode { s.report 0xC10 0 with transition := .none, since := s.now })

/-- A stall that Day-open closes: killed where it has not drained (Table 15.4), then R466, steps 1 to 3 and 5; until the scrub its region
holds what the destroyed key has encrypted (R469, R471). -/
def State.closeForDay (s : State) (k : Nat) : State :=
  if s.stall k = .closed then s
  else
    let s := if s.drained k then s
      else
        let s := ((s.killFunction k 0x120 0).report 0xC24 1).stallCode k 0xC24
        (s.logStall k 4 []).stallEvent k 3
    ((((s.holdArea k).sealRegion k).clearStall k).modStall k fun x => { x with scrub := true }).shutStall k

/-- Has every stall drained, with no checkpoint left (Table 15.4)? -/
def State.stallsDrained (s : State) : Bool :=
  stallIds.all fun k => s.stall k == .closed || (s.drained k && (s.stallOf k).ckpt.isNone)

/-- DAY_OPEN_STALLS_CLEARED (R483). -/
def execDayOpenStallsCleared (s : State) : Out :=
  match s.transition with
  | .dayOpen 0 p l =>
    if s.stallsDrained || decide (s.since + s.fld .HUB_CFG_NM_CFG_DRAIN_GRACE * 1000000 ≤ s.now) then
      let s := stallIds.foldl State.closeForDay s
      .next { s with transition := .dayOpen 1 p l }
    else .next s
  | _ => .next s

/-- The region of a stall that Day-open closed, scrubbed. -/
def State.scrubRegion (s : State) (k : Nat) : State :=
  if (s.stallOf k).scrub then
    (s.zeroHbm (s.stallBase k) (s.stallSize k)).modStall k fun x => { x with scrub := false, held := none }
  else s

/-- DAY_OPEN_SCRUB_DONE (R483): regions and tile SRAM hold zeros; the full pass begins. -/
def execDayOpenScrubDone (s : State) : Out :=
  match s.transition with
  | .dayOpen 1 p l =>
    let s := (stallIds.foldl State.scrubRegion s).scrubTiles.restore
    .next { s.beginPass with transition := .dayOpen 2 p l }
  | _ => .next s

/-- Everything but the always-on domain is switched off (R428, R429): compute dies, hub domains, islands; what memory held is
gone, and WHA's next power-up finds its PUF again (R404). -/
def State.powerDown (s : State) : State :=
  let s := (List.range 6).foldl (fun s d => s.setDie d false) s
  let s := (s.setFld .PWR_DOMAINS_ON 0x4000000000).stopRings 0
  let s := { s with host := { s.host with linkUp := false, speed := 0, width := 0 } }
  let down := fun (x : Island) => { x with alive := false, aligned := false, pilot := Pilot.zero }
  let f := { s.safety with wha := down s.safety.wha, whb := down s.safety.whb, commander := 0, holds := false }
  { s with safety := f, boot := { s.boot with hub := false, puf := true, stage := 0 }, mem := [] }

/-- The device is in Park with PARK_ACK asserted (R429); the wear record of every Park entry is written first (R436). -/
def State.enterPark (s : State) : State :=
  let s := { s.parkWear.powerDown with transition := .none, wake := { s.wake with ack := true } }
  State.report { s with mode := .park } 0xA40 0

/-- DAY_OPEN_ATTESTED (R483): the mode entry, and the stall logs closed; a mismatch is IMAGE_BAD and ends in Park. -/
def execDayOpenAttested (digestOk : Bool) (s : State) : Out :=
  match s.transition with
  | .dayOpen 3 p l =>
    if digestOk then .next (State.logFree { s with transition := .dayOpen 4 p l } 8)
    else
      let s := (s.report 0xB03 2).setFld .SEC_BOOT_STATUS_LAST_CODE 0xB03
      .next s.stopPilots.enterPark.settleMode
  | _ => .next s

/-- DAY_OPEN_DONE (R373, R482, R483): retained programs are loaded and started again, and the device enters Drive; Park
follows where that was asked for. -/
def execDayOpenDone (s : State) : Out :=
  match s.transition with
  | .dayOpen 4 p _ =>
    if !s.pilotsReady then .next s
    else
      let s := s.reload.startRetained
      let s := stallIds.foldl (fun s k => s.modStall k fun x => { x with log := Log.zero }) s
      let s := s.enterDrive.report 0xC12 0
      .next (if p then s.evalMode 0 else s).settleMode
  | _ => .next s

/-- DAY_OPEN_LATE (R483). -/
def execDayOpenLate (s : State) : Out :=
  match s.transition with
  | .dayOpen r p false =>
    if s.since + 3000000000 ≤ s.now then .next (State.report { s with transition := .dayOpen r p true } 0xC13 2) else .next s
  | _ => .next s

end Sys2Proof.Machine
end

