-- ==== Sys2Proof/Machine/Restart.lean ====
section
/-!
DEFINITION. Machine/Restart.lean: the main-path restart (R372 to R374, Table 11.6).
-/

namespace Sys2Proof.Machine

/-- The restart state changed. -/
def State.modRestart (s : State) (g : Restart → Restart) : State :=
  { s with safety := { s.safety with restart := g s.safety.restart } }

/-- MAIN_RESTART_START (R66, R372, R373, R374): a requested restart begins. Running iterations are killed, the domains are
cycled, and the compute dies start again as in every main-path start. -/
def execMainRestartStart (s : State) : Out :=
  if !s.safety.restart.requested || !s.inDrive || s.mainStarting then .next s
  else
    let s := s.modRestart fun r =>
      { r with requested := false, state := 1, startedAt := s.now, window := s.restartWindow ++ [s.now],
               total := satAdd 65535 r.total 1, reloaded := false, planned := false }
    let s := (s.report 0x840 0).event 5 0 1 0x840 s.now
    let s := s.noteStarted.killAll 0x120 0
    .next (s.unloadFunction 0).startMain

/-- Has every started safety program completed an iteration with gauge agreement (Table 11.6)? -/
def State.safetyAgreed (s : State) : Bool :=
  s.programs.all fun p => !p.safety || p.running.isNone || p.agreedSinceStart

/-- MAIN_RESTART_DONE (R372, Tables 10.4, 6.8): safety programs agree and a plan record has been published. -/
def execMainRestartDone (s : State) : Out :=
  let r := s.safety.restart
  if r.state ≠ 1 ∨ !r.reloaded ∨ !r.planned ∨ !s.safetyAgreed then .next s
  else
    let s := s.modRestart fun r => { r with state := 0, lastDuration := min 4294967295 ((s.now - r.startedAt) / 1000) }
    let s := (s.report 0x841 0).event 6 1 0 0x841 s.now
    let s := if s.gaugeState = 3 then
        ((s.setGauge 0).setFld .HUB_CFG_GAUGE_FIRST_TIME_TIME 0).withdraw 2 0 else s
    let s := { s with thermal := { s.thermal with awaitRestart := false }, safety := { s.safety with planFrom := s.nextCycle } }
    .next ((s.withdraw 7 0).recheckPairs)

/-- MAIN_RESTART_FAIL (R374): not done 1,500 ms after its start; D4 is asked for until the next entry to Drive. -/
def execMainRestartFail (s : State) : Out :=
  let r := s.safety.restart
  if r.state = 1 ∧ r.startedAt + 1500000000 ≤ s.now then
    let s := s.modRestart fun r => { r with state := 2 }
    .next ((s.report 0x842 3 (request := some (9, 4))).event 7 1 2 0x842 s.now)
  else .next s

end Sys2Proof.Machine
end

