-- ==== Sys2Proof/Machine/Messages.lean ====
section
/-!
DEFINITION. Machine/Messages.lean: messages to and from the vehicle controller (R365, R370, R380, R381).
-/

namespace Sys2Proof.Machine

/-! ## Sending -/

/-- Is the latest authority heartbeat that the hub die holds under 2 ms old (R365)? -/
def State.freshView (s : State) : Option (Nat × Nat) :=
  match s.safety.hubView with
  | some (a, q, t) => if s.now < t + 2000000 then some (a, q) else none
  | none => none

/-- HUB_TRAJ_SEND (R365, R371): the hub die queues TRAJ for the latest plan record, once. It is INVALID while D3 or D4 is in
force (DEDUCED, log 32), and in the fallback safe state (R371, R372). -/
def execHubTrajSend (s : State) : Out :=
  match s.safety.lastPlan with
  | none => .next s
  | some r =>
    if !s.boot.hub || !s.inDrive || s.safety.trajSent == some r.seq then .next s
    else
      let s := { s with safety := { s.safety with trajSent := some r.seq } }
      let auth : Bool := match s.freshView with
        | some (a, _) => a == 1
        | none => false
      let (a, q) := match s.safety.hubView with
        | some (a, q, _) => (a, q)
        | none => (0, 0)
      let again := s.safety.restart
      let invalid := decide (3 ≤ s.degrade.step) || again.requested || again.state == 1
      let flags := (if auth then 1 else 0) + (if invalid then 2 else 0)
      .next (s.send 0 a q
        (.traj (if r.outcome = 3 then 3 else 0) flags r.outcome r.epochPublish r.cycle r.base r.seq r.poses))

/-- The alive bits as a sender sees them (Table 11.11): WHA, WHB, hub, cross link. -/
def State.aliveBits (s : State) (sender : Nat) : Nat :=
  let b := fun (x : Bool) => if x then 1 else 0
  if sender = 0 then
    let up := fun (i : Nat) => (s.island i).alive && s.islandLink i
    b (up 0) + 2 * b (up 1) + 4 + 8 * b (up 0 && up 1 && !(s.island 0).pathLost && !(s.island 1).pathLost)
  else
    let i := sender - 1
    let x := s.island i
    let own := 2 ^ i
    let cross := decide (x.clock < x.lastCross + s.crossHbTimeout)
    own + (if x.peerLost then 0 else 2 ^ (1 - i)) + 4 * b (!x.hubLost) + 8 * b cross

/-- The ms between TRAJ messages of the path that an authority names (Table 11.11). -/
def State.trajPeriod (s : State) (a : Nat) : Nat :=
  if a = 1 then s.fld .PLAN_CYCLE_PERIOD / 1000 else if a = 0 then 0 else s.pilotPeriod / 1000000

/-- Has STATUS_PERIOD passed since a sender last queued STATUS, on its clock (Table 11.10)? -/
def State.statusDue (s : State) (k : Nat) : Bool :=
  let clock := if k = 0 then s.now else (s.island (k - 1)).clock
  match if k = 0 then s.safety.statusAt else (s.island (k - 1)).statusAt with
  | some t => decide (t + s.statusPeriod ≤ clock) || decide (clock < t)
  | none => true

/-- The time of a sender's STATUS noted. -/
def State.noteStatus (s : State) (k : Nat) : State :=
  if k = 0 then { s with safety := { s.safety with statusAt := some s.now } }
  else s.modIsland (k - 1) fun x => { x with statusAt := some x.clock }

/-- STATUS_SEND (R357, R380, Table 11.10): every STATUS_PERIOD, in every mode except Park. -/
def execStatusSend (sender : Fin 3) (s : State) : Out :=
  let k := sender.val
  let up := if k = 0 then s.boot.hub else (s.island (k - 1)).alive
  if s.mode = .park ∨ !up ∨ !s.statusDue k then .next s
  else
    let s := s.noteStatus k
    let b := fun (x : Bool) => if x then 1 else 0
    let (a, q) := if k ≠ 0 then (s.safety.authority, s.safety.authSeq) else match s.safety.hubView with
      | some (a, q, _) => (a, q)
      | none => (0, 0)
    let flags := b s.thermal.degraded + 2 * b s.safety.mrm + 4 * b (s.safety.restart.state == 1) + 8 * b s.pair.advisory +
      16 * b (s.timeBase.state == 2)
    let e := s.safety.errq
    let offset : Int := if k = 0 then 0 else (s.now : Int) - ((s.island (k - 1)).clock : Nat)
    .next (s.send k a q (.status s.mode.code (e.queue.length + e.handling.length) s.gaugeState (s.aliveBits k) flags
      s.restartWindow.length (e.lastCode + e.lastSev * 4096) offset (s.trajPeriod a)))

/-! ## Receiving (R381) -/

/-- A bad message is logged at most once per second (R381). -/
def State.rxBad (s : State) (i : Nat) : State :=
  let x := s.island i
  let due : Bool := match x.lastRxBad with
    | some t => decide (t + 1000000000 ≤ x.clock)
    | none => true
  if due then (s.modIsland i fun x => { x with lastRxBad := some x.clock }).islandReport i 0x861 1 else s

/-- Does an island take a message of a received type (0 VEHICLE_STATE, 1 COMMAND), and the state after it was looked at? A copy
of a message already taken is dropped in silence (R381). -/
def State.receive (s : State) (m : CanRx) (kind : Nat) : Bool × State :=
  let i := m.island.val
  let taken := ((s.island i).rxTaken).getD kind []
  let c := m.counter % 65536
  let step := (c + 65536 - taken.headD 0) % 65536
  if !(s.island i).alive || s.safety.canOff.getD (4 + 2 * i + m.bus.val) false then (false, s)
  else if !m.crcOk || !m.lengthOk then (false, s.rxBad i)
  else if taken.isEmpty || (decide (1 ≤ step) && decide (step ≤ 32767)) then
    (true, s.modIsland i fun x => { x with rxTaken := setAt x.rxTaken kind ((c :: taken).take 32768) })
  else if taken.contains c then (false, s)
  else (false, s.rxBad i)

/-- VEHICLE_STATE (R381, R482): taken by an island; a vehicle that is not parked is a wake request in Night Market. -/
def execVehicleState (m : CanRx) (speed yawRate accel gear : Nat) (mrmActive : Bool) (s : State) : Out :=
  let (ok, s) := s.receive m 0
  if !ok then .next s
  else
    let w := fun (x : Nat) => x % 4294967296
    let s := s.modIsland m.island fun x =>
      { x with vehicle := some ⟨w speed, w yawRate, w accel, gear % 4, mrmActive, x.clock⟩ }
    .next (if gear % 4 ≠ 0 ∨ !slow (w speed) then s.nightWake false else s)

/-- Does this package act on a COMMAND that an island took (R370): one for its role, taken by its commanding island, in a
package not strapped SAFE_ALONE? -/
def State.heeds (s : State) (m : CanRx) (role : Bool) : Bool :=
  s.fld .SEC_BOOT_STATUS_SAFE_ALONE == 0 && s.pairRole == (if role then 1 else 0) && s.commanding == some m.island.val

/-- YIELD (R370). -/
def execYield (m : CanRx) (targetRole : Bool) (s : State) : Out :=
  let (ok, s) := s.receive m 1
  if !ok || !s.heeds m targetRole || !s.safety.inCommand then .next s
  else .next ((s.setCommand false).setPair { s.pair with advisory := true })

/-- Does the last view of the peer show it not in command (R370)? -/
def State.peerIdle (s : State) (peerYielded : Bool) : Bool := if s.pairUp then s.pair.peerAuthority == 0 else peerYielded

/-- Is the pilot of the commanding island ready (R360, R370)? -/
def State.pilotReady (s : State) : Bool :=
  match s.commanding with
  | some i => decide (3 ≤ (s.island i).pilot.published)
  | none => false

/-- COMMAND_TAKE (R370): a TAKE that does not meet the conditions is discarded and logged with detail0 0. -/
def execCommandTake (m : CanRx) (targetRole peerYielded : Bool) (s : State) : Out :=
  let (ok, s) := s.receive m 1
  if !ok || !s.heeds m targetRole || s.safety.inCommand then .next s
  else if s.pilotReady && s.peerIdle peerYielded then
    .next ((s.setCommand true).setPair { s.pair with advisory := false })
  else .next (s.report 0x831 0 (some 0))

/-- The unit that owns a CAN controller (R380): 0 the hub die, 1 WHA, 2 WHB. -/
def ownerOf (controller : Nat) : Nat := if controller < 4 then 0 else if controller < 6 then 1 else 2

/-- CAN_BUS_OFF (R381). -/
def execCanBusOff (controller : Fin 8) (s : State) : Out :=
  let c := controller.val
  if s.safety.canOff.getD c false then .next s
  else
    let s := { s with safety := { s.safety with canOff := setAt s.safety.canOff c true } }
    .next (if ownerOf c = 0 then s.report 0x860 2 else s.islandReport (ownerOf c - 1) 0x860 2)

/-- CAN_BUS_OFF_RECOVERY (R381). -/
def execCanBusOffRecovery (controller : Fin 8) (s : State) : Out :=
  .next { s with safety := { s.safety with canOff := setAt s.safety.canOff controller false } }

/-! ## The messages as bytes (Tables 11.9 to 11.11) -/

/-- The size of a message of a kind. -/
def messageSize (kind : Nat) : Nat := if kind = 1 then 1076 else if kind = 2 then 44 else 36

/-- The payload of a message, from offset 16, unpadded. -/
def Payload.bytes : Payload → List Byte
  | .traj kind flags outcome epoch cycle base seq poses =>
    leBytes 1 kind ++ leBytes 1 flags ++ leBytes 2 (outcome % 256) ++ leBytes 4 epoch ++ leBytes 8 cycle ++ leBytes 8 base ++
      leBytes 8 seq ++ poses.flatMap poseBytes
  | .status mode depth gauge alive flags restarts last off period =>
    leBytes 1 mode ++ leBytes 1 depth ++ leBytes 1 gauge ++ leBytes 1 alive ++ leBytes 1 flags ++ leBytes 1 restarts ++
      leBytes 2 last ++ leBytes 8 (unsign 64 off) ++ leBytes 2 period
  | .event ev old new cause time =>
    leBytes 1 ev ++ leBytes 1 old ++ leBytes 2 (new % 256) ++ leBytes 4 (cause % 65536) ++ leBytes 8 time

/-- A message as it goes out: header, payload, reserved zeros and the CRC-32 over all bytes before it (R380). -/
def Message.encode (m : Message) : List Byte :=
  let who := m.sender + (if m.roleB then 4 else 0) + (if m.inCommand then 8 else 0)
  let head := leBytes 1 m.kind ++ leBytes 1 who ++ leBytes 2 m.counter ++ leBytes 2 m.authSeq ++ leBytes 1 m.authority ++
    leBytes 1 m.step ++ leBytes 8 m.time ++ m.body.bytes
  let n := messageSize m.kind - 4
  let body := (head ++ leBytes n 0).take n
  body ++ leBytes 4 (crc32 body)

end Sys2Proof.Machine
end

