-- ==== Sys2Proof/Machine/Coolant.lean ====
section
/-!
DEFINITION. Machine/Coolant.lean: what the power manager measures (R418, R421 to R425): the diode pairs, the coolant inputs with
their substitutes, the dies' replies, and the package budget that follows (R410).
-/

namespace Sys2Proof.Machine

/-- The power manager changed. -/
def State.modPower (s : State) (g : Power → Power) : State := { s with power := g s.power }

/-- Temperature and coolant changed. -/
def State.modThermal (s : State) (g : Thermal → Thermal) : State := { s with thermal := g s.thermal }

/-! ## The dies (R415 to R417) -/

/-- Does die `d` answer budget messages: a compute die that is on, or an island (6, 7) that runs? -/
def State.answers (s : State) (d : Nat) : Bool :=
  if d < 6 then s.fabric.dieOn.getD d false else (s.island (d - 6)).alive

/-- The last reply of a die. -/
def State.replyOf (s : State) (d : Nat) : DieReply := s.power.replies.getD d DieReply.zero

/-- The peak of a compute die at a beat step (Table 13.3), in 0.1 W; 6 W on an island (R416). -/
def peakOf (d step : Nat) : Nat :=
  if 6 ≤ d then 60 else if step = 4 then 420 else if step = 3 then 250 else if step = 2 then 130 else 60

/-- The demand of a die: of its reply, or its peak after three missing or bad ones (R417). -/
def State.dieDemand (s : State) (d : Nat) : Nat :=
  if !s.answers d then 0 else if 3 ≤ (s.replyOf d).missed then peakOf d s.fabric.step else (s.replyOf d).demand

/-- The same at the next lower step. -/
def State.dieLower (s : State) (d : Nat) : Nat :=
  if !s.answers d then 0
  else if 3 ≤ (s.replyOf d).missed then peakOf d (max 1 (s.fabric.step - 1)) else (s.replyOf d).demandLower

/-- A sum over the eight dies that answer. -/
def sumDies (g : Nat → Nat) : Nat := ((List.range 8).map g).foldl (· + ·) 0

/-- Demand (R411), in 0.1 W. -/
def State.demand (s : State) : Nat := sumDies s.dieDemand

/-- Demand at the next lower step. -/
def State.demandLower (s : State) : Nat := sumDies s.dieLower

/-- The measured power of the package: the sum of the replies. -/
def State.measured (s : State) : Nat := sumDies fun d => if s.answers d then (s.replyOf d).measured else 0

/-! ## Diode pairs (R421, R422) -/

/-- The pair `p` as it is kept. -/
def Thermal.pair (t : Thermal) (p : Nat) : DiodePair := t.pairs.getD p ⟨none, none, none, false⟩

/-- A pair changed. -/
def State.modPairOf (s : State) (p : Nat) (g : DiodePair → DiodePair) : State :=
  s.modThermal fun t => { t with pairs := setAt t.pairs p (g (t.pair p)) }

/-- The value of a pair in 1/16 °C (R421, R422): the higher reading; the other channel's plus 5 °C when one is excluded; the
forecast's own estimate plus 10 °C when both are. -/
def Thermal.value (t : Thermal) (p : Nat) : Int :=
  let a := t.readings.getD (2 * p) 0
  let b := t.readings.getD (2 * p + 1) 0
  let x := t.excluded.contains (2 * p)
  let y := t.excluded.contains (2 * p + 1)
  if x && y then Config.hotSpotEstimate p t.readings + 160
  else if x then b + 80 else if y then a + 80 else max a b

/-- What the forecast takes for a pair: with its guard band (R421, R422), and 5 °C more on a die whose replies are lost
(R417). -/
def State.pairHot (s : State) (p : Nat) : Int :=
  let x := s.thermal.pair p
  s.thermal.value p + (if x.suspect.isSome || x.held then 80 else 0) +
    (if p < 48 ∧ 3 ≤ (s.replyOf (p / 8)).missed then 80 else 0)

/-! ## Coolant (R423, R424) -/

/-- A SENT input. -/
def Thermal.input (t : Thermal) (n : Nat) : Sent := t.sent.getD n ⟨none, 0, false⟩

/-- OFFSET + raw × GAIN of an input, `scale` times as large and rounded to the nearest integer; none when a setting is not
finite. -/
def State.sentScaled (s : State) (n scale : Nat) (raw : Nat) : Option Int :=
  let g := f32 (s.fld .PWR_SENT_CFG_GAIN n)
  let o := f32 (s.fld .PWR_SENT_CFG_OFFSET n)
  match ((g.mul (.ofInt raw 0)).add o).mul (.ofInt scale 0) with
  | .fin neg m e => some (roundInt neg m e)
  | _ => none

/-- An input's value, scaled: that of its last valid frame. -/
def State.sentNow (s : State) (n scale : Nat) : Option Int := ((s.thermal.input n).raw).bind (s.sentScaled n scale)

/-- The outlet temperature in 1/16 °C, if its input is not lost. -/
def State.outletOf (s : State) : Option Int := if (s.thermal.input 1).lost then none else s.sentNow 1 16

/-- The inlet temperature in use in 1/16 °C (R424): the outlet less 3.3 K, or 65 °C, while its input is lost. 3.3 K is 52.8
sixteenths: rounded to 53. -/
def State.inletNow (s : State) : Int :=
  if (s.thermal.input 0).lost then
    match s.outletOf with
    | some t => t - 53
    | none => 1040
  else (s.sentNow 0 16).getD 1040

/-- The flow in use in 0.001 L/min (R424): while its input is lost, the measured power over 57.07 W·min/(L·K) and the
temperature difference, or 0.3 L/min. -/
def State.flowNow (s : State) : Int :=
  if (s.thermal.input 2).lost then
    match s.outletOf with
    | some t =>
      if (s.thermal.input 0).lost ∨ t - s.inletNow < 8 then 300
      else divEven ((s.measured * 160000 : Nat) : Int) (5707 * (t - s.inletNow)).toNat
    | none => 300
  else (s.sentNow 2 1000).getD 300

/-! ## Rails (R408, R496) -/

/-- The rail of a board regulator that the configuration record names (Table 14.7): 0 VIN_CORE to 4 VIN_WHB. -/
def State.regulatorRail (s : State) (e : Nat) : Option Nat :=
  let w := s.confField (48 + 4 * e) 4 0
  if bit w 31 then some (bits w 10 8) else none

/-- The regulators of a rail. -/
def State.railRegulators (s : State) (n : Nat) : List Nat := (List.range 8).filter fun e => s.regulatorRail e == some n

/-- Are the readings of a rail current (R496)? -/
def State.railValid (s : State) (n : Nat) : Bool :=
  let l := s.railRegulators n
  !l.isEmpty && l.all fun e => match s.power.answeredAt.getD e none with
    | some t => decide (s.now < t + 5000000)
    | none => false

/-- The last readings of a rail's regulators. -/
def State.railReadings (s : State) (n : Nat) : List PmbusReading :=
  s.power.readings.filter fun r => (s.railRegulators n).contains r.entry.val

/-! ## The package budget (R410, R418) -/

/-- A value `ahead` ms from now by the linear trend of the last second, from its oldest sample to now (R420, log 112). -/
def extend (t0 t : Nat) (v0 v : Int) (ahead : Nat) : Int :=
  if t ≤ t0 then v
  else v + divEven ((v - v0) * (ahead * 1000000 : Nat)) (t - t0)

/-- Flow and inlet `ahead` ms from now. -/
def State.trendAhead (s : State) (ahead : Nat) : Nat × Int :=
  match s.thermal.trend.find? fun x => decide (s.now ≤ x.1 + 1000000000) with
  | some (t, f, i) => ((extend t s.now f s.flowNow ahead).toNat, extend t s.now i s.inletNow ahead)
  | none => (s.flowNow.toNat, s.inletNow)

/-- Table 13.6 at an inlet of 65 °C and of 45 °C: flow in 0.001 L/min, budget in 0.1 W. -/
def steady65 : List (Nat × Nat) :=
  [(300, 1300), (400, 1600), (600, 2100), (800, 2500), (1000, 2800), (1200, 3050), (1600, 3500), (2000, 3800)]
def steady45 : List (Nat × Nat) :=
  [(300, 1700), (400, 2050), (600, 2650), (800, 3100), (1000, 3450), (1200, 3700), (1600, 3800), (2000, 3800)]

/-- A table read at `x`, with linear interpolation between its rows; none below its first row. -/
def interpolate (x : Nat) : List (Nat × Nat) → Option Nat
  | [] => none
  | [(a, v)] => if a ≤ x then some v else none
  | (a, v) :: (b, u) :: l =>
    if x < a then none
    else if x < b then some (divEven (v * (b - x) + u * (x - a) : Nat) (b - a)).toNat
    else interpolate x ((b, u) :: l)

/-- Is every hot spot at a TARGET of 105 °C with the demand split as in Table 1.4, flow and inlet as they were a second ago (Table
13.6)? -/
def State.settled (s : State) : Bool :=
  let d := (List.range 8).map s.dieDemand
  s.fld .PWR_THERM_CFG_TARGET == 105 && ((List.range 60).all fun p => s.pairHot p == 1680) &&
    (s.thermal.trend.all fun x => (x.2.1 : Int) == s.flowNow && x.2.2 == s.inletNow) &&
    ((List.range 6).all fun k => d.getD k 0 == 7 * d.getD 6 0) && d.getD 6 0 == d.getD 7 0

/-- The forecast budget that Table 13.6 states, where it does. -/
def State.steadyBudget (s : State) (flow : Nat) (inlet : Int) : Option Nat :=
  if !s.settled then none
  else if inlet = 1040 then interpolate flow steady65 else if inlet = 720 then interpolate flow steady45 else none

/-- The greatest number up to `n` that passes; 0 if none does. -/
def greatest (ok : Nat → Bool) : Nat → Nat
  | 0 => 0
  | n + 1 => if ok (n + 1) then n + 1 else greatest ok n

/-- The forecast budget in 0.1 W at a flow and an inlet (R418): the largest package power, up to the 380 W that the package sustains (R29),
at which no hot spot is predicted above TARGET; in the steady state what Table 13.6 states. -/
def State.forecastAt (s : State) (flow : Nat) (inlet : Int) : Nat :=
  let x : Config.ForecastInput :=
    { hot := (List.range 60).map s.pairHot ++ s.memSys.hbmStacks.map (·.temp), inlet := inlet,
      outlet := (s.outletOf).getD 0, flow := flow,
      power := (List.range 8).map fun d => ((s.replyOf d).measured, s.dieDemand d, s.dieLower d) }
  match s.steadyBudget flow inlet with
  | some b => b
  | none => greatest (fun p => (List.range 60).all fun k =>
      decide (Config.hotSpotAhead s.boot.header x k p ≤ (s.fld .PWR_THERM_CFG_TARGET * 16 : Nat))) 3800

/-- The forecast budget with what holds `ahead` ms from now (R411, R420), in 0.1 W. -/
def State.forecast (s : State) (ahead : Nat) : Nat := s.forecastAt (s.trendAhead ahead).1 (s.trendAhead ahead).2

/-- The mode cap in 0.1 W. -/
def State.modeCap (s : State) : Nat :=
  match s.mode with
  | .drive => 3800
  | .nightMarket => 3000
  | _ => 0

/-- The limits of the budget with their reasons, lower reasons first: without what a stop or a trip adds. -/
def State.budgetLimits (s : State) (ahead : Nat) : List (Nat × Nat) :=
  let rail := match s.power.rail with
    | some r => [(r, 2)]
    | none => []
  [(s.modeCap, 0), (s.fld .PWR_PKG_LIMIT_LIMIT * 10, 1)] ++ rail ++ [(s.forecast ahead, 3)]

/-- The lowest limit; the first one wins a tie. -/
def lowestLimit : List (Nat × Nat) → Nat × Nat
  | [] => (0, 0)
  | x :: l => l.foldl (fun a b => if b.1 < a.1 then b else a) x

/-- A limit of B that R410 names by its reason without a value: a free value while it stands (log 40). -/
def State.openLimit (s : State) (stands : Bool) (reason : Nat) : List (Nat × Nat) × State :=
  if stands then ([((s.free 16).1, reason)], (s.free 16).2) else ([], s)

/-- B and its reason with what holds `ahead` ms from now (R410). -/
def State.budgetAt (s : State) (ahead : Nat) : (Nat × Nat) × State :=
  let l := s.budgetLimits ahead
  let (stop, s) := s.openLimit (s.thermal.stop && !s.thermal.returned) 4
  let (trip, s) := s.openLimit s.thermal.trip 5
  (lowestLimit (l ++ stop ++ trip), s)

/-- What B would be without a stop or a trip (R419, R427). -/
def State.freeBudget (s : State) : Nat := (lowestLimit (s.budgetLimits 0)).1

/-- The demand with every beat-step shed undone: the Drive demand at 400 MHz (R419, R427). -/
def State.driveDemand (s : State) : Nat :=
  s.demand + (s.power.sheds.map fun x => match x with
    | .step _ saved => saved
    | _ => 0).foldl (· + ·) 0

/-- Does B cover the Drive demand at 400 MHz? -/
def State.covers400 (s : State) : Bool := decide (s.driveDemand ≤ s.freeBudget)

end Sys2Proof.Machine
end

