-- ==== Sys2Proof/Machine/Power.lean ====
section
/-!
DEFINITION. Machine/Power.lean: the power manager (R405 to R427): budgets and shedding, beat steps, IVR faults, budget messages,
diode pairs and trips, the coolant inputs and stops.
-/

namespace Sys2Proof.Machine

/-! ## Domains (R405, R407) -/

/-- Domain `d` of the hub die switched on or off in PWR_DOMAINS. -/
def State.setDomain (s : State) (d : Nat) (on : Bool) : State :=
  let v := s.fld .PWR_DOMAINS_ON
  if bit v d == on then s else s.setFld .PWR_DOMAINS_ON (v ^^^ 2 ^ d)

/-- The hub domains that hub operation needs: 30 to 37, and the pair link. -/
def hubDomains : List Nat := [30, 31, 32, 33, 34, 35, 36, 37, 43]

/-- The uncommitted commands of running iterations on a die fail (R51). -/
def State.failDie (s : State) (d : Nat) : State :=
  s.programs.foldl (init := s) fun s p =>
    match p.running with
    | none => s
    | some r => r.iters.foldl (init := s) fun s it =>
      (List.range p.commands.length).foldl (init := s) fun s k =>
        match s.cmdRun ⟨Fin.ofNat 32 p.fn, Fin.ofNat 16 p.slot, it.number, k⟩ with
        | some (_, _, c, x) =>
          if x.uncommitted && c.tiles.getD d 0 != 0 then
            s.failCommand ⟨Fin.ofNat 32 p.fn, Fin.ofNat 16 p.slot, it.number, k⟩ 0x140
          else s
        | none => s

/-- A compute die is switched off in operation (R407, R425): its commands fail. -/
def State.dropDie (s : State) (d : Nat) : State :=
  if s.fabric.dieOn.getD d false then (s.failDie d).setDie d false else s

/-- A unit of the hub die is lost with its domain (R407): the planner's cycles, the PCI Express link, the pair link. What the
other domains' loss does is the domain's own absence. -/
def State.unitLost (s : State) (d : Nat) : State :=
  let s := s.setDomain d false
  if d = 31 then s.stopCycles
  else if d = 34 then s.dropLink
  else if d = 43 ∧ s.pairUp then s.pairLost else s

/-- An island's supply fails (R354): the island is held in reset, and its peer logs WH_SUPPLY. -/
def State.supplyLost (s : State) (i : Nat) : State :=
  let s := (s.modIsland i fun x => { x with supplyOk := false }).islandDown i
  if (s.island (1 - i)).alive then s.islandReport (1 - i) 0x813 2 else s

/-- IVR_FAULT (R354, R407): domain 38 has no IVR. -/
def execIvrFault (domain : Fin 44) (s : State) : Out :=
  let d := domain.val
  if d = 38 then .next s
  else if d < 30 then
    let die := d / 5
    let s := s.report 0xA24 (s.sev32 true) (some d) (origin := die + 1)
    let s := (s.dropDie die).modPower fun p => { p with absent := p.absent.erase die ++ [die] }
    .next s.requestRestart
  else
    let s := s.report 0xA24 (s.sev32 true) (some d)
    if d = 39 ∨ d = 40 then .next (s.supplyLost 0)
    else if d = 41 ∨ d = 42 then .next (s.supplyLost 1)
    else .next (s.unitLost d)

/-! ## Beat steps (R408, R409, R411) -/

/-- The step that a decided lowering leads to, or the one in force. -/
def State.stepFloor (s : State) : Nat :=
  match s.fabric.pendingStep with
  | some (n, _) => min n s.fabric.step
  | none => s.fabric.step

/-- The step that a raise under way leads to, or the one in force. -/
def State.stepGoal (s : State) : Nat :=
  match s.power.ramp, s.fabric.pendingStep with
  | some n, _ => n
  | none, some (n, _) => n
  | none, none => s.fabric.step

/-- One beat-step action more: its saving is known from the replies at the present step, and is a free value otherwise. -/
def State.pushStep (s : State) (old : Nat) : State :=
  let (v, s) := if old = s.fabric.step then (s.demand - s.demandLower, s) else s.free 16
  s.modPower fun p => { p with sheds := .step old v :: p.sheds }

/-- A raise under way is given up: the step in force stays, and the voltage returns to its nominal value (R408). -/
def State.abandonRaise (s : State) : State :=
  let s := s.modPower fun p => { p with ramp := none, volts := List.replicate 6 (stepVolts s.fabric.step) }
  { s with fabric := { s.fabric with pendingStep := none } }

/-- The step is lowered to `n` (R408): a raise under way is given up, and the change is decided where the step in force is higher. -/
def State.lowerTo (s : State) (n : Nat) : State :=
  let goal := s.stepGoal
  if goal ≤ n then s
  else
    let floor := s.stepFloor
    let s := (List.range (goal - n)).foldl (fun s k => s.pushStep (goal - k)) s
    if s.fabric.step ≤ n then s.abandonRaise
    else
      let s := s.modPower fun p => { p with ramp := none }
      if floor ≤ n ∧ floor < s.fabric.step then s else s.decideStep n

/-- VOLTAGE_RAMP_DONE (R408): every die is at the voltage of the raised step, and its boundary is set. -/
def execVoltageRampDone (s : State) : Out :=
  match s.power.ramp with
  | none => .next s
  | some n => .next ((s.modPower fun p => { p with ramp := none, volts := List.replicate 6 (stepVolts n) }).decideStep n)

/-- PMBUS_TELEMETRY_READ (R408): the readings of the regulators that the configuration record names and that answer; the others
keep their last ones. -/
def execPmbusTelemetryRead (readings : List PmbusReading) (s : State) : Out :=
  if !s.boot.hub then .next s
  else
    let l := readings.filter fun r => r.answered && (s.regulatorRail r.entry).isSome
    let at_ := l.foldl (fun t r => setAt t r.entry.val (some s.now)) s.power.answeredAt
    let kept := s.power.readings.filter fun r => l.all fun x => x.entry != r.entry
    .next (s.modPower fun p => { p with readings := kept ++ l, answeredAt := at_ })

/-- PWR_RAIL_LIMIT (R409). -/
def execPwrRailLimit (s : State) : Out :=
  if !s.boot.hub then .next s
  else
    let s := (s.lowerTo (max 1 (s.stepFloor - 1))).report 0xA23 1
    .next (s.modPower fun p => { p with rail := some (divEven (s.measured * 95 : Nat) 100).toNat })

/-! ## Shedding (R411, R412, R480) -/

/-- A stall that runs and is not shed, the highest first. -/
def State.stallToShed (s : State) : Option Nat :=
  stallIds.reverse.find? fun k => (s.stall k == .open_ || s.stall k == .draining) && !(s.stallOf k).powerShed

/-- A stall's running commands killed for power (R66, R425). -/
def State.killStall (s : State) (k : Nat) : State := s.killFunction k 0xA20 1

/-- A shed action of the fixed order (R411), if one is left. -/
def State.shedPower (s : State) : Option State :=
  let (v, s') := s.free 16
  let push := fun (s : State) (x : Shed) => s.modPower fun p => { p with sheds := x :: p.sheds }
  match s.stallToShed with
  | some k => some (push (((s'.killStall k).modStall k fun x => { x with powerShed := true }).stallEvent k 1) (.stall k v))
  | none =>
    if !s.power.clusterLow then
      some (push (s'.modPower fun p => { p with clusterLow := true }) (.cluster v))
    else match (s.newestFirst fun p => !p.safety && !p.powerShed && p.fn == 0).head? with
      | some p =>
        let s := s'.modProgram p.fn p.slot fun p => { p with powerShed := true }
        let s := s.modRunning p.fn p.slot fun r => { r with next := none, stopped := true, final := some (0xA20, 1) }
        some ((push s (.program p.fn p.slot v)).settleStart p.fn p.slot)
      | none => if 1 < s.stepFloor then some (s.lowerTo (s.stepFloor - 1)) else if 1 < s.stepGoal then some (s.lowerTo 1) else none

/-- The demand that a shed action took away. -/
def Shed.saved : Shed → Nat
  | .stall _ v | .cluster v | .program _ _ v | .step _ v => v

/-- A shed action undone (R412). -/
def State.undoShed (s : State) (x : Shed) : State :=
  match x with
  | .stall k _ => (s.modStall k fun x => { x with powerShed := false }).stallEvent k 4
  | .cluster _ => s.modPower fun p => { p with clusterLow := false }
  | .program fn slot _ => s.modProgram fn slot fun p => { p with powerShed := false }
  | .step n _ => s.modPower fun p => { p with ramp := some n }

/-- Has B covered the last action's undoing for 1 s (R412)? -/
def State.undoDue (s : State) : Bool :=
  match s.power.coveredSince with
  | some t => decide (t + 1000000000 ≤ s.now)
  | none => false

/-- Does an action wait for the end of a coolant stop: beat steps are raised once its requests are withdrawn (R427)? -/
def State.undoWaits (s : State) (x : Shed) : Bool :=
  match x with
  | .step _ _ => s.thermal.stop
  | _ => false

/-- SHED_UNDO (R412): no second raise while one is under way. -/
def execShedUndo (s : State) : Out :=
  match s.power.sheds with
  | [] => .next s
  | x :: l =>
    if !s.undoDue || s.undoWaits x || s.stepGoal != s.stepFloor then .next s
    else .next (((s.modPower fun p => { p with sheds := l, coveredSince := none }).undoShed x).report 0xA21 0)

/-! ## Coolant stops and trips (R419, R425, R427) -/

/-- The stalls' running commands killed and the step at 100 MHz (R419, R425). -/
def State.allStop (s : State) : State := (stallIds.foldl State.killStall s).lowerTo 1

/-- The coolant has stopped (R425), for the first time or once more after its return. -/
def State.coolantStop (s : State) : State :=
  if s.thermal.stop && !s.thermal.returned then s
  else
    let s := s.modThermal fun t => { t with
      stop := true, returned := false, shutdown := false, awaitRestart := false, noFlow := s.now, flowSince := none }
    let s := (s.setFld .PWR_STATUS_FLOW_STOP 1).allStop
    s.report 0xA13 (s.sev32 true) (request := some (3, 3))

/-- The power source's request follows what stands (R419, R427, Table 6.8). -/
def State.settlePower (s : State) : State :=
  if s.powerStep < s.degrade.req.getD 3 0 then s.lower 3 s.powerStep 0 else s

/-- The hub die's remaining units and the always-on domain are switched off (R425): nothing of them runs until a reset, and the time base
stands (log 78). -/
def State.hubOff (s : State) : State :=
  let s := s.dropLink.stopCycles
  let s := s.setFld .PWR_DOMAINS_ON 0
  { s with boot := { s.boot with hub := false } }

/-- Does a pair on the hub die read 115 °C? -/
def State.hubHot (s : State) : Bool := (List.range 12).any fun k => decide (1840 ≤ s.thermal.value (48 + k))

/-- COOLANT_STOP_SHUTDOWN (R425): 2 s with no valid frame of 0.3 L/min or more. -/
def execCoolantStopShutdown (s : State) : Out :=
  let t := s.thermal
  if !t.stop || t.returned || t.shutdown || decide (s.now < t.noFlow + 2000000000) then .next s
  else
    let s := s.modThermal fun t => { t with shutdown := true }
    let s := (List.range 6).foldl State.dropDie s
    let s := [31, 32, 33, 37].foldl State.unitLost s
    let s := s.request 3 4 0 0xA13
    .next (if s.hubHot then s.hubOff else s)

/-- COOLANT_FLOW_RETURNED (R427): 10 s at 1.0 L/min or more; dies that were switched off start again with a restart. -/
def execCoolantFlowReturned (s : State) : Out :=
  let due : Bool := match s.thermal.flowSince with
    | some t => decide (t + 10000000000 ≤ s.now)
    | none => false
  if !s.boot.hub || !s.thermal.stop || s.thermal.returned || !due then .next s
  else
    let s := s.report 0xA15 0
    let s := (s.modThermal fun t => { t with returned := true, awaitRestart := t.shutdown && s.inDrive }).setFld .PWR_STATUS_FLOW_STOP 0
    if s.thermal.shutdown then
      .next ([31, 32, 33, 37].foldl (fun s d => s.setDomain d true) s).requestRestart
    else .next s

/-- A stop whose flow has returned ends (R427): its restart done, and B covers the Drive demand. -/
def State.endStop (s : State) : State :=
  let t := s.thermal
  if t.stop && t.returned && !t.awaitRestart && s.covers400 then
    (s.modThermal fun t => { t with stop := false, shutdown := false, returned := false }).settlePower
  else s

/-- A measured hot spot at 120 °C: a thermal trip (R419). -/
def State.tripNow (s : State) : State :=
  let s := (s.modThermal fun t => { t with trip := true, coolSince := none }).allStop
  s.report 0xA32 (s.sev32 true) (request := some (3, max 3 s.powerStep))

/-- THERM_TRIP_CLEAR (R419). -/
def execThermTripClear (s : State) : Out :=
  let due : Bool := match s.thermal.coolSince with
    | some t => decide (t + 10000000000 ≤ s.now)
    | none => false
  if s.thermal.trip && due && s.covers400 then .next ((s.modThermal fun t => { t with trip := false }).settlePower) else .next s

/-! ## Diode channels (R421, R422) -/

/-- A pair's readings are compared (R421). -/
def State.comparePair (s : State) (p : Nat) : State :=
  let a := s.thermal.readings.getD (2 * p) 0
  let b := s.thermal.readings.getD (2 * p + 1) 0
  if 96 < (a - b).natAbs then s.modPairOf p fun x => { x with apart := some (x.apart.getD s.now), together := none }
  else s.modPairOf p fun x => { x with apart := none, together := some (x.together.getD s.now) }

/-- DIODE_READ (R419, R421, R425): every channel's reading; 120 °C trips, 115 °C on the hub die ends a shut-down hub. -/
def execDiodeRead (readings : List Int) (s : State) : Out :=
  if !s.boot.hub then .next s
  else
    let s := s.modThermal fun t => { t with readings := (List.range 120).map fun k => readings.getD k 0 }
    let s := (List.range 60).foldl State.comparePair s
    let cool := (List.range 60).all fun p => decide (s.thermal.value p ≤ 1680)
    let s := s.modThermal fun t => { t with coolSince := if cool then some (t.coolSince.getD s.now) else none }
    let trip := (List.range 60).any fun p => decide (1920 ≤ s.thermal.value p)
    let s := if trip && !s.thermal.trip then s.tripNow else s
    .next (if s.thermal.shutdown && !s.thermal.returned && s.hubHot then s.hubOff else s)

/-- Has a time lain back `d` ns or more? -/
def State.hasPassed (s : State) (t : Option Nat) (d : Nat) : Bool :=
  match t with
  | some t => decide (t + d ≤ s.now)
  | none => false

/-- THERM_PAIR_SUSPECT (R421): apart for more than 10 ms. -/
def execThermPairSuspect (pair : Fin 60) (s : State) : Out :=
  let x := s.thermal.pair pair
  if x.suspect.isSome || !s.hasPassed x.apart 10000001 then .next s
  else .next ((s.modPairOf pair fun x => { x with suspect := some s.now }).report 0xA30 0 (some pair))

/-- THERM_PAIR_CLEAR (R421): together for 100 ms; a pair whose guard band stays is not cleared (R422). -/
def execThermPairClear (pair : Fin 60) (s : State) : Out :=
  let x := s.thermal.pair pair
  if x.suspect.isNone || x.held || !s.hasPassed x.together 100000000 then .next s
  else .next (s.modPairOf pair fun x => { x with suspect := none })

/-- THERM_SENSOR_FAULT (R422): suspect for more than 1 s; both channels are booked for a swatch and the guard band stays. -/
def execThermSensorFault (pair : Fin 60) (s : State) : Out :=
  let x := s.thermal.pair pair
  if x.held || !s.hasPassed x.suspect 1000000001 then .next s
  else
    let s := s.modPairOf pair fun x => { x with held := true }
    let book : List SliceRef := [⟨.thermal, 320 + 2 * pair.val, 0⟩, ⟨.thermal, 321 + 2 * pair.val, 0⟩]
    let s := { s with swatch := { s.swatch with booked := s.swatch.booked ++ book } }
    .next (s.report 0xA31 1 (some pair))

/-! ## Cooling ahead (R420) -/

/-- COOLING_DEGRADED (R420, R424): logged, sent and shown. -/
def State.coolingDegraded (s : State) : State :=
  if s.thermal.degraded then s
  else ((s.modThermal fun t => { t with degraded := true, projSince := none }).report 0xA11 1).event 8 0 1 0xA11 s.now

/-- COOLING_PROJECTION (R420). -/
def execCoolingProjection (s : State) : Out :=
  let b := s.forecast 10000
  if !s.boot.hub then .next s
  else if !s.thermal.degraded then .next (if b < s.demand then s.coolingDegraded else s)
  else
    let ok := decide (s.demand * 11 ≤ b * 10)
    let s := s.modThermal fun t => { t with projSince := if ok then some (t.projSince.getD s.now) else none }
    if s.hasPassed s.thermal.projSince 10000000000 && s.power.sheds.isEmpty then
      .next ((s.modThermal fun t => { t with degraded := false, projSince := none }).report 0xA12 0)
    else .next s

/-! ## SENT inputs (R423 to R425) -/

/-- A sample of the last second's trends: time, flow, inlet. -/
def State.sampleTrend (s : State) : State :=
  s.modThermal fun t => { t with
    trend := (t.trend.filter fun x => decide (s.now ≤ x.1 + 1000000000)) ++ [(s.now, s.flowNow.toNat, s.inletNow)] }

/-- A valid flow frame (R425, R427): a stop, or the return of flow. -/
def State.takeFlow (s : State) : State :=
  let v := s.flowNow.toNat
  let past := s.thermal.flows.filter fun x => decide (s.now ≤ x.1 + 100000000)
  let top := (past.map (·.2)).foldl max 0
  let s := s.modThermal fun t => { t with
    flows := past ++ [(s.now, v)], lowSince := none,
    noFlow := if 300 ≤ v then s.now else t.noFlow,
    flowSince := if 1000 ≤ v then some (t.flowSince.getD s.now) else none }
  if v < 300 ∨ 2 * v < top then
    let s := s.coolantStop
    s.modThermal fun t => { t with noFlow := if 300 ≤ v then s.now else t.noFlow }
  else s

/-- SENT_FRAME_RX (R423): a frame whose CRC fails or whose value is 0 or 4,089 or above is not valid. -/
def execSentFrameRx (input : Fin 3) (raw : Nat) (frameOk : Bool) (s : State) : Out :=
  if !s.boot.hub || !frameOk || raw == 0 || decide (4089 ≤ raw) then .next s
  else
    let s := s.modThermal fun t => { t with sent := setAt t.sent input ⟨some raw, s.now, false⟩ }
    let s := if input = 2 then s.takeFlow else s
    .next s.sampleTrend

/-- SENT_INPUT_LOST (R424): 10 ms without a valid frame. -/
def execSentInputLost (input : Fin 3) (s : State) : Out :=
  let x := s.thermal.input input
  if !s.boot.hub || x.lost || decide (s.now < x.last + 10000000) then .next s
  else
    let s := s.modThermal fun t => { t with
      sent := setAt t.sent input { x with lost := true }, flowSince := if input = 2 then none else t.flowSince }
    .next (s.report 0xA14 2 (some input)).coolingDegraded

/-- While the flow input is lost, an estimate below 0.3 L/min for 100 ms is a stop (R425). -/
def State.estimateStop (s : State) : State :=
  if (s.thermal.input 2).lost && decide (s.flowNow < 300) then
    let s := s.modThermal fun t => { t with lowSince := some (t.lowSince.getD s.now) }
    if s.hasPassed s.thermal.lowSince 100000000 then s.coolantStop else s
  else s.modThermal fun t => { t with lowSince := none }

/-! ## The 250 µs loop (R410, R411, R414, R415, R417) -/

/-- A die whose last message has no good reply (R417): three are logged; eight missing from a compute die take its hub link
for down. -/
def State.missReply (s : State) (d : Nat) : State :=
  let x := s.replyOf d
  if !s.answers d || x.answered then s
  else
    let y := { x with missed := x.missed + 1, silent := if x.bad then 0 else x.silent + 1, bad := false }
    let s := s.modPower fun p => { p with replies := setAt p.replies d y }
    let s := if y.missed = 3 then s.report 0xA25 1 (some d) else s
    if y.silent = 8 ∧ d < 6 then s.linkLost (6 + d) else s

/-- The budget message to die `d` (Table 13.4). The manual does not say how B is divided, nor when gating and trim are
allowed: free values; an island has 6 W (R416). -/
def State.messageTo (s : State) (d : Nat) : State :=
  let (v, s) := if 6 ≤ d then (60, s) else s.free 16
  let (f, s) := s.free 2
  let off := d < 6 && !s.fabric.dieOn.getD d false
  let m : DieBudget := ⟨v, s.fabric.step, s.mode.code, f + (if off then 4 else 0), s.now⟩
  s.modPower fun p => { p with messages := p.messages ++ [m] }

/-- The eight budget messages of a period, under the next sequence number (R415). -/
def State.sendBudgets (s : State) : State :=
  let s := s.modPower fun p => { p with
    seq := (p.seq + 1) % 256, messages := [], replies := p.replies.map fun x => { x with answered := false } }
  (List.range 8).foldl State.messageTo s

/-- B and its reason set; with no shed action of this period, since when B has covered the undoing of the last one. -/
def State.setBudget (s : State) (b reason : Nat) (acted : Bool) : State :=
  let cover : Bool := match s.power.sheds with
    | x :: _ => !acted && decide ((s.demand + x.saved) * 11 < b * 10)
    | [] => false
  s.modPower fun p => { p with
    budget := b, reason := reason, coveredSince := if cover then some (p.coveredSince.getD s.now) else none }

/-- THERM_BUDGET (R414): B moved by 10 W or its reason changed. -/
def State.logBudget (s : State) (acted : Bool) : State :=
  let b := s.power.budget
  let r := s.power.reason
  let keep := fun (s : State) => s.modPower fun p => { p with logged := some (b, r) }
  match s.power.logged with
  | none => keep s
  | some (x, q) =>
    if x + 100 ≤ b ∨ b + 100 ≤ x ∨ q ≠ r then (keep s).report 0xA10 (if acted then 1 else 0) (some (divEven b 10).toNat) (some r) else s

/-- BUDGET_TICK (R407, R410, R411, R414, R415, R417): the power manager is in the hub fabric's domain. -/
def execBudgetTick (s : State) : Out :=
  if !s.boot.hub || !s.domainOn 37 then .next s
  else
    let s := (List.range 8).foldl State.missReply s
    let s := s.estimateStop
    let (b, s) := s.budgetAt 0
    let (ahead, s) := s.budgetAt 8
    let tooBig := decide (b.1 < s.demand) || decide (ahead.1 < s.demand)
    let governs := s.mode == .drive || s.mode == .nightMarket
    let (acted, s) : Bool × State := if tooBig && governs then
        match s.shedPower with
        | some t => (true, t.report 0xA20 1 none (some b.2))
        | none => (false, s)
      else (false, s)
    .next (((s.setBudget b.1 b.2 acted).logBudget acted).endStop).sendBudgets

/-- BUDGET_REPLY (R415, R417): a reply to the last message, or a bad one. -/
def execBudgetReply (die : Fin 8) (seq demand demandLower measured : Nat) (hottest : Int) (flags : Nat) (s : State) : Out :=
  if !s.boot.hub || !s.answers die then .next s
  else
    let x := s.replyOf die
    let y : DieReply :=
      if seq % 256 = s.power.seq then
        ⟨demand % 65536, demandLower % 65536, measured % 65536, hottest, flags % 256, 0, 0, true, false⟩
      else { x with bad := true }
    .next (s.modPower fun p => { p with replies := setAt p.replies die y })

/-- BUDGET_MESSAGE (R408, R416): a die takes its message: OFF switches it off, and with TRIM_ALLOWED it trims its voltage by its
own monitors, 0 to 50 mV below nominal and never below 0.45 V. -/
def execBudgetMessage (die : Fin 8) (s : State) : Out :=
  match s.power.messages[die.val]? with
  | none => .next s
  | some m =>
    if !s.boot.hub || !s.answers die then .next s
    else
      let s := s.modPower fun p => { p with taken := setAt p.taken die (some m) }
      if 6 ≤ die.val then .next s
      else if bit m.flags 2 then .next (s.dropDie die)
      else
        let (t, s) := s.free 6
        let nominal := stepVolts (max s.fabric.step s.stepGoal)
        let v := if bit m.flags 1 then max 450 (nominal - t % 51) else nominal
        .next (s.modPower fun p => { p with volts := setAt p.volts die v })

/-- BUDGET_MESSAGE_TIMEOUT (R416): the die keeps its last budget and its present voltage; an island's does not depend on the
messages. -/
def execBudgetMessageTimeout (die : Fin 8) (s : State) : Out :=
  .next (s.modPower fun p => { p with taken := setAt p.taken die (p.taken.getD die none) })

end Sys2Proof.Machine
end

