-- ==== Sys2Proof/Machine/Swatches.lean ====
section
/-!
DEFINITION. Machine/Swatches.lean: swatches (R382 to R397), start-up injection (R399 to R401), the IEEE 1149.1 instructions
(R402) and the end of the clearing of secrets (R403, R404).
-/

namespace Sys2Proof.Machine

/-! ## Slices (Table 12.1, R383) -/

/-- Does a slice run on the beat clock? -/
def kindOnBeats : SwatchType → Bool
  | .tileLogic | .tileMem | .tileFull | .engine => true
  | _ => false

/-- Cycles per slice. -/
def kindCycles : SwatchType → Nat
  | .tileLogic => 12800
  | .tileMem => 4096
  | .tileFull => 134400
  | .engine => 24576
  | .lane => 320000
  | .thermal => 8000
  | .whLogic => 100000
  | .whMem => 16384

/-- The place of a type in Table 12.1. -/
def kindCode : SwatchType → Nat
  | .tileLogic => 0
  | .tileMem => 1
  | .tileFull => 2
  | .engine => 3
  | .lane => 4
  | .thermal => 5
  | .whLogic => 6
  | .whMem => 7

/-- Slices per target. -/
def kindSlices : SwatchType → Nat
  | .tileLogic => 32
  | .tileMem => 24
  | .tileFull => 1
  | .engine => 16
  | .lane => 1
  | .thermal => 1
  | .whLogic => 16
  | .whMem => 32

/-- The target ids of a type: the first and their number. -/
def kindTargets : SwatchType → Nat × Nat
  | .tileLogic | .tileMem | .tileFull => (0, 240)
  | .engine => (240, 6)
  | .lane => (256, 64)
  | .thermal => (320, 120)
  | .whLogic | .whMem => (448, 2)

/-- A slice that Table 12.1 names. -/
def sliceNamed (r : SliceRef) : Bool :=
  let (a, n) := kindTargets r.kind
  decide (a ≤ r.target) && decide (r.target < a + n) && decide (r.slice < (kindSlices r.kind))

/-- The clock of a slice in MHz: the beat clock, 800 MHz, or 500 MHz on an island. -/
def State.sliceClock (s : State) (r : SliceRef) : Nat :=
  if (kindOnBeats r.kind) then 100 * s.fabric.step else if r.target < 448 then 800 else 500

/-- The budget of a slice in µs (R383). -/
def State.sliceBudget (s : State) (r : SliceRef) : Nat := ceilDiv (5 * (kindCycles r.kind)) (4 * s.sliceClock r)

/-- The clock value that a slice's booking and guard are measured on: beats, hub time, or the island's time. -/
def State.sliceNow (s : State) (r : SliceRef) : Nat :=
  if (kindOnBeats r.kind) then s.fabric.beat else if r.target < 448 then s.now else (s.island (r.target - 448)).clock

/-- `us` µs on that clock, in its units. -/
def State.sliceSpan (s : State) (r : SliceRef) (us : Nat) : Nat :=
  if (kindOnBeats r.kind) then us * 100 * s.fabric.step else us * 1000

/-- The time against which the end of a slice's budget is held: island time for an island. -/
def State.sliceTime (s : State) (r : SliceRef) : Nat := if r.target < 448 then s.now else (s.island (r.target - 448)).clock

/-! ## Gaps (R387, R388) -/

/-- An iteration of a program in hand or to come: its start, the first beat of its entry (R70) and its split pairs (R347). -/
structure Booked where
  start : Nat
  entryBeat : Nat
  split : Nat
deriving DecidableEq, Repr

/-- Does an iteration run a command on die `d`: the entry does not skip it, and no split leaves the secondary copy out (R70, R348)? -/
def Booked.runs (b : Booked) (p : Program) (c : Command) (d : Nat) : Bool :=
  decide (b.entryBeat ≤ c.start) && !(decide (3 ≤ d) && p.paired (d - 3) && bit b.split (d - 3))

/-- The iterations of a loaded program that run or may start from now on: those in hand, the next one fixed, or the earliest that R303
allows. -/
def State.startsOf (s : State) (p : Program) : List Booked :=
  let soon := alignUp (s.fabric.beat + 2048) 8192
  match p.running with
  | none => [⟨soon, 0, p.split⟩]
  | some r => ((r.iters.filter fun i => !i.killed).map fun i => ⟨i.start, i.entryBeat, i.split⟩) ++
      [⟨r.next.getD soon, p.entryBeat r.entry, p.split⟩]

/-- A command's span on a tile in an iteration begun at `b`: over at its decision beat for slices that may run in a re-run gap
(R65). -/
def State.commandSpan (s : State) (p : Program) (b k : Nat) (c : Command) (inRerunGap : Bool) : Nat × Nat :=
  let taken : Bool := match p.running with
    | none => false
    | some r => match r.iters.find? fun i => i.start == b with
      | none => false
      | some i => match i.runs[k]? with
        | none => false
        | some x => x.decided && x.rerun == 0
  if taken && inRerunGap && decide (b + c.decision ≤ s.fabric.beat) then (b + c.start, b + c.decision)
  else (b + c.start, b + c.commit)

/-- The spans in which a loaded program holds the resource of a slice (R387); the commit beat of a command counts as one, since a re-run
gap ends there. -/
def State.heldSpans (s : State) (r : SliceRef) (p : Program) : List (Nat × Nat) :=
  let gap := r.kind == .tileLogic && decide (r.slice < 24)
  (s.startsOf p).flatMap fun b =>
    match slicePlace r with
    | some (d, some t) =>
      ((List.range p.commands.length).flatMap fun k => match p.commands[k]? with
        | some c => if bit (c.tiles.getD d 0) t && b.runs p c d then
            [s.commandSpan p b.start k c gap, (b.start + c.commit, b.start + c.commit + 1)] else []
        | none => []) ++
      p.windows.filterMap fun w => if w.die == d && w.tile == t && (p.command w.cmd).any fun c => b.runs p c d then
        some (b.start + w.beat, b.start + w.beat + ceilDiv w.size (if w.target = 3 then 256 else 800)) else none
    | some (d, none) => p.engines.filterMap fun e =>
        if (p.command e.cmd).any fun c => c.tiles.getD d 0 != 0 && b.runs p c d then some (b.start + e.start, b.start + e.stop) else none
    | none => []

/-- The spans in which the loaded programs hold the resource of a slice from now on. -/
def State.spansOn (s : State) (r : SliceRef) : List (Nat × Nat) :=
  (s.programs.flatMap fun p => s.heldSpans r p).filter fun x => decide (s.fabric.beat < x.2)

/-- Does no loaded program hold the resource from now to `e` (R387)? -/
def State.freeTo (s : State) (r : SliceRef) (e : Nat) : Bool := (s.spansOn r).all fun x => decide (e ≤ x.1)

/-- Is `e` the end of the gap that is open now (R387): free up to the next booking of the resource, if one is known? -/
def State.gapFree (s : State) (r : SliceRef) (e : Nat) : Bool :=
  s.freeTo r e && ((s.spansOn r).isEmpty || (s.spansOn r).any fun x => x.1 == e)

/-- Does a slice fit before `e` with 20 µs to spare (R388)? -/
def State.sliceFits (s : State) (r : SliceRef) (e : Nat) : Bool :=
  decide (s.sliceNow r + s.sliceSpan r (s.sliceBudget r + 20) ≤ e)

/-- How many slices of a kind hold their targets. -/
def State.slicesOn (s : State) (f : SliceRef → Bool) : Nat := (s.holding.filter fun x => f x.ref).length

/-- When a target was last covered, counted from the entry to Drive (R395). -/
def State.lastCover (s : State) (t : Nat) : Nat := max s.swatch.drivenAt (Tbl.get 0 s.swatch.covered t)

/-- The place of a slice in the order of R391, which a late target follows ahead of the routine (R395): 0 a second run, 1 a targeted
swatch, 2 a slice last aborted at the end of its budget or booked for a purpose, 3 late, 4 routine. -/
def State.sliceRank (s : State) (r : SliceRef) : Nat :=
  let q := s.swatch
  let t := r.target
  if q.differed.contains r then 0
  else if decide (t < 240) && s.gauge.targets.contains (t / 40, s.physOf (t / 40) (t % 40)) then 1
  else if q.aborted.contains r || q.booked.contains r then 2 else if q.late.contains t then 3 else 4

/-- Does slice `a` come before slice `b` (R391)? Among routine slices the one of the target whose coverage is oldest does. -/
def State.sliceAhead (s : State) (a b : SliceRef) : Bool :=
  let x := s.sliceRank a
  let y := s.sliceRank b
  decide (x < y) || (x == 4 && y == 4 && decide (s.lastCover a.target < s.lastCover b.target))

/-- Has a slice passed, or ended with its verdict to come (R385)? -/
def State.sliceGone (s : State) (r : SliceRef) : Bool := s.swatch.passed.contains r || s.swatch.running.any fun x => x.ref == r

/-- The slices that a tile or a lane may run next. -/
def State.dueSlices (s : State) (t : Nat) : List SliceRef :=
  let q := s.swatch
  let of := (q.differed ++ q.booked ++ q.aborted).filter fun x => x.target == t && !s.swatch.running.any fun y => y.ref == x
  let first := fun (k : SwatchType) =>
    ((List.range (kindSlices k)).find? fun i => !s.sliceGone ⟨k, t, i⟩).toList.map fun i => (⟨k, t, i⟩ : SliceRef)
  of ++ (if 256 ≤ t then first .lane else first .tileLogic ++ first .tileMem)

/-- May a tile or a lane begin a slice: nothing holds it, and it is in service? -/
def State.targetWaits (s : State) (t : Nat) : Bool :=
  !(s.holding.any fun x => x.ref.target == t) && if 256 ≤ t then s.laneFree (t - 256) else s.fabric.dieOn.getD (t / 40) false

/-- Does the gap that is open now suffice for a slice (R388)? -/
def State.fitsNow (s : State) (r : SliceRef) : Bool :=
  !(kindOnBeats r.kind) || s.freeTo r (s.fabric.beat + s.sliceSpan r (s.sliceBudget r + 20))

/-- Outside a full pass a slice waits for the slices of other targets that come before it (R391) where they compete: the lanes, of which one at a time
runs a slice, and the tiles of a die, of which at most 10 do (DEDUCED, log 107). -/
def State.sliceTurn (s : State) (r : SliceRef) : Bool :=
  let others := match r.kind with
    | .tileLogic | .tileMem | .tileFull => (List.range 40).map fun i => 40 * (r.target / 40) + i
    | .lane => (List.range 64).map (256 + ·)
    | _ => []
  s.swatch.fullPass || others.all fun t => t == r.target || !s.targetWaits t ||
    (s.dueSlices t).all fun x => !s.sliceAhead x r || !s.fitsNow x

/-- Have all slices of WH_LOGIC of an island passed (Table 12.4)? -/
def State.logicFirst (s : State) (t : Nat) : Bool :=
  (List.range (kindSlices .whLogic)).all fun i => s.swatch.passed.contains ⟨.whLogic, t, i⟩

/-- The limits on a slice beside its gap: R392 for a lane, R393 for an island, 10 tiles of a die (R391), and what Table 12.4 runs in a full
pass. -/
def State.sliceAllowed (s : State) (r : SliceRef) (e : Nat) : Bool :=
  let q := s.swatch
  match r.kind with
  | .lane =>
    let k := r.target - 256
    let up := s.lanesUp
    !q.suspended && ((q.fullPass && s.planner.cycle.isNone) || (s.laneFree k && s.slicesOn (fun x => x.kind == .lane) == 0 &&
      (decide (46 ≤ up) || decide (up < 45)) && decide (3 ≤ up)))
  | .thermal => !q.suspended && !s.thermal.excluded.contains (r.target - 320) &&
      !(q.fullPass && s.holding.any fun x => x.ref.kind == .thermal && x.ref.target / 2 == r.target / 2)
  | .whLogic | .whMem =>
    let x := s.island (r.target - 448)
    x.alive && x.accelOk && (r.kind != .whMem || !q.fullPass || s.logicFirst r.target) && (!s.inDrive || match x.pilot.out with
      | some o => x.pilot.work.isEmpty && decide (e ≤ (o.edge + 1) * s.pilotPeriod)
      | none => false)
  | .engine => s.fabric.dieOn.getD (r.target - 240) false
  | _ =>
    s.fabric.dieOn.getD (r.target / 40) false &&
    decide (s.slicesOn (fun x => (slicePlace x).any fun y => y.1 == r.target / 40 && y.2.isSome) < 10) &&
    (if r.kind == .tileFull then s.fabric.step == 4 else !(q.fullPass && s.fabric.step == 4))

/-- The order of R391 among the slices of a target that fit the gap: a second run, one last aborted, then ascending. -/
def State.sliceOrder (s : State) (r : SliceRef) (e : Nat) : Bool :=
  let mine := fun (x : SliceRef) => x.target == r.target && s.sliceFits x e && !s.swatch.running.any fun y => y.ref == x
  let q := s.swatch
  if q.differed.any mine then q.differed.contains r
  else if q.booked.any mine then q.booked.contains r
  else if q.aborted.any mine then q.aborted.contains r
  else (List.range r.slice).all fun i => s.sliceGone { r with slice := i }

/-- The entries of a table from key `a` on, `n` of them of width `w`, made undefined (R384): free values. -/
def looseTbl (t : Tbl Nat) (w a n first : Nat) : Tbl Nat :=
  (t.filter fun x => decide (x.1 < a)) ++
    ((List.range n).map fun i => (a + i, Config.freeValue w (first + i) % 2 ^ w)).filter (fun x => x.2 != 0) ++
    t.filter fun x => decide (a + n ≤ x.1)

/-- What a logic slice leaves undefined in its tile (R384): the vector registers, the accumulators and the scalar registers, unless it is one
of slices 0 to 23. -/
def State.disturb (s : State) (r : SliceRef) : State :=
  if r.kind == .tileFull || (r.kind == .tileLogic && decide (24 ≤ r.slice)) then
    let k := tileKey (r.target / 40) (r.target % 40)
    let f := { s.fabric with
      vregs := looseTbl s.fabric.vregs 32 (k * 8192) 8192 s.freeCount
      accs := looseTbl s.fabric.accs 32 (k * 8192) 8192 (s.freeCount + 8192)
      sregs := looseTbl s.fabric.sregs 64 (k * 64) 64 (s.freeCount + 16384) }
    { s with fabric := f, freeCount := s.freeCount + 16448 }
  else s

/-- SWATCH_SLICE_START (R382, R388, R391 to R393): a slice is booked in a gap that ends at `gapEnd`, and its guard fixed. -/
def execSwatchSliceStart (r : SliceRef) (gapEnd : Nat) (s : State) : Out :=
  let s := s.endInjection
  let busy := (s.holding.any fun x => x.ref.target == r.target) || s.swatch.running.any fun x => x.ref == r
  let on := s.boot.hub && (s.swatch.fullPass || s.fld .HUB_CFG_SWATCH_CFG_ENABLE == 1)
  if !on || busy || !sliceNamed r || !s.sliceFits r gapEnd || decide (500 < s.sliceBudget r) ||
      ((kindOnBeats r.kind) && !s.gapFree r gapEnd) || !s.sliceAllowed r gapEnd || !s.sliceOrder r gapEnd || !s.sliceTurn r then .next s
  else
    let run : SliceRun :=
      ⟨r, s.sliceNow r, s.sliceTime r + s.sliceBudget r * 1000, gapEnd - s.sliceSpan r 20, false⟩
    .next (State.disturb { s with swatch := { s.swatch with running := s.swatch.running ++ [run] } } r)

/-- SWATCH_SLICE_END (R385, R389): the resource is returned; the verdict comes at the end of the budget. At the end of its budget or at
its guard the timer ends a slice instead. -/
def execSwatchSliceEnd (r : SliceRef) (s : State) : Out :=
  let back := fun (x : SliceRun) =>
    if x.ref == r && decide (s.sliceTime r < x.due) && (!(kindOnBeats r.kind) || decide (s.sliceNow r < x.guard)) then
      { x with returned := true } else x
  .next { s with swatch := { s.swatch with running := s.swatch.running.map back } }

/-! ## Verdicts (R385, R386, R395, R396) -/

/-- The stall whose quarters hold a logical tile (R461). -/
def State.stallOfTile (s : State) (d t : Nat) : Option Nat :=
  stallIds.find? fun k => s.stall k != .closed && bit (s.stallQuarters k) (4 * d + t / 10)

/-- The stall that owns the engines of a die: the one that holds its four quarters (R461). -/
def State.stallOfDie (s : State) (d : Nat) : Option Nat :=
  stallIds.find? fun k => s.stall k != .closed && s.stallQuarters k / 16 ^ d % 16 == 15

/-- The consequence of a failed slice (Table 12.3), with the SRAM rows that a memory slice found failing. -/
def State.sliceConsequence (s : State) (r : SliceRef) (rows : List (Nat × Nat)) : State :=
  match r.kind with
  | .tileLogic | .tileMem | .tileFull =>
    let d := r.target / 40
    let t := r.target % 40
    let phys := s.physOf d t
    let s := if s.mode = .nightMarket then
        match s.stallOfTile d t with
        | some k => s.stallFault k 0x901
        | none => s
      else s
    (s.targetFailed d phys).tileFault d phys rows
  | .engine =>
    let d := r.target - 240
    let s := { s with swatch := { s.swatch with engines := s.swatch.engines.erase d ++ [d] } }
    let s := match s.stallOfDie d with
      | some k => s.stallFault k 0x901
      | none => s
    if s.inDrive then s.requestRestart else s
  | .lane => s.laneOut (r.target - 256)
  | .thermal =>
    let c := r.target - 320
    let s := { s with thermal := { s.thermal with excluded := s.thermal.excluded.erase c ++ [c] } }
    s.report 0xA31 1 (some (c / 2))
  | .whLogic | .whMem => s.accelStop (r.target - 448) 0x901

/-- The die of a slice's target as an origin (Table 11.7). -/
def sliceOrigin (r : SliceRef) : Nat :=
  if r.target < 240 then r.target / 40 + 1 else if r.target < 246 then r.target - 239
  else if 448 ≤ r.target then r.target - 441
  else if 320 ≤ r.target ∧ r.target < 416 then (r.target - 320) / 16 + 1 else 0

/-- The failing rows that a failed slice finds: those of a memory slice (R386). -/
def State.rowsFound (s : State) (r : SliceRef) : List (Nat × Nat) × State :=
  match r.kind with
  | .tileMem | .tileFull | .whMem => (Config.failingRows s.freeCount, { s with freeCount := s.freeCount + 1 })
  | _ => ([], s)

/-- A slice fails (R386, R396): the record of a memory slice names the failing rows, and the pass has no more to do on the target. -/
def State.sliceFail (s : State) (r : SliceRef) : State :=
  let q := s.swatch
  let s := { s with swatch := { q with differed := q.differed.erase r, aborted := q.aborted.erase r,
                                       booked := q.booked.erase r, toCover := q.toCover.erase r.target } }
  let (rows, s) := (s.count .HUB_CFG_SWATCH_CNT_COUNT 1).rowsFound r
  let named := if rows.isEmpty then none else some (Config.rowsDetail rows % 2 ^ 64)
  (s.report 0x901 2 none named (origin := sliceOrigin r)).sliceConsequence r rows

/-- Is every slice of the types of a target in a list (R395)? A TILE_FULL stands for TILE_LOGIC and TILE_MEM. -/
def coveredBy (l : List SliceRef) (target : Nat) : Bool :=
  let all := fun (k : SwatchType) => (List.range (kindSlices k)).all fun i => l.contains ⟨k, target, i⟩
  if target < 240 then all .tileFull || (all .tileLogic && all .tileMem)
  else if target < 256 then all .engine else if target < 320 then all .lane else if target < 448 then all .thermal
  else all .whLogic && all .whMem

/-- A target is covered (R395); a targeted swatch of its tile has passed (R344). -/
def State.cover (s : State) (target : Nat) : State :=
  let q := s.swatch
  let s := { s with swatch := { q with
    covered := Tbl.set 0 q.covered target (max 1 s.now), late := q.late.erase target, toCover := q.toCover.erase target,
    passed := q.passed.filter fun x => x.target != target } }
  if target < 240 then s.targetPassed (target / 40) (s.physOf (target / 40) (target % 40)) else s

/-- A slice passes: a first difference is cleared (R386), and the target may be covered (R395). -/
def State.slicePass (s : State) (r : SliceRef) : State :=
  let q := s.swatch
  let passed := if q.passed.contains r then q.passed else q.passed ++ [r]
  let s := { s with swatch := { q with differed := q.differed.erase r, aborted := q.aborted.erase r, passed := passed,
                                       booked := q.booked.erase r } }
  let s := s.count .HUB_CFG_SWATCH_CNT_COUNT 0
  if coveredBy passed r.target then s.cover r.target else s

/-- The signature of a slice formed and compared with its reference (R384, R385): equal to it, or a free value that differs from it. -/
def State.compareSlice (s : State) (r : SliceRef) (ok : Bool) : State :=
  let ref := Config.swatchReference s.boot.header (kindCode r.kind) r.slice % 2 ^ 128
  if ok then { s with swatch := { s.swatch with signature := ref } }
  else
    let (v, s) := s.free 128
    { s with swatch := { s.swatch with signature := (ref + 1 + v % (2 ^ 128 - 1)) % 2 ^ 128 } }

/-- SWATCH_VERDICT (R385, R386): at the end of the budget of a slice that has ended, its signature is compared. -/
def execSwatchVerdict (r : SliceRef) (signatureOk : Bool) (s : State) : Out :=
  match s.swatch.running.find? fun x => x.ref == r with
  | none => .next s
  | some x =>
    if !x.returned || decide (s.sliceTime r < x.due) then .next s
    else
      let s := State.compareSlice { s with swatch := { s.swatch with running := s.swatch.running.erase x } } r signatureOk
      if signatureOk then .next (s.slicePass r)
      else if s.swatch.differed.contains r then .next (s.sliceFail r)
      else
        let q := s.swatch
        .next ({ s with swatch := { q with differed := q.differed ++ [r], aborted := q.aborted.erase r } }.report 0x903 1)

/-- SWATCH_ABORT (R389): the timer ends a slice at the end of its budget, which twice in a row is a fail, or at its guard. -/
def execSwatchAbort (r : SliceRef) (s : State) : Out :=
  match s.swatch.running.find? fun x => x.ref == r with
  | none => .next s
  | some x =>
    if x.returned then .next s
    else if x.due ≤ s.sliceTime r then
      let again := s.swatch.aborted.contains r
      let s := s.abortSlice x 1
      if again then .next (s.sliceFail r)
      else .next { s with swatch := { s.swatch with aborted := s.swatch.aborted ++ [r] } }
    else if x.guard ≤ s.sliceNow r then .next (s.abortSlice x 0) else .next s

/-! ## Coverage and the full pass (R395, R397, R398) -/

/-- Is a target in service: its die on, its lane in service, its channel not excluded, its island with an accelerator, and its swatches not
suspended (Table 12.5)? -/
def State.targetUp (s : State) (t : Nat) : Bool :=
  if t < 240 then s.fabric.dieOn.getD (t / 40) false
  else if t < 246 then s.fabric.dieOn.getD (t - 240) false
  else if 256 ≤ t ∧ t < 320 then !s.swatch.suspended && !s.planner.out.contains (t - 256)
  else if 320 ≤ t ∧ t < 440 then !s.swatch.suspended && !s.thermal.excluded.contains (t - 320)
  else if t = 448 ∨ t = 449 then (s.island (t - 448)).alive && (s.island (t - 448)).accelOk else false

/-- SWATCH_COVERAGE_LATE (R395): once per lapse. -/
def execSwatchCoverageLate (target : Nat) (s : State) : Out :=
  if s.inDrive && s.targetUp target && !s.swatch.late.contains target &&
      decide (s.lastCover target + 30000000000 ≤ s.now) then
    let s := { s with swatch := { s.swatch with late := s.swatch.late ++ [target] } }
    .next ((s.count .HUB_CFG_SWATCH_CNT_COUNT 3).report 0x904 1 (some target))
  else .next s

/-- CLR_SWATCH_CNT. -/
def execClrSwatchCnt (n : Fin 4) (s : State) : Out := .next (s.setFld .HUB_CFG_SWATCH_CNT_COUNT 0 n)

/-- A boot without a valid configuration record is over with its main-path start, and the device stays in Park (R448), with
authority NONE (R364). -/
def State.endBoot (s : State) : State :=
  match s.transition with
  | .boot _ =>
    if s.boot.config.isEmpty then
      let s := { s.leaveDrive with safety := { s.leaveDrive.safety with holds := false } }
      State.settleMode { s with transition := .none, boot := { s.boot with stage := 0 } }
    else s
  | _ => s

/-- Has a full pass run one coverage of every target in service (R397)? -/
def State.passComplete (s : State) : Bool :=
  s.swatch.fullPass && s.swatch.running.isEmpty && (s.swatch.toCover.filter s.targetUp).isEmpty

/-- SWATCH_PASS_DONE (R397, Tables 11.6, 14.10, 15.4): the pass ends, and what it belongs to goes on. -/
def execSwatchPassDone (s : State) : Out :=
  if !s.passComplete then .next s
  else
    let s := State.report { s with swatch := { s.swatch with fullPass := false, toCover := [] } } 0x906 0
    match s.transition with
    | .dayOpen 2 p l => .next { s with transition := .dayOpen 3 p l }
    | _ =>
      let s := s.resumeMain.endBoot
      .next (s.modRestart fun r => { r with reloaded := r.reloaded || r.state != 0 })

/-! ## Start-up injection (R352, R353, R399 to R401) -/

/-- An island is treated as lost (R368): its peer logs it and commands in its place. -/
def State.islandLost (s : State) (i code : Nat) : State :=
  if !(s.island (1 - i)).alive then s
  else
    let s := (s.modIsland (1 - i) fun x => { x with peerLost := true }).islandReport (1 - i) code 2
    if s.commanding = some i then s.takeCommand (1 - i) code else s

/-- The pair and, for a signature fold, the tile that an instance of Table 10.7 concerns, its rows taken in order: 6 agreement
comparators, 3 relays, 3 chunk comparators, 240 folds, 3 timers, 3 paths (DEDUCED, log 33). -/
def gaugeInstance (n : Nat) : Nat × Option (Nat × Nat) :=
  if n < 12 then (n % 3, none)
  else if n < 252 then ((n - 12) / 40 % 3, some ((n - 12) / 40, (n - 12) % 40))
  else (n % 3, none)

/-- The self-test source asks for D3 until the next main-path start because of the record with number `cause` (R210, R401). -/
def State.selfTest (s : State) (cause : Nat) : State := s.request 6 3 cause 0x910

/-- A die that fails its injections is off at this start (Table 12.5). -/
def State.dieOutAtStart (s : State) (d : Nat) : State :=
  if d < 6 then (s.dieOut d).forceSplits s.gauge.forced else s

/-- A regulator that did not report (Table 12.5, row 6): its guarantee is counted unmet. Instances 0 to 14 are the partitions,
15 to 45 the stalls. -/
def State.guaranteeUnmet (s : State) (n : Nat) : State :=
  if 15 ≤ n then s.shedOne (.stallMin (n - 14))
  else if s.fld .MEM_PART_CFG_CLASS n = 0 then
    if s.memSys.safetyUnmet then s
    else ({ s with memSys := { s.memSys with safetyUnmet := true } }).report 0x524 3 (request := some (5, 3))
  else s.shedOne (.partMin n)

/-- The consequence of an injection not reported (Table 12.5), whose INJECT_FAIL record has number `cause`. -/
def State.injectConsequence (s : State) (row n cause : Nat) : State :=
  match row with
  | 1 | 2 =>
    if n < 6 then s.dieOutAtStart n
    else if n = 6 then { s with swatch := { s.swatch with suspended := true } } else s.islandLost (n - 7) 0x811
  | 3 =>
    let (k, tile) := gaugeInstance n
    let s := (s.report 0x730 2 (some k)).forceSplits (s.gauge.forced ||| 2 ^ k)
    match tile with
    | some (d, t) => s.tileFault d (s.physOf d t)
    | none => s
  | 4 => s.dieOutAtStart (n / 64)
  | 5 => s.retire (n % 64)
  | 6 => s.guaranteeUnmet n
  | 7 =>
    ({ s with memSys := { s.memSys with linkUp := setAt s.memSys.linkUp n false } }).report 0x530 (if s.inDrive then 3 else 2)
  | 8 =>
    let s := { s with swatch := { s.swatch with pairHeld := true } }
    if s.pairUp then s.pairLost else s.setPair { s.pair with state := 0, phase := 0 }
  | 9 => { s with swatch := { s.swatch with badPorts := s.swatch.badPorts ++ [n] } }
  | 10 => s.laneOut (n % 64)
  | 11 =>
    let pairs := (s.thermal.pairs.mapIdx fun i p => if i = n then { p with held := true } else p)
    ({ s with thermal := { s.thermal with pairs := pairs } }).report 0xA31 1 (some n)
  | 12 | 13 => s.selfTest cause
  | 14 => s.islandLost (n % 2) 0x811
  | 15 => (s.islandDown (n % 2)).islandLost (n % 2) 0x810
  | _ => s

/-- An injection of this main-path start was not reported: its row and instance. -/
def State.noteUnreported (s : State) (row inst : Nat) : State :=
  if row = 15 then s else { s with swatch := { s.swatch with unreported := s.swatch.unreported ++ [(row, inst)] } }

/-- Is an injection of a row out that a report is late for (R399, R401): one of a main-path start, 1 ms after they began, or of an island's
reset for row 15, between 1 and 50 ms after it? -/
def State.injectLate (s : State) (row inst : Nat) : Bool :=
  if row = 15 then
    let x := s.island (inst % 2)
    x.alive && decide (x.upAt + 1000000 ≤ x.clock) && decide (x.clock ≤ x.upAt + 50000000)
  else row != 0 && s.swatch.injecting.any fun t => decide (t + 1000000 ≤ s.now)

/-- INJECT_REPORT_TIMEOUT (R401): an injection of a main-path start, or of an island's reset for row 15, not reported within
1 ms. -/
def execInjectReportTimeout (row : Fin 16) (inst : Nat) (s : State) : Out :=
  let r := row.val
  if !s.injectLate r inst then .next s
  else
    let d := r * 256 + inst % 256
    let cause := s.arbSeq
    let s := (s.report 0x910 2 (some d)).setFld .HUB_CFG_INJECT_STATUS_LAST_CHECKER d
    .next (((s.count .HUB_CFG_INJECT_STATUS_FAILED).noteUnreported r inst).injectConsequence r inst cause)

/-! ## IEEE 1149.1 and the clearing of secrets (R402 to R404) -/

/-- The instruction in force on the test access port. -/
def State.setJtag (s : State) (n : Nat) : State := { s with boot := { s.boot with jtag := n } }

/-- BYPASS, IDCODE and SAMPLE/PRELOAD, in every mode (R402). -/
def execBypass (s : State) : Out := .next (s.setJtag 1)
def execIdcode (s : State) : Out := .next (s.setJtag 2)
def execSamplePreload (s : State) : Out := .next (s.setJtag 3)

/-- An access that is open only while CLEARED is 1, within the scope of the token (R402, R460). -/
def State.opened (s : State) (scopeBit : Nat) : Bool := s.fld .SEC_SCAN_STATUS_CLEARED == 1 && bit s.boot.scope scopeBit

/-- EXTEST. -/
def execExtest (s : State) : Out := .next (if s.opened 2 then s.setJtag 4 else s)

/-- INTERNAL_SCAN. -/
def execInternalScan (s : State) : Out := .next (if s.opened 1 then s.setJtag 5 else s)

/-- DEBUG_ACCESS. -/
def execDebugAccess (s : State) : Out := .next (if s.opened 0 then s.setJtag 6 else s)

/-- Every secret is overwritten (R403): the seed, from which the private key follows, and the PUF's secret, stall keys, and the signing state
of a quote in progress; `left` are the stores whose read-back is not zero. -/
def State.clearSecrets (s : State) (left : Nat) : State :=
  let s := s.sealStalls
  let stalls := s.stalls.map fun e => (e.1, { e.2 with key := none })
  { s with boot := { s.boot with seed := none, puf := false, quoting := none, stores := left }, stalls := stalls }

/-- SCAN_CLEARED (R403, R404): with every read-back zero CLEARED is set and the device enters Service; otherwise it stays in
Park. -/
def execScanCleared (allZero : Bool) (s : State) : Out :=
  if s.transition ≠ .clearing then .next s
  else
    let (v, s') := s.free 5
    let s := { (if allZero then s.clearSecrets 0 else s'.clearSecrets (1 + v % 31)) with transition := .none }
    if allZero then
      let s := (s.setFld .SEC_SCAN_STATUS_CLEARED 1).setFld .SEC_SCAN_STATUS_SERVICE 1
      let s := s.setFld .SEC_SCAN_STATUS_LAST_CODE 0x920
      .next (State.settleMode { s.report 0x920 0 with mode := .service })
    else .next (((s.setFld .SEC_SCAN_STATUS_LAST_CODE 0x921).report 0x921 2).settleMode)

end Sys2Proof.Machine
end

