-- ==== Sys2Proof/Machine/Boot.lean ====
section
/-!
DEFINITION. Machine/Boot.lean: resets, the boot sequence, the entry to Drive, Park and wake, the hourly side of the wear ledger, and
the loss of rails (13, 14, 17).
-/

namespace Sys2Proof.Machine

/-- The boot's own state changed. -/
def State.modBoot (s : State) (g : Boot → Boot) : State := { s with boot := g s.boot }

/-! ## Resets (R489, Table 16.3, R504) -/

/-- The fields that only an always-on reset sets back (Table 16.3). -/
def aonFields : List Fld :=
  [.PWR_WAKE_CFG_ALARM, .PWR_WAKE_CFG_POLARITY, .PWR_WAKE_CFG_ENABLE, .PWR_WAKE_CAUSE_VAON, .PWR_WAKE_CAUSE_THERM,
   .PWR_WAKE_CAUSE_ALARM, .PWR_WAKE_CAUSE_PCIE, .PWR_WAKE_CAUSE_PIN, .PWR_WAKE_TARGET_ALARM_NM,
   .PWR_WAKE_TARGET_PCIE_NM, .PWR_WAKE_TARGET_PIN_NM]

/-- Sensing at a reset of the hub die: what the trigger generators know of their edges stands in the always-on domain (Table 13.2), and the
lines are high-impedance again (R191, R499). -/
def Sensing.atReset (x : Sensing) : Sensing :=
  { Sensing.zero with triggers := x.triggers.map fun e =>
      (e.1, { Trigger.zero with lastEdge := e.2.lastEdge, timing := e.2.timing, barred := e.2.barred }) }

/-- The hub die and the compute dies reset (Tables 16.3 and 17.3): their registers and units start afresh. The time base, the
always-on fields, the islands, the mode and what memory holds stay, the regions of stalls as ciphertext. -/
def State.hubReset (s : State) : State :=
  let keep := fun (k : Nat) => aonFields.any fun f => f.key 0 0 == k
  let s := s.sealStalls
  { s with regs := s.regs.filter fun e => keep e.1, latches := [], fabric := Fabric.zero, sensing := s.sensing.atReset,
           memSys := MemSys.zero, pair := PairLink.zero, host := HostIf.zero, stalls := [], pools := [], gauge := Gauge.zero,
           swatch := Swatch.zero, devLog := Log.zero, planner := Planner.zero, power := Power.zero, thermal := Thermal.zero,
           macTx := List.replicate 6 MacTx.zero, deferred := [],
           safety := { s.safety with hubView := none, lastPlan := none, hubTxCount := [0, 0, 0],
                                     wha := { s.safety.wha with relay := [] }, whb := { s.safety.whb with relay := [] },
                                     mirrored := false, trajSent := none, missed := none, handback := [], statusAt := none,
                                     canTx := s.safety.canTx.mapIdx fun i q => if i < 4 then [] else q },
           boot := { s.boot with hub := false, stage := 0, writing := none, quoting := none, scope := 0, jtag := 0, evfin := none,
                                 seed := none, config := s.boot.config } }

/-- AON_RESET (R186, R504, R507): the always-on domain starts again, with the time base at 0 in FREE, a backward step for the triggers
(R192); in Drive that is logged. The ledger's count goes on from 0 (R435). -/
def State.aonReset (s : State) : State :=
  let s := (aonFields.foldl (fun s f => s.resetFld f) s).moveTime (s.now : Nat)
  let s := State.modWear { s.setFld .PWR_DOMAINS_ON (s.fld .PWR_DOMAINS_ON ||| 2 ^ 38) with timeBase := TimeBase.zero, wake := Wake.zero } fun w =>
    { w with upTo := 0, recorded := 0 }
  if s.boot.hub && s.inDrive then s.report 0x342 1 else s

/-- AON_RESET. -/
def execAonReset (s : State) : Out := .next s.aonReset

/-! ## The boot sequence (Table 14.10) -/

/-- A record that the ROM or WHA makes before the hub die runs: UNSEQUENCED, of WHA; SEC_BOOT_STATUS shows it. -/
def State.bootReport (s : State) (code sev : Nat) : State :=
  (s.reportWith code sev 7 none none none false true).setFld .SEC_BOOT_STATUS_LAST_CODE code

/-- The device stops with a cause (R455, R511). -/
def State.bootStop (s : State) (code sev : Nat) : State :=
  let s := (s.bootReport code sev).modBoot fun b => { b with stopped := true, stage := 0 }
  { s with transition := .none }

/-- The hub die's domains on, beside the always-on one. -/
def State.hubPower (s : State) : State := hubDomains.foldl (fun s d => s.setDomain d true) s

/-- The identity of this boot (R451 to R453): the seed that the PUF and the factory part yield, with its public key; none on a
mismatch or when the reconstruction fails. -/
def State.identity (s : State) : Option (List Byte) :=
  if !s.boot.puf then none
  else match Config.pufSecret (slice s.boot.factory 64 4096) with
    | some seed => if Config.falconPublic seed == slice s.boot.factory 4160 1793 then some seed else none
    | none => none

/-- The row repairs, the tile map and the retirements that the device record gives (R445, R446, R489). -/
def State.applyDevRecord (s : State) : State :=
  let f := s.boot.field
  let faulty := (List.range 6).flatMap fun d => (listedTiles f 48 d).map fun t => (d, t)
  let rows := (List.range (min 512 (fieldAt f 6 2))).map fun i => fieldAt f (200 + 4 * i) 4
  let s := { s with fabric := { s.fabric with faulty := faulty, rowRepairs := rows } }
  let s := (List.range 6).foldl (init := s) fun (s : State) (d : Nat) =>
    let s := s.applyMap d
    if (s.goodTiles d).length < 40 then s.report 0x150 2 (origin := d + 1) else s
  (List.range 64).foldl (init := s) fun s k =>
    if bit (fieldAt f 60 8) k then
      let slot := fieldAt f (68 + k) 1
      let s := s.setChannel k { s.channel k with spare := some slot, copied := 3145728 }
      let s := s.setFld .MEM_SPARE_CFG_USED (max (s.fld .MEM_SPARE_CFG_USED) (slot + 1))
      s.setFld .MEM_PC_ECC_RETIRED 1 k
    else s

/-- The identity compared, the field part verified and applied, the ledger started (R446, R453, R437). -/
def State.takeIdentity (s : State) : State :=
  match s.identity with
  | none =>
    let s := ((s.report 0xB06 2).setFld .SEC_BOOT_STATUS_LAST_CODE 0xB06).setFld .SEC_BOOT_STATUS_IDENTITY_OK 0
    let s := (s.report 0xB07 1).modBoot fun b => { b with field := [] }
    (s.modWear fun w => { Wear.zero with firstLock := w.firstLock, upTo := s.now }).showWear
  | some seed =>
    let key := Config.falconPublic seed
    let s := (s.modBoot fun b => { b with seed := some seed, stores := 31 }).setFld .SEC_BOOT_STATUS_IDENTITY_OK 1
    let s := match s.fieldInUse key s.boot.factory with
      | some f => s.modBoot fun b => { b with field := f }
      | none => (s.report 0xB07 1).modBoot fun b => { b with field := [] }
    s.startWear key

/-- The device log opened with the ROM's entries (Table 14.11): factory part, configuration record, image header, straps; then the
field part in use and the identity status. The manual lays out no item for the straps and the identity: free digests. -/
def State.openLog (s : State) : State :=
  let s := s.measure 0 1 (shake256 s.boot.factory 32) true
  let s := s.measure 0 2 (shake256 (s.flashRead 0x80000 5376) 32) true
  let s := s.measure 0 3 (shake256 (s.boot.header.take 4096) 32) true
  let s := s.logFree 4 true
  let s := if s.boot.field.isEmpty then s else s.measure 0 5 (shake256 s.boot.field 32)
  s.logFree 7

/-- The straps that WHA samples at the release of its reset (R440). -/
def State.sampleWha (s : State) : State :=
  let s := s.setFld .SEC_BOOT_STATUS_BOOT_SRC (bits s.boot.straps 1 0)
  s.setFld .SEC_BOOT_STATUS_HOST_PRESENT (bits s.boot.straps 2 2)

/-- The straps that the hub die samples (R440), and what SEC_BOOT_STATUS and SEC_VERSION show of the boot. -/
def State.showBoot (s : State) : State :=
  let b := s.boot
  let s := s.setFld .SEC_BOOT_STATUS_PAIR_ROLE (bits b.straps 3 3)
  let s := s.setFld .SEC_BOOT_STATUS_SAFE_ALONE (bits b.straps 4 4)
  let s := s.setFld .SEC_BOOT_STATUS_CONFIG_VALID (if b.config.isEmpty then 0 else 1)
  let s := s.setFld .SEC_VERSION_VERSION_FLOOR (s.confField 12 4 0)
  s.setFld .SEC_VERSION_SECURITY_VERSION (fieldAt b.header 12 4)

/-- A fresh challenge shown (R459). -/
def State.newChallenge (s : State) : State :=
  (List.range 4).foldl (init := s) fun s k =>
    let (v, s) := s.free 64
    s.setFld .SEC_DEBUG_CHALLENGE_CHALLENGE v k

/-- The debug window closes (R459): no challenge, the mailbox zeroed. -/
def State.shutWindow (s : State) : State :=
  let s := (List.range 4).foldl (fun s k => s.setFld .SEC_DEBUG_CHALLENGE_CHALLENGE 0 k) s
  let s := (List.range 2048).foldl (fun s w => s.setFld .SEC_DEBUG_MAILBOX_WORD 0 w) s
  s.setFld .SEC_DEBUG_CTRL_WINDOW 0

/-- After the debug window (Table 14.10, R432): a wake to Night Market is checked and goes on with Night-close, with the domains
of the compute dies and the links up (R430); otherwise the
main-path start and, with a valid configuration record, the pilots begin. -/
def State.afterWindow (s : State) : State :=
  let main := fun (s : State) =>
    let s := { s with transition := .boot false }
    ((s.modBoot fun b => { b with stage := 4 }).startMain).startPilots
  match s.transition with
  | .boot true =>
    match s.nightRefused true with
    | none =>
      let s := (s.modBoot fun b => { b with stage := 0 }).raiseFabric
      { s with transition := .nightClose, since := s.now }
    | some n => main (s.report 0xC01 0 (some n))
  | _ => main s

/-- WHB out of reset takes its firmware at the row at 185 ms (R505). -/
def State.fetchWhb (s : State) : State :=
  let x := s.island 1
  if s.boot.released.getD 1 false && x.supplyOk && !x.alive then s.islandUp 1 else s

/-- Package A, and one strapped SAFE_ALONE, begins in command (R370). -/
def State.firstCommand (s : State) : State :=
  let alone := s.fld .SEC_BOOT_STATUS_PAIR_ROLE == 0 || s.fld .SEC_BOOT_STATUS_SAFE_ALONE == 1
  { s with safety := { s.safety with inCommand := alone } }

/-- The row at 400 ms (Table 14.10): the islands and the hub die run; the debug window opens. -/
def State.hubStart (s : State) : State :=
  let s := s.hubPower.modBoot fun b => { b with hub := true, evfin := some s.now }
  let s := s.showBoot
  let s := s.islandUp 0
  let s := s.fetchWhb.firstCommand
  let s := (s.takeIdentity.applyDevRecord).openLog
  if s.debugWindow = 0 then s.afterWindow
  else ((s.modBoot fun b => { b with stage := 3 }).setFld .SEC_DEBUG_CTRL_WINDOW 1).newChallenge

/-- The row at 185 ms (R511): WHA waits while a rail of the hub die is out of range. -/
def State.releaseHub (s : State) : State :=
  if (s.boot.rails.take 3).all id then s.hubStart else s.modBoot fun b => { b with stage := 2 }

/-- The image in flash and what it earns (R449). -/
def State.flashImage (s : State) : Option Nat :=
  imageCode s.rootKey (s.flashRead 0x100000 8192) (fun n => s.flashRead 0x102000 n) (s.confField 12 4 0)

/-- The rows from 12 ms to 185 ms (R449, R455, Table 14.1): the image, from flash or, where the straps allow it, from the host. -/
def State.bootImage (s : State) : State :=
  let src := bits s.boot.straps 1 0
  let code := if src = 1 then none else s.flashImage
  if src ≠ 1 ∧ code.isNone then
    State.releaseHub (s.modBoot fun b => { b with header := s.flashRead 0x100000 8192 })
  else if src < 2 ∧ bit s.boot.straps 2 then
    let s := match code with
      | some c => (s.bootReport c 2).setFld .SEC_XFER_STATUS_CODE c
      | none => s
    let s := (s.setDomain 34 true).setDomain 37 true
    (s.setFld .SEC_XFER_STATUS_STATE 1).modBoot fun b => { b with stage := 1 }
  else s.bootStop (code.getD 0xB03) 2

/-- The ROM's rows up to 12 ms (R441, R443, R447, R448). -/
def State.bootRom (s : State) : State :=
  let root := s.rootKey
  let f := s.flashRead 0x10000 14448
  if fieldAt f 0 4 ≠ 0x43455244 ∨ !rootOk root ∨ !factoryOk root f then s.bootStop 0xB02 2
  else
    let c := s.flashRead 0x80000 5376
    let ok := confOk root f c
    let s := s.modBoot fun b => { b with factory := f, config := if ok then c else [] }
    (if ok then s else s.bootReport 0xB05 2).bootImage

/-- What the islands keep over a reset of WHA: WHB in Drive holds the fallback alone, with the degradation requests and the restart
bookkeeping (R369, R374, R505); a WHB that runs keeps the command it has taken (R368); with no island running all of it starts afresh. -/
def State.keepIslands (s : State) (holds : Bool) : State :=
  if holds then { s with safety := { s.safety with holds := true } }
  else
    let other := (s.island 1).alive
    let f := { s.safety with holds := false, mrm := false, authority := 0, commander := if other then s.safety.commander else 0 }
    let f := { f with authSeq := if s.safety.authority = 0 then f.authSeq else (f.authSeq + 1) % 65536
                      restart := if other then f.restart else Restart.zero }
    { s with safety := f, degrade := Degrade.zero }

/-- The boot sequence from WHA's reset (R454). WHB in Drive holds the fallback alone meanwhile (R505). -/
def State.bootWha (s : State) : State :=
  let s := if s.domainOn 38 then s else s.aonReset
  let holds := s.inDrive && (s.island 1).alive
  let s := if (s.island 0).alive then s.islandLost 0 0x811 else s
  let s := (s.islandDown 0).hubReset
  let night := match s.transition with
    | .boot n => n
    | _ => false
  let s := s.keepIslands holds
  let s := { s with mode := .park, transition := .boot night, since := s.now, wake := { s.wake with ack := false } }
  let s := s.modBoot fun b => { b with factory := [], config := [], field := [], header := [], stopped := false }
  s.sampleWha.bootRom

/-- WHA_RESET_RELEASE (R404, R440, R454, R489, R511): WHA boots unless it has no supply. Whether a rail that was lost is back is
the board's doing: a free value (log 61). -/
def execWhaResetRelease (s : State) : Out :=
  let s := s.modBoot fun b => { b with released := setAt b.released 0 true }
  if !(s.island 0).supplyOk then .next s
  else
    let (v, s) := s.free 1
    let s := if v = 1 then s.modBoot fun b => { b with rails := List.replicate 4 true } else s
    .next s.bootWha

/-- PWR_SEQ_FAIL (R511): 1 s of waiting for a rail. -/
def execPwrSeqFail (s : State) : Out :=
  if s.boot.stage = 2 ∧ s.since + 1000000000 ≤ s.now then .next (s.bootStop 0xA60 2) else .next s

/-- DEBUG_WINDOW_CLOSE (R459, Table 14.10). -/
def execDebugWindowClose (s : State) : Out :=
  let due : Bool := match s.boot.evfin with
    | some t => decide (t + s.debugWindow ≤ s.now)
    | none => false
  if s.boot.stage ≠ 3 ∨ !due then .next s
  else
    let s := (s.shutWindow).modBoot fun b => { b with stage := 0 }
    match s.transition with
    | .boot _ => .next s.afterWindow
    | _ => .next s

/-- DRIVE_READY (R360, R448, R454): three pilot cycles on each island that is alive, the main-path start done, a valid
configuration record. -/
def execDriveReady (s : State) : Out :=
  let booting : Bool := match s.transition with
    | .boot _ => true
    | _ => false
  if !booting || s.boot.stage != 4 || s.swatch.fullPass || s.fld .HUB_CFG_INJECT_STATUS_DONE == 0 || s.boot.config.isEmpty ||
      !s.pilotsReady then .next s
  else
    let s := { s with safety := { s.safety with holds := false } }
    let s := (s.modBoot fun b => { b with stage := 0 }).enterDrive.logFree 8
    .next s.settleMode

/-- WHB_RESET_RELEASE (R505): WHB is reset; it takes its firmware from WHA, or over its purl link from the SRAM of a hub die that runs, or at the row at 185 ms of
a boot in progress. A commanding WHB has been replaced meanwhile. -/
def execWhbResetRelease (s : State) : Out :=
  let s := s.modBoot fun b => { b with released := setAt b.released 1 true }
  if !(s.island 1).supplyOk then .next s
  else
    let s := if (s.island 1).alive then s.islandLost 1 0x811 else s
    let s := s.islandDown 1
    .next (if (s.island 0).alive || (s.boot.hub && s.islandLink 1 && s.domainOn 37) then s.islandUp 1 else s)

/-! ## PCI Express reset and link (R290, R504, R506) -/

/-- PERST_ASSERT (R504): the rings act as for a link loss. -/
def execPerstAssert (s : State) : Out :=
  .next (s.dropLink.modBoot fun b => { b with released := setAt b.released 2 false })

/-- PERST_RELEASE (R506): link training starts; PCIE_LINK_UP ends it. -/
def execPerstRelease (s : State) : Out := .next (s.modBoot fun b => { b with released := setAt b.released 2 true })

/-- The rates, 2.5 to 32 GT/s as codes 1 to 5, and the lanes that the link trains at (R286). -/
def pcieTrains (speed width : Nat) : Bool := [1, 2, 3, 4, 5].contains speed && [1, 2, 4, 8].contains width

/-- PCIE_LINK_UP (R286, R430, R506): training has ended with a speed and a width, once PERST_N and the endpoint are out of reset. -/
def execPcieLinkUp (speed width : Nat) (s : State) : Out :=
  if s.host.linkUp || !s.boot.released.getD 2 false || !s.domainOn 34 || !pcieTrains speed width then .next s
  else
    let s := { s with host := { s.host with linkUp := true, speed := speed, width := width } }
    .next (if s.wake.untilLink then { s with wake := { s.wake with wakeN := none, untilLink := false } } else s)

/-! ## Wake (R430 to R433, R517) -/

/-- A cause recorded in PWR_WAKE_CAUSE: 0 to 3 WAKE_IN, 4 PCIE_WAKE_N, 5 alarm, 6 THERM_IN, 7 VAON. -/
def State.noteCause (s : State) (b : Nat) : State :=
  if b < 4 then s.setFld .PWR_WAKE_CAUSE_PIN (s.fld .PWR_WAKE_CAUSE_PIN ||| 2 ^ b)
  else if b = 4 then s.setFld .PWR_WAKE_CAUSE_PCIE 1
  else if b = 5 then s.setFld .PWR_WAKE_CAUSE_ALARM 1
  else if b = 6 then s.setFld .PWR_WAKE_CAUSE_THERM 1 else s.setFld .PWR_WAKE_CAUSE_VAON 1

/-- Does a wake by a source lead to Night Market (R432)? -/
def State.toNight (s : State) (b : Nat) : Bool :=
  if b < 4 then bit (s.fld .PWR_WAKE_TARGET_PIN_NM) b
  else if b = 4 then s.fld .PWR_WAKE_TARGET_PCIE_NM == 1 else s.fld .PWR_WAKE_TARGET_ALARM_NM == 1

/-- The wake sequence begins (R430, R431): PARK_ACK is released and the board restores every rail; a wake by the device's own
pins drives PCIE_WAKE_N low until the link is up, or for 1 s. The boot follows the release of WHA_RST_N. -/
def State.startWake (s : State) (b : Nat) : State :=
  let w := if b < 4 then { s.wake with ack := false, wakeN := some (s.now + 1000000000), untilLink := true, pending := none }
    else { s.wake with ack := false, pending := none }
  let s := { s with transition := .boot (s.toNight b), since := s.now, wake := w }
  (s.modBoot fun x => { x with rails := List.replicate 4 true }).report 0xA41 0

/-- A wake source (R430, R517): from Park it wakes; during the Park sequence and a wake it is recorded. -/
def State.wakeBy (s : State) (b : Nat) : State :=
  match s.transition with
  | .park => let s := s.noteCause b; { s with wake := { s.wake with pending := some (s.wake.pending.getD b) } }
  | .boot _ => s.noteCause b
  | .none => if s.mode = .park ∧ s.wake.ack then (s.noteCause b).startWake b else s
  | _ => s

/-- WAKE_IN_EDGE (R430, R482): an enabled edge; in Night Market it is a wake request. -/
def execWakeInEdge (pin : Fin 4) (rising : Bool) (s : State) : Out :=
  if !bit (s.fld .PWR_WAKE_CFG_ENABLE) pin || bit (s.fld .PWR_WAKE_CFG_POLARITY) pin == rising then .next s
  else if s.mode = .nightMarket ∨ s.transition = .nightClose then .next ((s.noteCause pin).nightWake false)
  else .next (s.wakeBy pin)

/-- PCIE_WAKE_IN (R430): PCIE_WAKE_N pulled low by another agent, so not while the device itself drives it. -/
def execPcieWakeIn (s : State) : Out := if s.wake.wakeN.isSome then .next s else .next (s.wakeBy 4)

/-- WAKE_ALARM (R430): the time base has reached ALARM since the Park sequence began. -/
def execWakeAlarm (s : State) : Out :=
  let t := s.fld .PWR_WAKE_CFG_ALARM * 256
  if t = 0 ∨ s.now < t ∨ t < s.since then .next s else .next (s.wakeBy 5)

/-- A trip in Park that is no wake (R433): its cause, and PCIE_WAKE_N low for 1 s. -/
def State.parkTrip (s : State) (b : Nat) : State :=
  if s.mode = .park ∧ s.wake.ack then
    let s := s.noteCause b
    { s with wake := { s.wake with wakeN := some (s.now + 1000000000), untilLink := false } }
  else s

/-- THERM_IN_TRIP (R433). -/
def execThermInTrip (s : State) : Out := .next (s.parkTrip 6)

/-- VAON_MONITOR_TRIP (R428, R433): an undervoltage resets the always-on domain; in Park its cause is recorded and the device stays there. -/
def execVaonMonitorTrip (s : State) : Out :=
  .next (State.parkTrip { s.aonReset with wake := { s.aonReset.wake with ack := s.wake.ack } } 7)

/-- PCIE_WAKE_N_RELEASE (R430, R433): when its time is over. -/
def execPcieWakeNRelease (s : State) : Out :=
  match s.wake.wakeN with
  | some t =>
    if t ≤ s.now then .next { s with wake := { s.wake with wakeN := none, untilLink := false } } else .next s
  | none => .next s

/-! ## Park (R429, R517) -/

/-- Every record on the islands written to the host log (R429). -/
def State.flushErrors (s : State) : State :=
  let q := s.safety.errq
  let s := (q.handling ++ q.queue ++ q.inFlight).foldl (fun s r => s.hostLog r r.handling) s
  s.modErrq fun q => { q with handling := [], queue := [], inFlight := [] }

/-- PARK_ENTRY_DONE (R429, R436, R517): programs that still run are killed, Drive is left, the error log and the wear record are
written, the domains are switched off, and the mode requests that waited are judged (R4). A wake source that came meanwhile takes the
place of PARK_ACK, and the device boots at once. -/
def execParkEntryDone (s : State) : Out :=
  if s.transition ≠ .park ∨ !s.pfEnded then .next s
  else
    let s := (s.killFunction 0 0x120 0).leaveDrive.flushErrors
    let s := { s.enterPark with since := s.now }
    match s.wake.pending with
    | some b => .next (s.settleMode.startWake b).bootWha
    | none => .next s.settleMode

/-! ## Wear (R434 to R436) -/

/-- WEAR_LEDGER_MINUTE (R434, R435, R436): the highest consumed life over all monitors, which never falls below what the ledger
holds; the hours of the mode; the ledger's states logged. -/
def execWearLedgerMinute (monitors : List WearReading) (s : State) : Out :=
  if !s.boot.hub then .next s
  else
    let s := s.countLife
    let top := (monitors.map lifeOf).foldl (fun (b : Nat × Nat) m => if b.2 < m.2 then m else b) (s.wear.worst, s.wear.consumed)
    let s := s.modWear fun w => { w with
      consumed := top.2, worst := top.1,
      driveS := w.driveS + (if s.mode = .drive then 60 else 0), nightS := w.nightS + (if s.mode = .nightMarket then 60 else 0) }
    .next s.logWear.showWear

/-- WEAR_RECORD_HOURLY (R436): in Drive and Night Market. -/
def execWearRecordHourly (writeOk : Bool) (s : State) : Out :=
  if s.mode ≠ .drive ∧ s.mode ≠ .nightMarket then .next s
  else if writeOk then .next (s.countLife.writeWear false) else .next (s.report 0xA52 1)

/-! ## Loss of a rail (R512, Table 17.9) -/

/-- Power is lost while flash is written: the content is invalid (R455). -/
def State.spoilFlash (s : State) : State :=
  match s.boot.writing with
  | some (a, l) => (s.flashErase a l.length).modBoot fun b => { b with writing := none }
  | none => s

/-- A rail of the hub die and the compute dies is lost: they stop, and what they and the memory held is gone; the islands hold
the fallback. A record or image being written is invalid (R455). -/
def State.hubStop (s : State) : State :=
  let s := { s.spoilFlash.dropLink.hubReset with mem := [] }
  { s with transition := (match s.transition with | .boot _ | .park => .none | t => t) }

/-- The index of a rail of Table 13.1 among those the boot checks. -/
def hubRail : Rail → Nat
  | .vinCore => 0
  | .vinHbm => 1
  | .vinIo => 2
  | _ => 3

/-- RAIL_LOSS (R21, R354, R512): after PARK_ACK a rail other than VAON may be removed. -/
def execRailLoss (rail : Rail) (s : State) : Out :=
  match rail with
  | .vaon => .next s.aonReset
  | .vinWha => .next (if s.wake.ack then s else (s.spoilFlash.supplyLost 0).modBoot fun b => { b with whaCycled := true })
  | .vinWhb => .next (if s.wake.ack then s else s.supplyLost 1)
  | r =>
    let s := s.modBoot fun b => { b with rails := setAt b.rails (hubRail r) false }
    .next (if s.boot.hub || s.boot.stage != 0 then s.hubStop else s)

/-! ## Status and open-drain balls (R191, R429, R433, R499, R502) -/

/-- HD_STAT: high while Evfin runs on the control cluster. -/
def State.hdStat (s : State) : Ball := if s.boot.hub && s.boot.evfin.isSome then .high else .highZ

/-- WHA_STAT and WHB_STAT: high while the island runs its firmware and its lockstep comparator has not failed. -/
def State.whStat (s : State) (i : Nat) : Ball :=
  if (s.island i).supplyOk && (s.island i).alive && !(s.island i).failSignal then .high else .highZ

/-- The trigger outputs of an island (R191, R355): high-impedance until its pilot first runs, then high during a pulse; the manual gives
them no polarity (log 113). -/
def State.islandTrigBall (s : State) (i : Nat) : Ball :=
  let t := (s.island i).trig
  if !(s.island i).alive || !t.driven then .highZ else if t.pulseEnd.isSome then .high else .low

/-- TRIG_OUT: high-impedance until ENABLE is first set, then the active level during a pulse and the inactive one otherwise. -/
def State.trigBall (s : State) (line : Nat) : Ball :=
  let t := s.trig line
  let active := t.pulseEnd.isSome
  if !s.boot.hub || !t.driven then .highZ
  else if active == (s.fld .SENS_TRIG_CTRL_POLARITY line == 0) then .high else .low

/-- PARK_ACK, open drain and active low. -/
def State.parkAckBall (s : State) : Ball := if s.wake.ack then .low else .highZ

/-- PCIE_WAKE_N, open drain. -/
def State.pcieWakeBall (s : State) : Ball := if s.wake.wakeN.isSome then .low else .highZ

end Sys2Proof.Machine
end

