-- ==== Sys2Proof/Machine/Net.lean ====
section
/-!
DEFINITION. Machine/Net.lean: the Ethernet MACs (16, R491 to R494): bringing a MAC up and down, scheduled gates, frames and
credit-based shaping.
-/

namespace Sys2Proof.Machine

/-- The transmit side of MAC `n`. -/
def State.mac (s : State) (n : Nat) : MacTx := s.macTx.getD n MacTx.zero

/-- The transmit side of MAC `n` replaced. -/
def State.setMac (s : State) (n : Nat) (m : MacTx) : State := { s with macTx := setAt s.macTx n m }

/-! ## Up and down -/

/-- Does MAC `n` support the rate code (NET_MAC_CFG: 10 Gb/s on MACs 0 to 3, 1 or 2.5 Gb/s on MACs 4 and 5)? -/
def speedOk (n code : Nat) : Bool := if n < 4 then code == 2 else code < 2

/-- Are the settings of MAC `n` such that it may be brought up (R491)? -/
def State.macCfgOk (s : State) (n speed maxFrame : Nat) : Bool :=
  let addr := s.fld .NET_MAC_ADDR_ADDR n
  1518 ≤ maxFrame && maxFrame ≤ 9216 && addr != 0 && !bit addr 40 && speedOk n speed

/-- ENABLE of NET_MAC_CFG set together with the fields written beside it (R491). -/
def State.macUp (s : State) (n speed maxFrame : Nat) : State :=
  if s.fld .NET_MAC_CFG_ENABLE n = 1 then s
  else if s.macCfgOk n speed maxFrame then
    let s := s.setFld .NET_MAC_CFG_MAX_FRAME maxFrame n
    let s := if n < 4 then s else s.setFld .NET_MAC_CFG_SPEED speed n
    s.setFld .NET_MAC_CFG_ENABLE 1 n
  else s.refuse .NET_MAC_CFG 0x360 n

/-- Is MAC `n` used by an enabled stream context or by gPTP (R491)? -/
def State.macInUse (s : State) (n : Nat) : Bool :=
  (List.range 128).any (fun c =>
    s.fld .SENS_STREAM_CTX_ENABLE c == 1 && s.fld .SENS_STREAM_CTX_KIND c == 1 && s.fld .SENS_STREAM_CTX_PORT c == n) ||
  (s.fld .TIME_CFG_GPTP_EN == 1 && bit (s.fld .TIME_CFG_PORT_MASK) n)

/-- ENABLE of NET_MAC_CFG cleared (R491). -/
def State.macDown (s : State) (n : Nat) : State :=
  if s.macInUse n then s.refuse .NET_MAC_CFG 0x004 n else s.setFld .NET_MAC_CFG_ENABLE 0 n

/-- NET_MAC_ENABLE (R491): ENABLE set, the other settings as they stand. -/
def execNetMacEnable (mac : Fin 6) (s : State) : Out :=
  .next (s.macUp mac (s.fld .NET_MAC_CFG_SPEED mac) (s.fld .NET_MAC_CFG_MAX_FRAME mac))

/-- NET_MAC_DISABLE (R491). -/
def execNetMacDisable (mac : Fin 6) (s : State) : Out := .next (s.macDown mac)

/-- CLR_NET_CNT: bit 5n + k of NET_CNT_CLR (16). -/
def execClrNetCnt (mac : Fin 6) (k : Fin 5) (s : State) : Out := .next (s.setFld .NET_MAC_CNT_COUNT 0 mac k)

/-! ## Scheduled gates (R492) -/

/-- Entry `e` of the administrative list of MAC `n`. -/
def State.adminEntry (s : State) (n e : Nat) : Nat × Nat := (s.fld .NET_QBV_GCL_GATES n e, s.fld .NET_QBV_GCL_INTERVAL n e)

/-- The administrative list of MAC `n`, `len` entries long. -/
def State.adminList (s : State) (n len : Nat) : List (Nat × Nat) := (List.range len).map (s.adminEntry n)

/-- Does the administrative list pass the checks of R492? -/
def State.adminOk (s : State) (n len : Nat) : Bool :=
  let cycle := s.fld .NET_QBV_CYCLE_ADMIN_CYCLE n
  1 ≤ len && len ≤ 256 && 1000 ≤ cycle && cycle ≤ 1000000000 && (s.adminList n len).all fun e => 32 ≤ e.2

/-- CHANGE = 1 written, with the ADMIN_LEN written beside it (R492). -/
def State.qbvChange (s : State) (n len : Nat) : State :=
  if s.fld .NET_QBV_CTRL_PENDING n = 1 then s.refuse .NET_QBV_CTRL 0x004 n
  else if s.adminOk n len then
    let t := firstCycle (s.fld .NET_QBV_BASE_ADMIN_BASE_TIME n) (s.fld .NET_QBV_CYCLE_ADMIN_CYCLE n) (s.now + 10000)
    let s := (s.setFld .NET_QBV_CTRL_ADMIN_LEN len n).setFld .NET_QBV_CTRL_PENDING 1 n
    s.setMac n { s.mac n with change := some t }
  else s.refuse .NET_QBV_CTRL 0x360 n

/-- CHANGE (R492), with the list as it stands. -/
def execChange (mac : Fin 6) (s : State) : Out := .next (s.qbvChange mac (s.fld .NET_QBV_CTRL_ADMIN_LEN mac))

/-- Entry `e`, which starts at `t` in a cycle that ends at `stop`: it is cut at the end of the cycle, and the last entry lasts
until then (R492). -/
def MacTx.enter (m : MacTx) (e t stop : Nat) : MacTx :=
  let (g, d) := m.oper.getD e (255, 0)
  { m with gates := g, entry := e, cycleEnd := stop,
           entryEnd := if e + 1 < m.oper.length then min stop (t + d) else stop }

/-- QBV_CHANGE_TIME (R492): the administrative list becomes operational, and its gates with it where GATE_EN is set. -/
def execQbvChangeTime (mac : Fin 6) (s : State) : Out :=
  match (s.mac mac).change with
  | none => .next s
  | some t =>
    if s.now < t then .next s
    else
      let cycle := s.fld .NET_QBV_CYCLE_ADMIN_CYCLE mac
      let list := s.adminList mac (s.fld .NET_QBV_CTRL_ADMIN_LEN mac)
      let run := s.fld .NET_QBV_CTRL_GATE_EN mac == 1
      let m : MacTx := { s.mac mac with oper := list, cycle := cycle, base := s.fld .NET_QBV_BASE_ADMIN_BASE_TIME mac,
                                        origin := t, running := run, change := none }
      let s := (s.setFld .NET_QBV_CTRL_OPER_VALID 1 mac).setFld .NET_QBV_CTRL_PENDING 0 mac
      .next (s.setMac mac (m.enter 0 t (t + cycle)))

/-- The entry after the present one: the next of the list, or the first of the next cycle (R492). -/
def MacTx.nextEntry (m : MacTx) : MacTx :=
  if m.entry + 1 < m.oper.length ∧ m.entryEnd < m.cycleEnd then m.enter (m.entry + 1) m.entryEnd m.cycleEnd
  else m.enter 0 m.cycleEnd (m.cycleEnd + m.cycle)

/-- QBV_GATE_ENTRY (R492): the next entry of an operational list sets the gate states. -/
def execQbvGateEntry (mac : Fin 6) (s : State) : Out :=
  let m := s.mac mac
  if m.oper ≠ [] ∧ m.entryEnd ≤ s.now then .next (s.setMac mac m.nextEntry) else .next s

/-! ## Frames (R493) -/

/-- The gates in force: all of them open until a list runs (R492). -/
def MacTx.gatesNow (m : MacTx) : Nat := if m.running then m.gates else 255

/-- The entries of one cycle as they run: cut at its end, the last one lasting until then (R492). -/
def trimmed : List (Nat × Nat) → Nat → List (Nat × Nat)
  | [], _ => []
  | [(g, _)], left => [(g, left)]
  | (g, d) :: l, left => if left ≤ d then [(g, left)] else (g, d) :: trimmed l (left - d)

/-- Time for which the gate of class `c` stays open over the first entries of a list. -/
def openRun (c : Nat) : List (Nat × Nat) → Nat
  | [] => 0
  | (g, d) :: l => if bit g c then d + openRun c l else 0

/-- The longest opening of class `c` that starts at an entry of the list. -/
def longestRun (c : Nat) : List (Nat × Nat) → Nat
  | [] => 0
  | (g, d) :: l => max (openRun c ((g, d) :: l)) (longestRun c l)

/-- Is the gate of class `c` open in every entry? -/
def MacTx.neverCloses (m : MacTx) (c : Nat) : Bool := !m.running || (trimmed m.oper m.cycle).all fun e => bit e.1 c

/-- For how long the gate of class `c`, open at `now`, stays open. -/
def MacTx.openFor (m : MacTx) (c now : Nat) : Nat :=
  let l := trimmed m.oper m.cycle
  (m.entryEnd - now) + openRun c (l.drop (m.entry + 1) ++ l)

/-- Line time of a frame in tenths of a ns: preamble, start delimiter, frame and inter-frame gap at the MAC rate (R493). -/
def lineTime (speed bytes : Nat) : Nat := (bytes + 20) * (if speed = 2 then 8 else if speed = 1 then 32 else 80)

/-- Does a frame of this line time complete before its class's gate closes, if it starts at `now` (R493)? -/
def MacTx.fits (m : MacTx) (c now line : Nat) : Bool :=
  bit m.gatesNow c && (m.neverCloses c || line ≤ 10 * m.openFor c now)

/-- Has a frame queued at `q` waited one whole operational cycle with no opening that is long enough (R493)? -/
def MacTx.hopeless (m : MacTx) (c q now line : Nat) : Bool :=
  m.running && m.cycle ≤ now - max q m.origin && !m.neverCloses c &&
  (let l := trimmed m.oper m.cycle
   10 * longestRun c (l ++ l) < line)

/-! ## Credit-based shaping (R494) -/

/-- The MAC rate in kb/s. -/
def rateOf (speed : Nat) : Nat := if speed = 2 then 10000000 else if speed = 1 then 2500000 else 1000000

/-- Open time of class `c` within the first `t` ns of a cycle. -/
def openIn (c : Nat) : List (Nat × Nat) → Nat → Nat
  | [], _ => 0
  | (g, d) :: l, t => (if bit g c then min d t else 0) + openIn c l (t - d)

/-- Open time of class `c` from the origin of the list until `t`. -/
def MacTx.openUntil (m : MacTx) (c t : Nat) : Nat :=
  let l := trimmed m.oper m.cycle
  let n := t - m.origin
  n / m.cycle * openIn c l m.cycle + openIn c l (n % m.cycle)

/-- Open time of class `c` from `a` to `b`, by the list in force (log 70): before it took effect every gate counts as open. -/
def MacTx.openTime (m : MacTx) (c a b : Nat) : Nat :=
  if m.running then (min b m.origin - min a m.origin) + (m.openUntil c b - m.openUntil c a) else b - a

/-- The credit of class `c` at `now` for a frame that has waited since `q`: nothing waited before that, so credit above 0
fell to 0; it grows with idleSlope while the gate is open, up to hiCredit (R494, IEEE 802.1Q; log 70). -/
def MacTx.creditFor (m : MacTx) (c q now idle hi : Nat) : Int :=
  let t := m.creditAt.getD c 0
  let k := m.credit.getD c 0
  let rise := fun (a b : Nat) => ((10 * idle * m.openTime c a b : Nat) : Int)
  let k := if t < q then min 0 (k + rise t (min q now)) else k
  min (hi : Int) (k + rise (max q t) now)

/-- hiCredit, or −loCredit, that MAX_FRAME gives for a slope (IEEE 802.1Q), in 10⁻⁷ bits (log 70). -/
def creditLimit (maxFrame slope speed : Nat) : Nat := slope * lineTime speed maxFrame

/-- The traffic class of a frame (NET_TC_MAP): untagged frames use class 0. -/
def State.classOf (s : State) (n : Nat) (tagged : Bool) (pcp : Nat) : Nat :=
  if tagged then bits (s.fld .NET_TC_MAP_PCP_TC n) (3 * pcp + 2) (3 * pcp) else 0

/-- Credit of class `c` of MAC `n` for a frame queued at `q` (R494); an unshaped class needs none. -/
def State.shapedCredit (s : State) (n c q : Nat) : Int :=
  let idle := s.fld .NET_QAV_IDLE_SLOPE n c
  let hi := creditLimit (s.fld .NET_MAC_CFG_MAX_FRAME n) idle (s.fld .NET_MAC_CFG_SPEED n)
  if s.fld .NET_QAV_EN n c = 1 then (s.mac n).creditFor c q s.now idle hi else 0

/-- The frame goes out: the line is taken, and a shaped class pays with sendSlope, no lower than loCredit (R494). -/
def State.sendFrame (s : State) (n c line : Nat) (credit : Int) : State :=
  let speed := s.fld .NET_MAC_CFG_SPEED n
  let send := rateOf speed - s.fld .NET_QAV_IDLE_SLOPE n c
  let lo : Int := creditLimit (s.fld .NET_MAC_CFG_MAX_FRAME n) send speed
  let m := s.mac n
  let done := s.now + ceilDiv line 10
  let m := { m with busy := done }
  let m := if s.fld .NET_QAV_EN n c = 1 then
      { m with credit := setAt m.credit c (max (-lo) (credit - (send * line : Nat))), creditAt := setAt m.creditAt c done }
    else m
  (s.setMac n m).count .NET_MAC_CNT_COUNT n 3

/-- ETH_FRAME_TX (R493, R494): a frame that waits since `queuedAt` starts, is discarded, or goes on waiting; one longer than
MAX_FRAME is never sent (NET_MAC_CFG). -/
def execEthFrameTx (mac : Fin 6) (tagged : Bool) (pcp : Fin 8) (bytes queuedAt : Nat) (s : State) : Out :=
  let m := s.mac mac
  let c := s.classOf mac tagged pcp
  let line := lineTime (s.fld .NET_MAC_CFG_SPEED mac) bytes
  if s.fld .NET_MAC_CFG_ENABLE mac ≠ 1 ∨ !s.domainOn 33 ∨ s.fld .NET_MAC_CFG_MAX_FRAME mac < bytes ∨ s.now < queuedAt then
    .next s
  else if m.hopeless c queuedAt s.now line then .next (s.count .NET_MAC_CNT_COUNT mac 4)
  else
    let k := s.shapedCredit mac c queuedAt
    if m.busy ≤ s.now ∧ m.fits c s.now line ∧ 0 ≤ k then .next (s.sendFrame mac c line k) else .next s

/-- The IDLE_SLOPE values of the shaped classes of MAC `n` other than `c`, added up (R494). -/
def State.slopesBut (s : State) (n c : Nat) : Nat :=
  (List.range 8).foldl (init := 0) fun (a : Nat) (k : Nat) =>
    if k ≠ c ∧ s.fld .NET_QAV_EN n k = 1 then a + s.fld .NET_QAV_IDLE_SLOPE n k else a

/-- EN and IDLE_SLOPE of a class written (R494): what would reserve more than 75 % of the MAC rate is refused. A class that
becomes shaped starts with no credit (IEEE 802.1Q). -/
def State.qavSet (s : State) (n c en slope : Nat) : State :=
  if en = 1 ∧ rateOf (s.fld .NET_MAC_CFG_SPEED n) * 3 < 4 * (s.slopesBut n c + slope) then s.refuse .NET_QAV 0x360 n c
  else
    let m := s.mac n
    let m := if en = 1 ∧ s.fld .NET_QAV_EN n c = 0 then
        { m with credit := setAt m.credit c 0, creditAt := setAt m.creditAt c s.now }
      else m
    ((s.setMac n m).setFld .NET_QAV_EN en n c).setFld .NET_QAV_IDLE_SLOPE slope n c

/-- QAV_ENABLE (R494): EN set, with IDLE_SLOPE as it stands. -/
def execQavEnable (mac : Fin 6) (cls : Fin 8) (s : State) : Out :=
  .next (s.qavSet mac cls 1 (s.fld .NET_QAV_IDLE_SLOPE mac cls))

end Sys2Proof.Machine
end

