-- ==== Sys2Proof/Machine/RegRead.lean ====
section
/-!
DEFINITION. Machine/RegRead.lean: what a register access reads (R11 to R13, R485, R489): fields that report a unit's state, fields
held in the register table, and the accesses that are not performed (R12).
-/

namespace Sys2Proof.Machine

/-- A condition as a field of one bit. -/
def flag (b : Bool) : Nat := if b then 1 else 0

/-- Bits 0 to n − 1, each set where the condition holds. -/
def maskBits (n : Nat) (p : Nat → Bool) : Nat := ((List.range n).filter p).foldl (fun m k => m + 2 ^ k) 0

/-! ## Fields that report a unit's state -/

/-- Fields of SENS and TIME. -/
def State.viewSens (s : State) (f : Fld) (i j : Nat) : Nat :=
  match f with
  | .SENS_STREAM_STATUS_RUN => min 255 (s.ctx i).run
  | .SENS_STREAM_STATUS_STATE => if s.ctxOn i then (s.ctx i).health else 2
  | .SENS_DEGRADE_STATUS_LOST_GROUPS => maskBits 16 s.groupLost
  | .SENS_DEGRADE_STATUS_BLIND => maskBits 8 s.blind
  | .SENS_DEGRADE_STATUS_SENSING_STEP => s.sensingStep
  | .SENS_DEGRADE_STATUS_STEP => s.degrade.step
  | .TIME_NOW_NOW => s.now
  | .TIME_STATUS_OFFSET => unsign 32 s.timeBase.offset
  | .TIME_STATUS_FREQ_ADJ => unsign 16 s.timeBase.freqAdj
  | .TIME_STATUS_STATE => s.timeBase.state
  | f => s.fld f i j

/-- Fields of PLAN and MEM. -/
def State.viewPlan (s : State) (f : Fld) (i j : Nat) : Nat :=
  let p := s.planner
  match f with
  | .PLAN_STATUS_ACTIVE_EPOCH => (p.inState 3).elim 0 fun b => p.epochs.getD b 0
  | .PLAN_STATUS_KEEP_COUNT => p.keep
  | .PLAN_STATUS_WINNER_RUN => min 255 p.run
  | .PLAN_STATUS_D4_REQUEST => flag p.d4
  | .PLAN_STATUS_BUF1_STATE => p.states.getD 1 0
  | .PLAN_STATUS_BUF0_STATE => p.states.getD 0 0
  | .PLAN_STATUS_LANES => s.lanesUp
  | .MEM_ADMIT_STATUS_SHED_COUNT => s.memSys.shed.length
  | .MEM_ADMIT_STATUS_HOT_HS1 => flag (s.hot 1)
  | .MEM_ADMIT_STATUS_HOT_HS0 => flag (s.hot 0)
  | .MEM_ADMIT_STATUS_IN_SERVICE => s.inService 0 + s.inService 1
  | .MEM_ADMIT_STATUS_L_SLOT => s.lSlot
  | .MEM_WIN_BOOK_BYTES => s.booked i
  | .MEM_PAIR_STATUS_OFFSET => unsign 32 (clampInt (-2147483648) 2147483647 s.pair.offset)
  | .MEM_PAIR_STATUS_ADVISORY => flag s.pair.advisory
  | .MEM_PAIR_STATUS_PEER_ROLE => flag s.pair.peerRole
  | .MEM_PAIR_STATUS_ROLE => s.pairRole
  | .MEM_PAIR_STATUS_STATE => s.pair.state
  | f => s.viewSens f i j

/-- The rings of a function that are ACTIVE or DRAINING. -/
def State.ringsActive (s : State) (fn : Nat) : Nat :=
  (s.host.rings.filter fun e => e.1 / 256 == fn && (e.2.phase == .active || e.2.phase == .draining)).length

/-- Fields of RING, PCIE, the markers and the VF registers. -/
def State.viewHost (s : State) (f : Fld) (i j : Nat) : Nat :=
  let h := s.host
  match f with
  | .RING_STATUS_STATE => (s.ring i j).phase.code
  | .RING_STATUS_LAST_ERROR => (s.ring i j).lastError
  | .RING_STATUS_FETCH_HEAD => (s.ring i j).head
  | .HUB_CFG_MARKER_VAL_VALUE => s.marker i
  | .VF_MARKER_GROUPS_GROUPS => maskBits 64 fun g => s.fld .HUB_CFG_MARKER_OWNER_FUNCTION (64 * j + g) == i
  | .PCIE_LINK_STATUS_DOWN_COUNT => h.downCount
  | .PCIE_LINK_STATUS_WIDTH => h.width
  | .PCIE_LINK_STATUS_SPEED => h.speed
  | .PCIE_LINK_STATUS_UP => flag h.linkUp
  | .PCIE_FN_STATUS_ENABLED => flag (i == 0 || decide (i ≤ h.numVfs))
  | .PCIE_FN_STATUS_FLR_BUSY => flag (h.flrBusy.contains i)
  | .PCIE_FN_STATUS_BUS_MASTER => flag (h.busMaster.contains i)
  | .PCIE_FN_STATUS_RINGS_ACTIVE => s.ringsActive i
  | f => s.viewPlan f i j

/-- Fields of SAFE once an island's heartbeat has come since the last hub-die reset (Table 16.3): what the commanding island
holds. -/
def State.viewSafe (s : State) (f : Fld) (i j : Nat) : Nat :=
  let y := s.safety
  let e := y.errq
  let alive := s.aliveBits y.commander
  match f with
  | .SAFE_STATUS_AUTH_SEQ => y.authSeq
  | .SAFE_STATUS_LAST_CODE => e.lastCode
  | .SAFE_STATUS_LAST_SEV => e.lastSev
  | .SAFE_STATUS_IN_COMMAND => flag y.inCommand
  | .SAFE_STATUS_MRM_REQUESTED => flag y.mrm
  | .SAFE_STATUS_RESTARTING => flag (y.restart.state == 1)
  | .SAFE_STATUS_CROSS_LINK_UP => flag (bit alive 3)
  | .SAFE_STATUS_WHB_ALIVE => flag (bit alive 1)
  | .SAFE_STATUS_WHA_ALIVE => flag (bit alive 0)
  | .SAFE_STATUS_COMMANDER => y.commander
  | .SAFE_STATUS_STEP => s.degrade.step
  | .SAFE_STATUS_AUTHORITY => y.authority
  | .SAFE_ERRQ_STATUS_NOTES_BYPASSED => min 65535 e.notesBypassed
  | .SAFE_ERRQ_STATUS_PREEMPTIONS => min 65535 e.preemptions
  | .SAFE_ERRQ_STATUS_MAX_DEPTH => e.maxDepth
  | .SAFE_ERRQ_STATUS_DEPTH => e.depth
  | .SAFE_RESTART_LAST_DURATION => y.restart.lastDuration
  | .SAFE_RESTART_TOTAL => min 65535 y.restart.total
  | .SAFE_RESTART_IN_WINDOW => min 15 s.restartWindow.length
  | .SAFE_RESTART_STATE => y.restart.state
  | f => s.viewHost f i j

/-- Does a swatch run in quadrant `q` of die `d`? -/
def State.swatchIn (s : State) (d q : Nat) : Bool :=
  s.holding.any fun x => match slicePlace x.ref with
    | some (d', some t) => d' == d && quadrantOf (s.physOf d t) == q
    | _ => false

/-- Is a power domain of Table 13.2 on (R405, R406)? -/
def State.domainPowered (s : State) (k : Nat) : Bool :=
  if k < 30 then
    let d := k / 5
    s.fabric.dieOn.getD d false && (k % 5 == 4 || s.quadrantOn d (k % 5) || s.swatchIn d (k % 5) || s.mainStarting)
  else if 39 ≤ k ∧ k < 43 then
    let x := s.island ((k - 39) / 2)
    x.supplyOk && (x.alive || s.boot.hub) && (k % 2 == 1 || x.accelOk)
  else s.domainOn k

/-- Fields of PWR. -/
def State.viewPower (s : State) (f : Fld) (i j : Nat) : Nat :=
  let t := s.thermal
  let seen := fun (n : Nat) => (t.input n).lost || ((t.input n).raw).isSome
  match f with
  | .PWR_STATUS_BUDGET => s.power.budget / 10
  | .PWR_STATUS_DEMAND => s.demand / 10
  | .PWR_STATUS_SHED => s.power.sheds.length
  | .PWR_STATUS_REASON => s.power.reason
  | .PWR_STATUS_COOLING_DEGRADED => flag t.degraded
  | .PWR_STATUS_STEP => s.fabric.step
  | .PWR_STATUS_MODE => s.mode.code
  | .PWR_DOMAINS_ON => maskBits 44 s.domainPowered
  | .PWR_COOLANT_LOST => maskBits 3 fun n => (t.input n).lost
  | .PWR_COOLANT_FLOW => if seen 2 then (clampInt 0 65535 s.flowNow).toNat else 0
  | .PWR_COOLANT_OUTLET => unsign 16 (clampInt (-32768) 32767 ((s.sentNow 1 16).getD 0))
  | .PWR_COOLANT_INLET => if seen 0 then unsign 16 (clampInt (-32768) 32767 s.inletNow) else 0
  | .PWR_RAIL_VALID => flag (s.railValid i)
  | .PWR_RAIL_IOUT => min 65535 (((s.railReadings i).map (·.iout)).foldl (· + ·) 0)
  | .PWR_RAIL_VOUT => (s.railReadings i).foldl (fun m r => if m = 0 ∨ r.vout < m then r.vout else m) 0
  | f => if s.safety.mirrored then s.viewSafe f i j else s.viewHost f i j

/-- The target in service that was covered longest ago (Table 12.1). -/
def State.oldestTarget (s : State) : Option Nat :=
  (targetIds.filter s.targetUp).foldl (init := none) fun (m : Option Nat) (t : Nat) =>
    match m with
    | some x => if s.lastCover t < s.lastCover x then some t else some x
    | none => some t

/-- What HUB_CFG_NM_STATUS shows of the mode. -/
def State.nightPhase (s : State) : Nat :=
  match s.transition with
  | .nightClose => 1
  | .dayOpen .. => 3
  | _ => if s.mode = .nightMarket then 2 else 0

/-- The state of a hub-die CAN controller (R381, R495): 0 off, 1 error active, 3 bus-off; controllers 2 and 3 are reserved. -/
def State.canState (s : State) (k : Nat) : Nat :=
  if !s.boot.hub || 2 ≤ k then 0 else if s.safety.canOff.getD k false then 3 else 1

/-- The value of a field that reads as its state (Table 0.2): a view of a unit where the field reports one, else what the register
holds. -/
def State.view (s : State) (f : Fld) (i j : Nat) : Nat :=
  match f with
  | .HUB_CFG_BEAT_COUNT_BEAT => s.fabric.beat
  | .HUB_CFG_SWATCH_STATUS_OLDEST_AGE =>
    s.oldestTarget.elim 0 fun t => min 4294967295 ((s.now - s.lastCover t) / 1000000)
  | .HUB_CFG_SWATCH_STATUS_OLDEST_TARGET => s.oldestTarget.getD 0
  | .HUB_CFG_SWATCH_STATUS_RUNNING => s.holding.length
  | .HUB_CFG_SWATCH_STATUS_TARGETED => min 255 (s.gauge.targets.length + s.swatch.booked.length)
  | .HUB_CFG_GAUGE_FIRST_TIME_TIME =>
    let t := s.fld .HUB_CFG_GAUGE_FIRST_TIME_TIME
    if s.now < t + 600000000000 then t else 0
  | .HUB_CFG_NM_STATUS_OPEN_STALLS => maskBits 32 fun k => k != 0 && s.stallBusy k
  | .HUB_CFG_NM_STATUS_POWER_DECLARED => s.declaredPower
  | .HUB_CFG_NM_STATUS_PHASE => s.nightPhase
  | .HUB_CFG_STALL_STATUS_STATE => (s.stall i).code
  | .NET_CAN_STATUS_STATE => s.canState i
  | .NET_CAN_STATUS_TEC => if s.canState i = 3 then 255 else 0
  | .CD_PURL_STATUS_RING_UP => flag (s.purlUp i)
  | .CD_PURL_STATUS_HUB_UP => flag (s.purlUp (6 + i))
  | .HUB_CFG_PURL_WH_STATUS_WHB_UP => flag (s.purlUp 13)
  | .HUB_CFG_PURL_WH_STATUS_WHA_UP => flag (s.purlUp 12)
  | f => s.viewPower f i j

/-! ## Reads -/

/-- What a field returns to a read: 0 for a WO field (Table 0.2). -/
def State.readFld (s : State) (f : Fld) (i j : Nat) : Nat := if f.spec.access = .wo then 0 else s.view f i j

/-- The value of a register instance. -/
def State.readReg (s : State) (r : Reg) (i j : Nat) : Nat := r.assemble fun f => s.readFld f i j

/-- The key of a latch: the function and the offset of the upper half. -/
def latchKey (fn o : Nat) : Nat := fn * 4294967296 + o

/-- A 32-bit read at an offset (R13, R485): a lower half of a latching register freezes the upper half, which the next read of that
half returns. -/
def State.readWord (s : State) (fn o : Nat) : Nat × State :=
  match locate fn o with
  | none => (0, s)
  | some p =>
    let v := s.readReg p.reg p.i p.j
    if p.high then
      match s.latches.find? fun e => e.1 == latchKey fn o with
      | some e => (e.2, { s with latches := s.latches.filter fun e => e.1 != latchKey fn o })
      | none => (v / 4294967296, s)
    else if p.reg.spec.latch then
      let kept := s.latches.filter fun e => e.1 != latchKey fn (o + 4)
      (v % 4294967296, { s with latches := Tbl.insert (latchKey fn (o + 4)) (v / 4294967296) kept })
    else (v % 4294967296, s)

/-- Does a 64-bit access at an offset land on one 64-bit register (R11)? -/
def onWide (fn o : Nat) : Option Place :=
  match locate fn o with
  | some p => if p.reg.spec.wide && !p.high then some p else none
  | none => none

/-- A 64-bit read: of one register, or of two 32-bit ones, the lower address first (R11). -/
def State.readWide (s : State) (fn o : Nat) : Nat × State :=
  match onWide fn o with
  | some p => (s.readReg p.reg p.i p.j, s)
  | none =>
    let (a, s) := s.readWord fn o
    let (b, s) := s.readWord fn (o + 4)
    (a + 4294967296 * b, s)

/-- An access of R12: a read returns zeros, a write changes nothing, and the access is recorded. -/
def State.badAccess (s : State) (isWrite : Bool) : State :=
  let s := s.report 0x003 0
  if isWrite then s else { s with readData := 0 }

/-- BAD_ACCESS_WIDTH (R12): `width` in bytes; an access that R12 does not name changes nothing. -/
def execBadAccessWidth (_fn : Fin 32) (offset width : Nat) (isWrite : Bool) (s : State) : Out :=
  if (width = 4 ∧ offset % 4 = 0) ∨ (width = 8 ∧ offset % 8 = 0) then .next s else .next (s.badAccess isWrite)

/-- LATCHED_READ_LOW (R11, R13): a read of a register; of the lower half of a latching one, it freezes the upper half. -/
def execLatchedReadLow (fn : Fin 32) (offset : Nat) (wide : Bool) (s : State) : Out :=
  if offset % (if wide then 8 else 4) ≠ 0 then .next (s.badAccess false)
  else
    let (v, s) := if wide then s.readWide fn offset else s.readWord fn offset
    .next { s with readData := v }

end Sys2Proof.Machine
end

