-- ==== Sys2Proof/Machine/Secure.lean ====
section
/-!
DEFINITION. Machine/Secure.lean: the recovery and writing of images and records (R455, R456), quotes (R458) and debug authorisation
(R459, R460).
-/

namespace Sys2Proof.Machine

/-! ## Images and records (R455, R456) -/

/-- The state that SEC_XFER_STATUS shows: 0 idle, 1 WAITING, 2 busy, 3 done, 4 failed. -/
def State.xferState (s : State) (n : Nat) : State := s.setFld .SEC_XFER_STATUS_STATE n

/-- A transfer fails with a code, going back to state `n`. -/
def State.xferFail (s : State) (n code : Nat) : State := (s.xferState n).setFld .SEC_XFER_STATUS_CODE code

/-- LENGTH bytes from the host address that SEC_XFER_ADDR and SEC_XFER_CTRL give, both in units of 256. -/
def State.xferBytes (s : State) : List Byte :=
  s.hostRead (s.fld .SEC_XFER_ADDR_ADDR * 256) (s.fld .SEC_XFER_CTRL_LENGTH * 256)

/-- What an offered image earns (R449). -/
def State.offered (s : State) (b : List Byte) : Option Nat :=
  if b.length < 8192 + fieldAt b 24 8 then some 0xB03
  else imageCode s.rootKey b (fun n => slice b 8192 n) (s.confField 12 4 0)

/-- RECOVER_IMAGE (R455): while the ROM waits and the host can be read. The bytes go to hub SRAM, DESIGN CHOICE (log 119) from its first
address on. -/
def State.recoverImage (s : State) : State :=
  if s.boot.stage ≠ 1 ∨ !s.host.linkUp then s
  else
    let b := s.xferBytes
    let s := s.devWrite hubBase (b.take 0x04000000)
    match s.offered b with
    | some code => (s.xferFail 1 code)
    | none =>
      let s := ((s.bootReport 0xB08 1).setFld .SEC_BOOT_STATUS_RECOVERED 1).xferState 2
      (s.modBoot fun x => { x with header := b.take 8192, writing := some (0x100000, b) }).releaseHub

/-- RECOVER_IMAGE: the command. -/
def execRecoverImage (s : State) : Out := .next (s.recoverImage)

/-- Are writes to flash open (R456): the vehicle parked in Drive, or, for a record, the Park state of R448? -/
def State.writeOpen (s : State) (config : Bool) : Bool :=
  s.boot.hub && s.boot.writing.isNone && s.transition == .none &&
  ((s.inDrive && s.parked) || (config && s.mode == .park && s.boot.config.isEmpty))

/-- A certificate that fails after boot is BOOT_ROOT_BAD; anything else keeps its own code (Table 14.14). -/
def State.offerFails (s : State) (code : Nat) (certGood : Bool) : State :=
  if certGood then (s.report code 2).xferFail 4 code else (s.report 0xB01 (s.sev32 true)).xferFail 4 0xB01

/-- The offered content goes to flash. -/
def State.startWrite (s : State) (a : Nat) (b : List Byte) : State :=
  (s.xferState 2).modBoot fun x => { x with writing := some (a, b) }

/-- WRITE_IMAGE (R456). -/
def State.writeImage (s : State) : State :=
  if !s.writeOpen false then (s.refuse .SEC_XFER_CTRL 0xB10)
  else
    let b := s.xferBytes
    match s.offered b with
    | some code => (s.offerFails code (certOk s.rootKey (slice b 768 3112) 1))
    | none => (s.startWrite 0x100000 b)

/-- WRITE_IMAGE: the command. -/
def execWriteImage (s : State) : Out := .next (s.writeImage)

/-- WRITE_CONFIG (R448, R456): the record's floor may not exceed the running image's version. -/
def State.writeConfig (s : State) : State :=
  if !s.writeOpen true then (s.refuse .SEC_XFER_CTRL 0xB10)
  else
    let b := s.xferBytes.take 5376
    if decide (b.length = 5376) && confOk s.rootKey s.boot.factory b &&
        decide (fieldAt b 12 4 ≤ s.fld .SEC_VERSION_SECURITY_VERSION) then (s.startWrite 0x80000 b)
    else (s.offerFails 0xB05 (certOk s.rootKey (slice b 768 3112) 2))

/-- WRITE_CONFIG: the command. -/
def execWriteConfig (s : State) : Out := .next (s.writeConfig)

/-- The bytes of a flash partition of Table 14.2. -/
def partitionSize (a : Nat) : Nat := if a = 0x100000 then 66060288 else 65536

/-- FLASH_WRITE_DONE (R456): content that does not verify is logged and, DESIGN CHOICE (log 62), leaves its partition
erased. -/
def execFlashWriteDone (verified : Bool) (s : State) : Out :=
  match s.boot.writing with
  | none => .next s
  | some (a, b) =>
    let s := (s.flashErase a (partitionSize a)).modBoot fun x => { x with writing := none }
    if verified then .next ((s.flashWrite a b).xferState 3) else .next ((s.report 0xB09 2).xferFail 4 0xB09)

/-! ## Quotes (R458) -/

/-- The space that a quote takes, in bytes. -/
def State.quoteEnd (s : State) : Nat :=
  let log := if s.fld .SEC_QUOTE_CTRL_LOG = 1 then 0x5000 + 48 * (s.log (s.fld .SEC_QUOTE_CTRL_STALL)).stored.length else 0
  let rec_ := if s.fld .SEC_QUOTE_CTRL_DEVREC = 1 then 0x1000 + 14448 else 0
  max 1440 (max log rec_)

/-- The quote that SEC_QUOTE_CTRL, SEC_QUOTE_DEST and SEC_QUOTE_NONCE ask for. -/
def State.quoteAsked (s : State) : Quote :=
  { stall := s.fld .SEC_QUOTE_CTRL_STALL, devrec := s.fld .SEC_QUOTE_CTRL_DEVREC == 1, withLog := s.fld .SEC_QUOTE_CTRL_LOG == 1,
    dest := s.fld .SEC_QUOTE_DEST_ADDR * 4096, log := s.log (s.fld .SEC_QUOTE_CTRL_STALL),
    nonce := (List.range 4).flatMap fun j => leBytes 8 (s.fld .SEC_QUOTE_NONCE_NONCE j) }

/-- QUOTE_GO (R453, R458): ignored while a quote is in progress; without an identity it ends with ID_MISMATCH, and without space
with QUOTE_SPACE. -/
def State.quoteGo (s : State) : State :=
  if !s.boot.hub || s.boot.quoting.isSome then s
  else if s.fld .SEC_BOOT_STATUS_IDENTITY_OK = 0 ∨ s.boot.seed.isNone then (s.report 0xB06 2)
  else if s.fld .SEC_QUOTE_CTRL_SPACE * 1024 < s.quoteEnd then (s.report 0xB31 0)
  else s.modBoot fun b => { b with quoting := some s.quoteAsked }

/-- QUOTE_GO: the command. -/
def execQuoteGo (s : State) : Out := .next (s.quoteGo)

/-- The 160 bytes of a quote that the identity key signs (Table 14.12). -/
def State.quoteBody (s : State) (x : Quote) (seq : Nat) : List Byte :=
  let l := x.log
  let k := x.stall
  let flags := (if l.stored.length < l.count then 1 else 0) + (if s.timeBase.state = 2 then 2 else 0) +
    4 * s.fld .PWR_WEAR_STATUS_WEAR_AHEAD
  leBytes 4 0x544F5551 ++ leBytes 2 1 ++ leBytes 1 (if k = 0 then 0 else 1) ++ leBytes 1 k ++ factorySerial s.boot.factory ++
    x.nonce ++ l.chain ++ leBytes 4 l.count ++ leBytes 4 flags ++ leBytes 4 (s.fld .SEC_VERSION_SECURITY_VERSION) ++
    leBytes 4 (s.fld .SEC_VERSION_VERSION_FLOOR) ++ leBytes 8 (s.confField 16 8 0) ++ leBytes 8 s.now ++ leBytes 6 seq ++
    leBytes 1 s.mode.code ++ leBytes 1 s.degrade.step ++ leBytes 4 s.wear.consumed ++ leBytes 28 0

/-- QUOTE_DONE (R458): the quote of what was asked for at GO, and with it the factory part and the entries where they are asked for. -/
def execQuoteDone (s : State) : Out :=
  match s.boot.quoting, s.boot.seed with
  | some x, some seed =>
    let s := s.modBoot fun b => { b with quoting := none }
    let (q, s) := s.stamp
    let body := s.quoteBody x q
    let s := s.hostWrite x.dest (body ++ Config.falconSign seed body)
    let s := if x.devrec then s.hostWrite (x.dest + 0x1000) s.boot.factory else s
    let s := if x.withLog then s.hostWrite (x.dest + 0x5000) (x.log.stored.flatMap id) else s
    .next (s.report 0xB30 0)
  | some _, none => .next (s.modBoot fun b => { b with quoting := none })
  | none, _ => .next s

/-! ## Debug authorisation (R459, R460) -/

/-- The token in the mailbox (Table 14.13). -/
def State.token (s : State) : List Byte := (List.range 1114).flatMap fun w => leBytes 4 (s.fld .SEC_DEBUG_MAILBOX_WORD w)

/-- Is a token's certificate valid under R443, for one of the two debug uses? -/
def State.tokenCert (s : State) (t : List Byte) : Bool :=
  let c := slice t 64 3112
  certOk s.rootKey c 3 || certOk s.rootKey c 4

/-- Is a token accepted (R459)? -/
def State.tokenOk (s : State) (t : List Byte) : Bool :=
  let c := slice t 64 3112
  let shown := (List.range 4).flatMap fun k => leBytes 8 (s.fld .SEC_DEBUG_CHALLENGE_CHALLENGE k)
  let oem := certSubject c == certSubject (slice s.boot.config 768 3112) && !bit (fieldAt t 4 4) 1
  fieldAt t 0 4 == 0x41474244 && zeroAt t 56 8 && slice t 8 16 == factorySerial s.boot.factory && slice t 24 32 == shown &&
  (certOk s.rootKey c 3 || (certOk s.rootKey c 4 && oem)) &&
  Config.falconVerify (certKey c) (slice t 0 3176) (slice t 3176 1280)

/-- SUBMIT (R459, R460): an accepted token starts the clearing of R403, and its scope opens with it; one that fails is logged.
Each challenge is used once: a new one is shown in both cases. -/
def State.submit (s : State) : State :=
  if s.fld .SEC_DEBUG_CTRL_WINDOW = 0 ∨ s.transition = .clearing then s
  else
    let t := s.token
    if s.tokenOk t then
      let s := (s.report 0xB21 0).modBoot fun b => { b with scope := fieldAt t 4 4 }
      State.newChallenge { s with transition := .clearing }
    else
      let s := s.report 0xB20 1
      let s := if s.tokenCert t then s else s.report 0xB01 (s.sev32 true)
      s.newChallenge

/-- SUBMIT: the command. -/
def execSubmit (s : State) : Out := .next (s.submit)

end Sys2Proof.Machine
end

