-- ==== Sys2Proof/Machine/RegWrite.lean ====
section
/-!
DEFINITION. Machine/RegWrite.lean: register writes (R11, R12, R14 to R17, R211, R241, R467, R485 to R492, R519) and configuration
requests (R454). A write of a field that has a command of its own does what that command does.
-/

namespace Sys2Proof.Machine

/-! ## Stitch-marker groups (R320) -/

/-- Is group `g` in use, so that its owner may not be written (HUB_CFG_MARKER_OWNER_g)? -/
def State.groupBusy (s : State) (g : Nat) : Bool :=
  let mine := fun (m : Nat) => m / 64 == g
  s.host.waits.any (fun w => mine w.marker) ||
  s.host.rings.any (fun e => e.2.descs.any fun x => s.headerWaits x && mine (x.val 2 2 % 8192)) ||
  s.programs.any (fun p => p.markers.any mine || (match p.running with
    | some r => r.iterMarker.any mine
    | none => false)) ||
  (s.fld .PLAN_CFG_ENABLE == 1 && (mine (s.fld .PLAN_MARKERS_FREE_MARKER) || mine (s.fld .PLAN_MARKERS_PUBLISH_MARKER)))

/-- A write of the owner of group `g` (R320): a change of owner sets its 64 markers to 0. -/
def State.setOwner (s : State) (g fn : Nat) : State :=
  if s.groupBusy g then s.refuse .HUB_CFG_MARKER_OWNER 0x004 g
  else if s.fld .HUB_CFG_MARKER_OWNER_FUNCTION g = fn then s
  else
    let s := s.setFld .HUB_CFG_MARKER_OWNER_FUNCTION fn g
    (List.range 64).foldl (fun s i => s.putMarker (64 * g + i) 0) s

/-- MARKER_OWNER_CHANGE (R320). -/
def execMarkerOwnerChange (group : Fin 128) (fn : Fin 32) (s : State) : Out := .next (s.setOwner group fn)

/-! ## Values (R13 to R15, R487, R490) -/

/-- What the writable fields of a register hold; the others count as 0, which writes nothing to them. -/
def State.heldValue (s : State) (r : Reg) (i j : Nat) : Nat :=
  r.assemble fun f => match f.spec.access with
    | .rw => s.fld f i j
    | .rwl => s.fld f i j
    | _ => 0

/-- The value a write asks for once SEC_LOCK is taken into account: RWL fields keep what they hold (R490). -/
def State.asked (s : State) (r : Reg) (i j v : Nat) : Nat :=
  r.assemble fun f => if f.spec.access = .rwl ∧ s.fld .SEC_LOCK_LOCK = 1 then s.fld f i j else f.of v

/-- Do the writable fields of a register other than `en` keep what they hold? -/
def State.onlyTouches (s : State) (r : Reg) (en : Fld) (i j v : Nat) : Bool :=
  r.fields.all fun f => f == en || f.spec.access != .rw || f.of v == s.fld f i j

/-! ## Refusals -/

/-- A write to `r` refused with a code (R488): `hi` is 4 for the upper half of a 64-bit register. -/
def State.refuseWrite (s : State) (fn : Nat) (r : Reg) (i j hi code : Nat) : State :=
  s.refuseAt fn (Reg.offsetIn fn r i j + hi) code (some i)

/-- Does a loaded program declare the outbound buffer `b`? -/
def State.namesBuffer (s : State) (b : Nat) : Bool :=
  s.programs.any fun p => p.handovers.any fun h => h.dir == 1 && h.bufId == b

/-- A write of a register of SENS, TIME or PLAN that its unit refuses while it is enabled (R211, R241). -/
def State.frozenUnit (s : State) (r : Reg) (i j v : Nat) : Bool :=
  match r with
  | .SENS_STREAM_CTX => s.ctxOn i && !s.onlyTouches r .SENS_STREAM_CTX_ENABLE i j v
  | .SENS_STREAM_PARAM | .SENS_STREAM_DELAY | .SENS_STREAM_LIMITS | .SENS_STREAM_MATCH | .SENS_STREAM_TSOFF
  | .SENS_STREAM_SLOT_SIZE | .SENS_STREAM_SLOT_BASE => s.ctxOn i
  | .SENS_TRIG_CTRL => s.fld .SENS_TRIG_CTRL_ENABLE i == 1 && !s.onlyTouches r .SENS_TRIG_CTRL_ENABLE i j v
  | .SENS_TRIG_TIMING => s.fld .SENS_TRIG_CTRL_ENABLE i == 1
  | .SENS_FUSION_CFG => s.fusing && !s.onlyTouches r .SENS_FUSION_CFG_ENABLE i j v
  | .SENS_FUSION_PERIOD | .SENS_FUSION_PHASE | .SENS_FUSION_GRID => s.fusing
  | .SENS_DEGRADE_CFG => s.inDrive
  | .TIME_CFG => s.fld .TIME_CFG_GPTP_EN == 1 && !s.onlyTouches r .TIME_CFG_GPTP_EN i j v
  | .PLAN_CYCLE | .PLAN_CYCLE_PHASE | .PLAN_MARKERS | .PLAN_PROP_BUF | .PLAN_COST_W | .PLAN_STORE_BASE
  | .PLAN_OUT_BASE => s.fld .PLAN_CFG_ENABLE == 1
  | _ => false

/-- A write of an Ethernet MAC's registers that R491 or R492 refuses. -/
def State.frozenMac (s : State) (r : Reg) (i j v : Nat) : Bool :=
  match r with
  | .NET_MAC_CFG => s.fld .NET_MAC_CFG_ENABLE i == 1 && (Fld.of .NET_MAC_CFG_MAX_FRAME v != s.fld .NET_MAC_CFG_MAX_FRAME i ||
      (decide (4 ≤ i) && Fld.of .NET_MAC_CFG_SPEED v != s.fld .NET_MAC_CFG_SPEED i))
  | .NET_MAC_ADDR | .NET_TC_MAP => s.fld .NET_MAC_CFG_ENABLE i == 1
  | .NET_QBV_BASE | .NET_QBV_CYCLE | .NET_QBV_GCL => s.fld .NET_QBV_CTRL_PENDING i == 1
  | .NET_QBV_CTRL => s.fld .NET_QBV_CTRL_PENDING i == 1 &&
      (Fld.of .NET_QBV_CTRL_CHANGE v == 1 || !s.onlyTouches r .NET_QBV_CTRL_GATE_EN i j v)
  | _ => false

/-- A write that is refused with BUSY_CONFIG (R17, R211, R241, R438, R467, R491, R492 and the tables of the registers). -/
def State.frozen (s : State) (r : Reg) (i j v : Nat) : Bool :=
  let ringOn := (s.ring i j).phase != .disabled
  match r with
  | .RING_CFG => ringOn && (Fld.of .RING_CFG_ENABLE v == 1 || !s.onlyTouches r .RING_CFG_ENABLE i j v)
  | .RING_IRQ | .RING_SQ_BASE | .RING_CQ_BASE | .RING_HEAD_WB => ringOn
  | .MEM_PAIR_XFER =>
    (s.fld .MEM_PAIR_XFER_ENABLE i == 1 && s.namesBuffer (s.fld .MEM_PAIR_XFER_LOCAL_BUF i)) ||
    (Fld.of .MEM_PAIR_XFER_ENABLE v == 1 && s.namesBuffer (Fld.of .MEM_PAIR_XFER_LOCAL_BUF v))
  | .HUB_CFG_ERRLOG_BASE => s.fld .HUB_CFG_ERRLOG_CFG_ENABLE == 1
  | .HUB_CFG_ERRLOG_CFG => s.fld .HUB_CFG_ERRLOG_CFG_ENABLE == 1 && !s.onlyTouches r .HUB_CFG_ERRLOG_CFG_ENABLE i j v
  | .HUB_CFG_SWATCH_CFG => s.inDrive && Fld.of .HUB_CFG_SWATCH_CFG_ENABLE v == 0
  | .HUB_CFG_NM_CFG => s.mode == .nightMarket
  | .HUB_CFG_STALL_CFG => s.fld .HUB_CFG_STALL_CFG_ENABLE i == 1 && !s.onlyTouches r .HUB_CFG_STALL_CFG_ENABLE i j v
  | .HUB_CFG_STALL_REGION => s.fld .HUB_CFG_STALL_CFG_ENABLE i == 1
  | .PWR_THERM_CFG | .PWR_SENT_CFG => s.inDrive || s.mode == .nightMarket
  | r => s.frozenUnit r i j v || s.frozenMac r i j v

/-- Does a field of a value lie outside lo to hi? -/
def Fld.outside (f : Fld) (v lo hi : Nat) : Bool := decide (f.of v < lo) || decide (hi < f.of v)

/-- A write of a field outside the range of its table, with no rule that checks it elsewhere: FIELD_RANGE (R519), or
PWR_CFG_BAD in PWR (R438). -/
def rangeCode (r : Reg) (v : Nat) : Option Nat :=
  let bad : Bool := match r with
    | .SENS_FUSION_PERIOD => Fld.outside .SENS_FUSION_PERIOD_PERIOD v 20000000 100000000
    | .SENS_FUSION_GRID =>
      !(Fld.of .SENS_FUSION_GRID_FORMAT v == 3 || Fld.of .SENS_FUSION_GRID_FORMAT v == 5) ||
      Fld.outside .SENS_FUSION_GRID_CHANNELS v 1 256 || Fld.outside .SENS_FUSION_GRID_HEIGHT v 1 1024 ||
      Fld.outside .SENS_FUSION_GRID_WIDTH v 1 1024
    | .SENS_GROUP => Fld.outside .SENS_GROUP_MIN_STREAMS v 1 16
    | .SENS_DEGRADE_CFG => Fld.outside .SENS_DEGRADE_CFG_HOLD v 1 255
    | .TIME_CFG => Fld.outside .TIME_CFG_SYNC_TIMEOUT v 1 15
    | .MEM_SPARE_CFG => Fld.outside .MEM_SPARE_CFG_SLOTS v 0 2
    | .MEM_PAIR_CFG => Fld.outside .MEM_PAIR_CFG_LOST_TIMEOUT v 5 255 || Fld.outside .MEM_PAIR_CFG_BARRIER_TIMEOUT v 10 65535
    | .HUB_CFG_ERRLOG_CFG => Fld.outside .HUB_CFG_ERRLOG_CFG_LOG2_ENTRIES v 6 16
    | .HUB_CFG_NM_CFG => Fld.outside .HUB_CFG_NM_CFG_DRAIN_GRACE v 0 2000
    | .PWR_PKG_LIMIT => Fld.outside .PWR_PKG_LIMIT_LIMIT v 100 380
    | .PWR_THERM_CFG => Fld.outside .PWR_THERM_CFG_TARGET v 85 110
    | _ => false
  if !bad then none else match r with
    | .PWR_PKG_LIMIT | .PWR_THERM_CFG => some 0xA01
    | _ => some 0x005

/-! ## Fields that act -/

/-- ENABLE set with the other fields of its register: an operation that does not leave it set was refused, and the register keeps
what it held (R488). -/
def State.enableWith (s : State) (r : Reg) (i j v : Nat) (en : Fld) (op : State → State) : State :=
  let t := op ((s.putReg r i j v).setFld en (s.fld en i j) i j)
  if t.fld en i j = 1 then t else t.putReg r i j (s.heldValue r i j)

/-- A write of a register with an ENABLE: `on` acts when it goes to 1, `off` when it goes to 0. -/
def State.writeEnable (s : State) (r : Reg) (i j v : Nat) (en : Fld) (on off : State → State) : State :=
  if en.of v = s.fld en i j then s.putReg r i j v
  else if en.of v = 1 then s.enableWith r i j v en on
  else off ((s.putReg r i j v).setFld en 1 i j)

/-- A counter field set to 0 where bit `k` of a clear register is written as 1. -/
def State.clearIf (s : State) (v k : Nat) (f : Fld) (i j : Nat) : State := if bit v k then s.setFld f 0 i j else s

/-- A write to a clear register (WO) sets the counters named to 0. -/
def State.writeClear (s : State) (r : Reg) (i v : Nat) : State :=
  match r with
  | .HUB_CFG_TALLY_CLR => (List.range 64).foldl (fun s n => s.clearIf v n .HUB_CFG_TALLY_CNT_COUNT n 0) s
  | .CD_QCNT_CLR => (s.clearIf v 0 .CD_RERUN_COUNT_COUNT i 0).clearIf v 1 .CD_NAN_COUNT_COUNT i 0
  | .CD_ENG_CNT_CLR => (s.clearIf v 0 .CD_ENG_CENTRE_ONLY_COUNT i 0).clearIf v 1 .CD_ENG_STEM_CLIP_COUNT i 0
  | .CD_KV_CNT_CLR => (s.clearIf v 0 .CD_KV_STARVE_COUNT_COUNT i 0).clearIf v 1 .CD_KV_DROPPED_PAGES_COUNT i 0
  | .SENS_CNT_CLR =>
    let c := Fld.of .SENS_CNT_CLR_CTX v
    let s := s.clearIf v 8 .SENS_STREAM_LATE_DROPS_COUNT c 0
    if bit v 9 then s.clearFaults c else s
  | .PLAN_STAT_CLR => s.clearStats (Fld.of .PLAN_STAT_CLR_CLEAR v)
  | .MEM_PART_STAT_CLR => (List.range 16).foldl (fun s n => if bit v n then s.clearPartStat n else s) s
  | .HUB_CFG_GAUGE_CLR => s.clearIf v 0 .HUB_CFG_GAUGE_CNT_MISMATCHES 0 0
  | .HUB_CFG_SWATCH_CLR => (List.range 4).foldl (fun s n => s.clearIf v n .HUB_CFG_SWATCH_CNT_COUNT n 0) s
  | .NET_CNT_CLR => (List.range 30).foldl (fun s b => s.clearIf v b .NET_MAC_CNT_COUNT (b / 5) (b % 5)) s
  | .CD_PURL_CLR => (s.clearIf v 0 .CD_PURL_RETRY_COUNT i 0).clearIf v 1 .CD_PURL_RETRY_COUNT i 1
  | .HUB_CFG_PURL_WH_STATUS =>
    (s.clearIf v 8 .HUB_CFG_PURL_WH_RETRY_COUNT 0 0).clearIf v 9 .HUB_CFG_PURL_WH_RETRY_COUNT 1 0
  | _ => s

/-- The W1C fields of a register: each bit written as 1 is cleared (Table 0.2). -/
def State.writeOnes (s : State) (r : Reg) (i j v : Nat) : State :=
  r.fields.foldl (init := s) fun s f =>
    if f.spec.access = .w1c then s.setFld f (s.fld f i j - (s.fld f i j &&& f.of v)) i j else s

/-- Fusion off: no instant is reached. -/
def State.fusionDisable (s : State) : State :=
  s.clearInstants.setFld .SENS_FUSION_CFG_ENABLE 0

/-- The pair link off: a link that is up is lost (R284), an attempt is given up (DESIGN CHOICE, log 72). -/
def State.pairDisable (s : State) : State :=
  let s := s.setFld .MEM_PAIR_CFG_ENABLE 0
  if s.pairUp then s.pairLost else s.setPair { s.pair with state := 0, phase := 0 }

/-- NET_MAC_CFG (R491). -/
def State.writeMacCfg (s : State) (n v : Nat) : State :=
  let en := Fld.of .NET_MAC_CFG_ENABLE v
  let speed := if n < 4 then s.fld .NET_MAC_CFG_SPEED n else Fld.of .NET_MAC_CFG_SPEED v
  let maxFrame := Fld.of .NET_MAC_CFG_MAX_FRAME v
  if en = 1 then s.macUp n speed maxFrame
  else if s.fld .NET_MAC_CFG_ENABLE n = 1 then s.macDown n
  else (s.setFld .NET_MAC_CFG_SPEED speed n).setFld .NET_MAC_CFG_MAX_FRAME maxFrame n

/-- GATE_EN written (R492): once cleared, every gate is open until the first change time after it is set again. -/
def State.setGates (s : State) (n en : Nat) : State :=
  let s := s.setFld .NET_QBV_CTRL_GATE_EN en n
  if en = 0 then s.setMac n { s.mac n with running := false } else s

/-- NET_QBV_CTRL (R492): a refused CHANGE leaves the register as it was. -/
def State.writeQbvCtrl (s : State) (n v : Nat) : State :=
  let len := Fld.of .NET_QBV_CTRL_ADMIN_LEN v
  let en := Fld.of .NET_QBV_CTRL_GATE_EN v
  if Fld.of .NET_QBV_CTRL_CHANGE v = 1 then
    if s.adminOk n len then (s.setGates n en).qbvChange n len else s.qbvChange n len
  else (s.setFld .NET_QBV_CTRL_ADMIN_LEN len n).setGates n en

/-- RING_CFG (R292). -/
def State.writeRingCfg (s : State) (fn ring v : Nat) : State :=
  if Fld.of .RING_CFG_ENABLE v = 1 then s.enableWith .RING_CFG fn ring v .RING_CFG_ENABLE fun s => s.ringEnable fn ring
  else if (s.ring fn ring).phase = .disabled then s.putReg .RING_CFG fn ring v else s.ringDisable fn ring

/-- A word of an MSI-X table (PCI Express): unmasking a vector whose pending bit is set sends its message. -/
def State.writeVector (s : State) (fn word v : Nat) : State :=
  let s := s.setFld .MSIX_TABLE_WORD v fn word
  let k := word / 4
  let p := s.fld .MSIX_PBA_WORD fn (k / 32)
  if word % 4 = 3 ∧ !bit v 0 ∧ bit p (k % 32) then
    (s.setFld .MSIX_PBA_WORD (p - 2 ^ (k % 32)) fn (k / 32)).sendMsix fn k
  else s

/-- SEC_XFER_CTRL (R455, R456). -/
def State.writeXfer (s : State) (v : Nat) : State :=
  let s := s.setFld .SEC_XFER_CTRL_LENGTH (Fld.of .SEC_XFER_CTRL_LENGTH v)
  match Fld.of .SEC_XFER_CTRL_OP v with
  | 1 => s.recoverImage
  | 2 => s.writeImage
  | 3 => s.writeConfig
  | _ => s

/-- MEM_PAIR_XFER (R281): a transfer bound anew starts from its beginning. -/
def State.writePairXfer (s : State) (n v : Nat) : State :=
  let same := s.onlyTouches .MEM_PAIR_XFER .MEM_PAIR_XFER_ENABLE n 0 v && Fld.of .MEM_PAIR_XFER_ENABLE v == s.fld .MEM_PAIR_XFER_ENABLE n
  if same then s else (s.putReg .MEM_PAIR_XFER n 0 v).setXfer n { s.xfer n with sending := none }

/-- PLAN_CFG (R241): its own fields may be written while ENABLE is 1, within their ranges. -/
def State.writePlanCfg (s : State) (v : Nat) : State :=
  if s.fld .PLAN_CFG_ENABLE = 1 ∧ Fld.of .PLAN_CFG_ENABLE v = 1 then
    if Fld.of .PLAN_CFG_MAX_WORLD_AGE v < 20 then s.refuse .PLAN_CFG 0x401 else s.putReg .PLAN_CFG 0 0 v
  else s.writeEnable .PLAN_CFG 0 0 v .PLAN_CFG_ENABLE State.planEnable State.planDisable

/-- A write of a register of SENS, PLAN, MEM or NET that acts on its unit. -/
def State.writeUnit (s : State) (r : Reg) (i j hi v : Nat) : State :=
  match r with
  | .SENS_STREAM_CTX =>
    s.writeEnable r i j v .SENS_STREAM_CTX_ENABLE (fun s => s.ctxEnable i) fun s => s.ctxDisable i
  | .SENS_TRIG_CTRL =>
    s.writeEnable r i j v .SENS_TRIG_CTRL_ENABLE (fun s => s.triggerEnable i) fun s => s.triggerDisable i
  | .SENS_FUSION_CFG => s.writeEnable r i j v .SENS_FUSION_CFG_ENABLE State.fusionEnable State.fusionDisable
  | .PLAN_CFG => s.writePlanCfg v
  | .MEM_PAIR_CFG => s.writeEnable r i j v .MEM_PAIR_CFG_ENABLE State.pairEnable State.pairDisable
  | .MEM_PAIR_XFER => s.writePairXfer i v
  | .MEM_PART_CFG => s.writePartCfg i v hi
  | .MEM_PART_RATE => s.writePartRate i v hi
  | .MEM_STALL_RATE => s.writeStallRate i v hi
  | .MEM_MASTER_MAP => s.writeMasterMap v hi
  | .NET_MAC_CFG => s.writeMacCfg i v
  | .NET_QBV_CTRL => s.writeQbvCtrl i v
  | .NET_QAV => s.qavSet i j (Fld.of .NET_QAV_EN v) (Fld.of .NET_QAV_IDLE_SLOPE v)
  | _ => ((s.putReg r i j v).writeOnes r i j v).writeClear r i v

/-- A write that is not refused sets the fields by their access types, and what acts, acts (Table 0.2). -/
def State.applyWrite (s : State) (fn : Nat) (r : Reg) (i j hi v : Nat) : State :=
  match r with
  | .HUB_CFG_TALLY_SEL => if i ≤ 12 then s else s.putReg r i j v
  | .RING_CFG => s.writeRingCfg i j v
  | .HUB_CFG_MARKER_OWNER => s.setOwner i (Fld.of .HUB_CFG_MARKER_OWNER_FUNCTION v)
  | .HUB_CFG_ERRLOG_CFG => s.writeEnable r i j v .HUB_CFG_ERRLOG_CFG_ENABLE State.enableErrlog
      fun s => s.setFld .HUB_CFG_ERRLOG_CFG_ENABLE 0
  | .HUB_CFG_STALL_CFG => s.writeEnable r i j v .HUB_CFG_STALL_CFG_ENABLE (fun s => s.openStall i) fun s => s.closeStall i
  | .HUB_CFG_STALL_STATUS => if fn = 0 then s else s.writeOnes r i j v
  | .PWR_MODE_REQ => s.requestMode (Fld.of .PWR_MODE_REQ_MODE v)
  | .SEC_LOCK => if Fld.of .SEC_LOCK_LOCK v = 1 then s.setFld .SEC_LOCK_LOCK 1 else s
  | .SEC_XFER_CTRL => s.writeXfer v
  | .SEC_QUOTE_CTRL =>
    let s := s.putReg r i j v
    if Fld.of .SEC_QUOTE_CTRL_GO v = 1 then s.quoteGo else s
  | .SEC_DEBUG_CTRL => if Fld.of .SEC_DEBUG_CTRL_SUBMIT v = 1 then s.submit else s
  | .SEC_DEBUG_MAILBOX => if s.fld .SEC_DEBUG_CTRL_WINDOW = 1 then s.putReg r i j v else s
  | .MSIX_TABLE => s.writeVector i j v
  | r => s.writeUnit r i j hi v

/-- Can a write change nothing in a register but RWL fields (Table 16.4)? -/
def Reg.onlyLocked (r : Reg) : Bool :=
  r.fields.any (fun f => f.spec.access == .rwl) && r.fields.all fun f => f.spec.access == .rwl || f.spec.access == .ro

/-- A write of the value `v` to a register instance: without effect once SEC_LOCK is set and the register has RWL fields alone
to write (R490), refused with BUSY_CONFIG, refused for a range, or performed. -/
def State.writeReg (s : State) (fn : Nat) (p : Place) (v : Nat) : State :=
  let hi := if p.high then 4 else 0
  let v := s.asked p.reg p.i p.j v
  if s.fld .SEC_LOCK_LOCK = 1 ∧ p.reg.onlyLocked then s
  else if s.frozen p.reg p.i p.j v then s.refuseWrite fn p.reg p.i p.j hi 0x004
  else match rangeCode p.reg v with
    | some code => s.refuseWrite fn p.reg p.i p.j hi code
    | none => s.applyWrite fn p.reg p.i p.j hi v

/-! ## Accesses -/

/-- A 32-bit write at an offset: of a 32-bit register, or of one half of a 64-bit one, which changes that half alone (R487); in a
gap it is ignored (R485). -/
def State.writeWord (s : State) (fn o v : Nat) : State :=
  match locate fn o with
  | none => s
  | some p =>
    let w := v % 4294967296
    if !p.reg.spec.wide then s.writeReg fn p w
    else
      let h := s.heldValue p.reg p.i p.j
      s.writeReg fn p (if p.high then h % 4294967296 + w * 4294967296 else h / 4294967296 * 4294967296 + w)

/-- A 64-bit write: of one register, or of two 32-bit ones, the lower address first (R11). -/
def State.writeWide (s : State) (fn o v : Nat) : State :=
  match onWide fn o with
  | some p => s.writeReg fn p (v % two64)
  | none => (s.writeWord fn o v).writeWord fn (o + 4) (v / 4294967296)

/-- REGISTER_WRITE (R11, R12, R485 to R488): a 32-bit or, where `wide`, a 64-bit write of a function's BAR0. -/
def execRegisterWrite (fn : Fin 32) (offset : Nat) (wide : Bool) (value : Nat) (s : State) : Out :=
  if offset % (if wide then 8 else 4) ≠ 0 then .next (s.badAccess true)
  else if wide then .next (s.writeWide fn offset value) else .next (s.writeWord fn offset value)

/-- SEC_LOCK_SET (R14). -/
def execSecLockSet (s : State) : Out := .next (s.setFld .SEC_LOCK_LOCK 1)

/-- A function's controls as a configuration request leaves them (Table 9.1). -/
def FnControl.set (c : FnControl) (w : ConfigWrite) : FnControl :=
  { payload := (w.payload.map (·.val)).getD c.payload, readRequest := (w.readRequest.map (·.val)).getD c.readRequest,
    tags10 := w.tags10.getD c.tags10, relaxed := w.relaxed.getD c.relaxed, aer := (w.aer.map (·.val)).getD c.aer,
    msixEnable := w.msixEnable.getD c.msixEnable, functionMask := w.functionMask.getD c.functionMask }

/-- Vectors of a function that were pending and are no longer masked send their messages (PCI Express). -/
def State.sendPending (s : State) (fn : Nat) : State :=
  (List.range (lastVector fn + 1)).foldl (init := s) fun s v =>
    let p := s.fld .MSIX_PBA_WORD fn (v / 32)
    if bit p (v % 32) && !s.vectorMasked fn v then (s.setFld .MSIX_PBA_WORD (p - 2 ^ (v % 32)) fn (v / 32)).sendMsix fn v else s

/-- PCIE_CONFIG_REQUEST (R287, R326, R454): answered with Retry Status, and without effect, until Evfin runs; then a function's Bus Master
Enable, its controls of Table 9.1 and, in the PF, NumVFs are set. -/
def execPcieConfigRequest (fn : Fin 32) (busMaster : Option Bool) (numVfs : ConfigWrite) (s : State) : Out :=
  if s.boot.evfin.isNone ∨ !s.host.linkUp then .next s
  else
    let h := s.host
    let bm := match busMaster with
      | some true => fn.val :: h.busMaster.erase fn.val
      | some false => h.busMaster.erase fn.val
      | none => h.busMaster
    let n := match numVfs.numVfs with
      | some k => if fn.val = 0 then k.val else h.numVfs
      | none => h.numVfs
    let c := Tbl.set FnControl.zero h.controls fn.val ((s.control fn).set numVfs)
    .next (State.sendPending { s with host := { h with busMaster := bm, numVfs := n, controls := c } } fn)

end Sys2Proof.Machine
end

