-- ==== Sys2Proof/Machine/Dispatch.lean ====
section
/-!
DEFINITION. Machine/Dispatch.lean: one arm per command.
-/

namespace Sys2Proof.Machine

def exec (i : Instr) (s : State) : Host.Outcome State Fault Refusal :=
  match i with
  | .registerWrite fn offset wide value => Sys2Proof.Machine.execRegisterWrite fn offset wide value s
  | .badAccessWidth fn offset width isWrite => Sys2Proof.Machine.execBadAccessWidth fn offset width isWrite s
  | .latchedReadLow fn offset wide => Sys2Proof.Machine.execLatchedReadLow fn offset wide s
  | .secLockSet => Sys2Proof.Machine.execSecLockSet s
  | .modeReqPark => Sys2Proof.Machine.execModeReqPark s
  | .parkEntryDone => Sys2Proof.Machine.execParkEntryDone s
  | .modeReqNightMarket => Sys2Proof.Machine.execModeReqNightMarket s
  | .nightCloseDone => Sys2Proof.Machine.execNightCloseDone s
  | .modeReqDrive thenPark => Sys2Proof.Machine.execModeReqDrive thenPark s
  | .dayOpenStallsCleared => Sys2Proof.Machine.execDayOpenStallsCleared s
  | .dayOpenScrubDone => Sys2Proof.Machine.execDayOpenScrubDone s
  | .dayOpenAttested digestOk => Sys2Proof.Machine.execDayOpenAttested digestOk s
  | .dayOpenDone => Sys2Proof.Machine.execDayOpenDone s
  | .dayOpenLate => Sys2Proof.Machine.execDayOpenLate s
  | .fabricBeat bundles engines => Sys2Proof.Machine.execFabricBeat bundles engines s
  | .iterationStart fn slot => Sys2Proof.Machine.execIterationStart fn slot s
  | .commandStart c => Sys2Proof.Machine.execCommandStart c s
  | .commandCommit c => Sys2Proof.Machine.execCommandCommit c s
  | .wideRerunDecision c => Sys2Proof.Machine.execWideRerunDecision c s
  | .engineJobStart c job => Sys2Proof.Machine.execEngineJobStart c job s
  | .windowBookedBeat c window ecc => Sys2Proof.Machine.execWindowBookedBeat c window ecc s
  | .purlDataRelease c present => Sys2Proof.Machine.execPurlDataRelease c present s
  | .outboundWriteComplete c window => Sys2Proof.Machine.execOutboundWriteComplete c window s
  | .handoverBookedRead c buffer => Sys2Proof.Machine.execHandoverBookedRead c buffer s
  | .commandKillBeat fn slot => Sys2Proof.Machine.execCommandKillBeat fn slot s
  | .watchDeviation die watch => Sys2Proof.Machine.execWatchDeviation die watch s
  | .beatStepChange => Sys2Proof.Machine.execBeatStepChange s
  | .tallyClear mask => Sys2Proof.Machine.execTallyClear mask s
  | .clrRerun die => Sys2Proof.Machine.execClrRerun die s
  | .clrNan die => Sys2Proof.Machine.execClrNan die s
  | .clrCentreOnly die => Sys2Proof.Machine.execClrCentreOnly die s
  | .clrStemClip die => Sys2Proof.Machine.execClrStemClip die s
  | .clrStarve die => Sys2Proof.Machine.execClrStarve die s
  | .clrDropped die => Sys2Proof.Machine.execClrDropped die s
  | .kvAllocBeat c => Sys2Proof.Machine.execKvAllocBeat c s
  | .victimDropDone pool => Sys2Proof.Machine.execVictimDropDone pool s
  | .pageStarvedReissue pool => Sys2Proof.Machine.execPageStarvedReissue pool s
  | .pageHeldOpsApply pool => Sys2Proof.Machine.execPageHeldOpsApply pool s
  | .createPool d => Sys2Proof.Machine.execCreatePool d s
  | .destroyPool d => Sys2Proof.Machine.execDestroyPool d s
  | .openSeq d => Sys2Proof.Machine.execOpenSeq d s
  | .closeSeq d => Sys2Proof.Machine.execCloseSeq d s
  | .truncateSeq d => Sys2Proof.Machine.execTruncateSeq d s
  | .setClass d => Sys2Proof.Machine.execSetClass d s
  | .pin d => Sys2Proof.Machine.execPin d s
  | .unpin d => Sys2Proof.Machine.execUnpin d s
  | .readSeq d => Sys2Proof.Machine.execReadSeq d s
  | .poolStatus d => Sys2Proof.Machine.execPoolStatus d s
  | .csi2FrameStart port vc frameNumber => Sys2Proof.Machine.execCsi2FrameStart port vc frameNumber s
  | .csi2LongPacket port vc dt payload eccOk crcOk fifoOk => Sys2Proof.Machine.execCsi2LongPacket port vc dt payload eccOk crcOk fifoOk s
  | .csi2FrameEnd port vc => Sys2Proof.Machine.execCsi2FrameEnd port vc s
  | .ethPacketRx mac udp vlan port payload fcsOk fifoOk => Sys2Proof.Machine.execEthPacketRx mac udp vlan port payload fcsOk fifoOk s
  | .sensorLinkLost port => Sys2Proof.Machine.execSensorLinkLost port s
  | .streamLostTimeout ctx => Sys2Proof.Machine.execStreamLostTimeout ctx s
  | .streamCtxEnable ctx => Sys2Proof.Machine.execStreamCtxEnable ctx s
  | .streamCtxDisable ctx => Sys2Proof.Machine.execStreamCtxDisable ctx s
  | .clrFaults ctx => Sys2Proof.Machine.execClrFaults ctx s
  | .clrLate ctx => Sys2Proof.Machine.execClrLate ctx s
  | .triggerEnable line => Sys2Proof.Machine.execTriggerEnable line s
  | .triggerDisable line => Sys2Proof.Machine.execTriggerDisable line s
  | .triggerEdge line => Sys2Proof.Machine.execTriggerEdge line s
  | .triggerPulseEnd line => Sys2Proof.Machine.execTriggerPulseEnd line s
  | .triggerHoldEnd line => Sys2Proof.Machine.execTriggerHoldEnd line s
  | .fusionEnable => Sys2Proof.Machine.execFusionEnable s
  | .fusionInstant => Sys2Proof.Machine.execFusionInstant s
  | .fusedResultRelease => Sys2Proof.Machine.execFusedResultRelease s
  | .gptpSyncRx mac offset freqAdj cbSeq => Sys2Proof.Machine.execGptpSyncRx mac offset freqAdj cbSeq s
  | .gptpPdelayReqRx mac => Sys2Proof.Machine.execGptpPdelayReqRx mac s
  | .gptpPdelayRespRx mac delay => Sys2Proof.Machine.execGptpPdelayRespRx mac delay s
  | .syncTimeout => Sys2Proof.Machine.execSyncTimeout s
  | .holdoverLimit => Sys2Proof.Machine.execHoldoverLimit s
  | .planEnable => Sys2Proof.Machine.execPlanEnable s
  | .planDisable => Sys2Proof.Machine.execPlanDisable s
  | .planCycleStart => Sys2Proof.Machine.execPlanCycleStart s
  | .snapshotPublish => Sys2Proof.Machine.execSnapshotPublish s
  | .snapshotBuildDone => Sys2Proof.Machine.execSnapshotBuildDone s
  | .proposalTake => Sys2Proof.Machine.execProposalTake s
  | .candidateCheckDone lane => Sys2Proof.Machine.execCandidateCheckDone lane s
  | .planSelection finalAgrees => Sys2Proof.Machine.execPlanSelection finalAgrees s
  | .clrPlanStat n => Sys2Proof.Machine.execClrPlanStat n s
  | .regulatedRequestIssue master stall addr size isWrite deadline => Sys2Proof.Machine.execRegulatedRequestIssue master stall addr size isWrite deadline s
  | .regulatorRefill => Sys2Proof.Machine.execRegulatorRefill s
  | .commandSlotArbitration pc windowNeeds => Sys2Proof.Machine.execCommandSlotArbitration pc windowNeeds s
  | .regulatedRequestComplete req ecc => Sys2Proof.Machine.execRegulatedRequestComplete req ecc s
  | .retireGranuleCopied pc ecc => Sys2Proof.Machine.execRetireGranuleCopied pc ecc s
  | .scrubBurst ecc => Sys2Proof.Machine.execScrubBurst ecc s
  | .refreshSlot pc bank => Sys2Proof.Machine.execRefreshSlot pc bank s
  | .stackTempRead t0 t1 => Sys2Proof.Machine.execStackTempRead t0 t1 s
  | .refreshRateChange stack => Sys2Proof.Machine.execRefreshRateChange stack s
  | .memRegulationWrite offset value => Sys2Proof.Machine.execMemRegulationWrite offset value s
  | .clrPartStat n => Sys2Proof.Machine.execClrPartStat n s
  | .purlCrcResend link => Sys2Proof.Machine.execPurlCrcResend link s
  | .purlLinkDown link => Sys2Proof.Machine.execPurlLinkDown link s
  | .clrPurlRetry die k => Sys2Proof.Machine.execClrPurlRetry die k s
  | .clrPurlWhRetry k => Sys2Proof.Machine.execClrPurlWhRetry k s
  | .pairEnable => Sys2Proof.Machine.execPairEnable s
  | .pairTrainAttempt => Sys2Proof.Machine.execPairTrainAttempt s
  | .pairTrainTimeout => Sys2Proof.Machine.execPairTrainTimeout s
  | .trainA => Sys2Proof.Machine.execTrainA s
  | .trainB => Sys2Proof.Machine.execTrainB s
  | .trainC peerRole => Sys2Proof.Machine.execTrainC peerRole s
  | .skip => Sys2Proof.Machine.execSkip s
  | .data h xfer buffer last offset bytes => Sys2Proof.Machine.execData h xfer buffer last offset bytes s
  | .statusFlit h role mode step beatStep authority => Sys2Proof.Machine.execStatusFlit h role mode step beatStep authority s
  | .time h sent echo echoRecv beatStep => Sys2Proof.Machine.execTime h sent echo echoRecv beatStep s
  | .idle h => Sys2Proof.Machine.execIdle h s
  | .arrive h barrier gen => Sys2Proof.Machine.execArrive h barrier gen s
  | .release h barrier gen rel => Sys2Proof.Machine.execRelease h barrier gen rel s
  | .abort h isBarrier id gen reason => Sys2Proof.Machine.execAbort h isBarrier id gen reason s
  | .pairTimeSend => Sys2Proof.Machine.execPairTimeSend s
  | .pairStatusSend => Sys2Proof.Machine.execPairStatusSend s
  | .pairXferSend xfer => Sys2Proof.Machine.execPairXferSend xfer s
  | .pairLostTimeout => Sys2Proof.Machine.execPairLostTimeout s
  | .barrierTimeout barrier => Sys2Proof.Machine.execBarrierTimeout barrier s
  | .pcieLinkDown => Sys2Proof.Machine.execPcieLinkDown s
  | .pcieConfigRequest fn busMaster numVfs => Sys2Proof.Machine.execPcieConfigRequest fn busMaster numVfs s
  | .pfFlr => Sys2Proof.Machine.execPfFlr s
  | .vfFlr vf => Sys2Proof.Machine.execVfFlr vf s
  | .ringEnable fn ring => Sys2Proof.Machine.execRingEnable fn ring s
  | .ringDisable fn ring => Sys2Proof.Machine.execRingDisable fn ring s
  | .dbSqTail fn ring tail => Sys2Proof.Machine.execDbSqTail fn ring tail s
  | .dbCqHead fn ring head => Sys2Proof.Machine.execDbCqHead fn ring head s
  | .descFetch fn ring read => Sys2Proof.Machine.execDescFetch fn ring read s
  | .nop d => Sys2Proof.Machine.execNop d s
  | .knot d => Sys2Proof.Machine.execKnot d s
  | .execLoad d => Sys2Proof.Machine.execExecLoad d s
  | .execStart d => Sys2Proof.Machine.execExecStart d s
  | .execKill d killBeat => Sys2Proof.Machine.execExecKill d killBeat s
  | .execUnload d => Sys2Proof.Machine.execExecUnload d s
  | .iterationEnd fn slot => Sys2Proof.Machine.execIterationEnd fn slot s
  | .copy d read => Sys2Proof.Machine.execCopy d read s
  | .copyToInbound d read => Sys2Proof.Machine.execCopyToInbound d read s
  | .copyFromOutbound d => Sys2Proof.Machine.execCopyFromOutbound d s
  | .add d => Sys2Proof.Machine.execAdd d s
  | .set d => Sys2Proof.Machine.execSet d s
  | .wait d => Sys2Proof.Machine.execWait d s
  | .take d => Sys2Proof.Machine.execTake d s
  | .read d => Sys2Proof.Machine.execRead d s
  | .markArrive d => Sys2Proof.Machine.execMarkArrive d s
  | .markerTimeout d => Sys2Proof.Machine.execMarkerTimeout d s
  | .split d => Sys2Proof.Machine.execSplit d s
  | .join d => Sys2Proof.Machine.execJoin d s
  | .joinResyncDone d => Sys2Proof.Machine.execJoinResyncDone d s
  | .pairChangeBoundary fn slot => Sys2Proof.Machine.execPairChangeBoundary fn slot s
  | .joinWarmupEnd fn slot => Sys2Proof.Machine.execJoinWarmupEnd fn slot s
  | .checkpoint d => Sys2Proof.Machine.execCheckpoint d s
  | .checkpointBoundary stall => Sys2Proof.Machine.execCheckpointBoundary stall s
  | .descComplete d => Sys2Proof.Machine.execDescComplete d s
  | .msixCoalesceTimeout fn vector => Sys2Proof.Machine.execMsixCoalesceTimeout fn vector s
  | .agreementDigest c entry => Sys2Proof.Machine.execAgreementDigest c entry s
  | .agreementVerdict c entry delivered equal => Sys2Proof.Machine.execAgreementVerdict c entry delivered equal s
  | .gaugeChunkVerdict g window chunk => Sys2Proof.Machine.execGaugeChunkVerdict g window chunk s
  | .gaugeSignatureVerdict g => Sys2Proof.Machine.execGaugeSignatureVerdict g s
  | .gaugeMissingTimeout c => Sys2Proof.Machine.execGaugeMissingTimeout c s
  | .gaugeSwatchTimeout => Sys2Proof.Machine.execGaugeSwatchTimeout s
  | .clrCnt => Sys2Proof.Machine.execClrCnt s
  | .islandSupplyFault island => Sys2Proof.Machine.execIslandSupplyFault island s
  | .islandClockAlign island => Sys2Proof.Machine.execIslandClockAlign island s
  | .crossHeartbeat island cross hub => Sys2Proof.Machine.execCrossHeartbeat island cross hub s
  | .crossHbTimeout island => Sys2Proof.Machine.execCrossHbTimeout island s
  | .lockstepMismatch island => Sys2Proof.Machine.execLockstepMismatch island s
  | .peerFailSignal island => Sys2Proof.Machine.execPeerFailSignal island s
  | .islandSensorFrame island input edge => Sys2Proof.Machine.execIslandSensorFrame island input edge s
  | .pilotCycleStart island => Sys2Proof.Machine.execPilotCycleStart island s
  | .pilotPublish island cont stop grid => Sys2Proof.Machine.execPilotPublish island cont stop grid s
  | .pilotDeadline island => Sys2Proof.Machine.execPilotDeadline island s
  | .hubHeartbeat => Sys2Proof.Machine.execHubHeartbeat s
  | .hubHeartbeatLost island => Sys2Proof.Machine.execHubHeartbeatLost island s
  | .planRecordRelay island => Sys2Proof.Machine.execPlanRecordRelay island s
  | .mainPlanMissing island => Sys2Proof.Machine.execMainPlanMissing island s
  | .authorityHeartbeat => Sys2Proof.Machine.execAuthorityHeartbeat s
  | .hubTrajSend => Sys2Proof.Machine.execHubTrajSend s
  | .statusSend sender => Sys2Proof.Machine.execStatusSend sender s
  | .vehicleState m speed yawRate accel gear mrmActive => Sys2Proof.Machine.execVehicleState m speed yawRate accel gear mrmActive s
  | .yield m targetRole => Sys2Proof.Machine.execYield m targetRole s
  | .commandTake m targetRole peerYielded => Sys2Proof.Machine.execCommandTake m targetRole peerYielded s
  | .canBusOff controller => Sys2Proof.Machine.execCanBusOff controller s
  | .canBusOffRecovery controller => Sys2Proof.Machine.execCanBusOffRecovery controller s
  | .mainRestartStart => Sys2Proof.Machine.execMainRestartStart s
  | .mainRestartDone => Sys2Proof.Machine.execMainRestartDone s
  | .mainRestartFail => Sys2Proof.Machine.execMainRestartFail s
  | .errorRecordEnqueue => Sys2Proof.Machine.execErrorRecordEnqueue s
  | .errorHandlingDone => Sys2Proof.Machine.execErrorHandlingDone s
  | .errlogEnable => Sys2Proof.Machine.execErrlogEnable s
  | .swatchSliceStart r gapEnd => Sys2Proof.Machine.execSwatchSliceStart r gapEnd s
  | .swatchSliceEnd r => Sys2Proof.Machine.execSwatchSliceEnd r s
  | .swatchAbort r => Sys2Proof.Machine.execSwatchAbort r s
  | .swatchVerdict r signatureOk => Sys2Proof.Machine.execSwatchVerdict r signatureOk s
  | .swatchCoverageLate target => Sys2Proof.Machine.execSwatchCoverageLate target s
  | .clrSwatchCnt n => Sys2Proof.Machine.execClrSwatchCnt n s
  | .swatchPassDone => Sys2Proof.Machine.execSwatchPassDone s
  | .injectReportTimeout row inst => Sys2Proof.Machine.execInjectReportTimeout row inst s
  | .bypass => Sys2Proof.Machine.execBypass s
  | .idcode => Sys2Proof.Machine.execIdcode s
  | .samplePreload => Sys2Proof.Machine.execSamplePreload s
  | .extest => Sys2Proof.Machine.execExtest s
  | .internalScan => Sys2Proof.Machine.execInternalScan s
  | .debugAccess => Sys2Proof.Machine.execDebugAccess s
  | .scanCleared allZero => Sys2Proof.Machine.execScanCleared allZero s
  | .budgetTick => Sys2Proof.Machine.execBudgetTick s
  | .budgetReply die seq demand demandLower measured hottest flags => Sys2Proof.Machine.execBudgetReply die seq demand demandLower measured hottest flags s
  | .budgetMessage die => Sys2Proof.Machine.execBudgetMessage die s
  | .budgetMessageTimeout die => Sys2Proof.Machine.execBudgetMessageTimeout die s
  | .shedUndo => Sys2Proof.Machine.execShedUndo s
  | .voltageRampDone => Sys2Proof.Machine.execVoltageRampDone s
  | .ivrFault domain => Sys2Proof.Machine.execIvrFault domain s
  | .pmbusTelemetryRead readings => Sys2Proof.Machine.execPmbusTelemetryRead readings s
  | .pwrRailLimit => Sys2Proof.Machine.execPwrRailLimit s
  | .diodeRead readings => Sys2Proof.Machine.execDiodeRead readings s
  | .thermTripClear => Sys2Proof.Machine.execThermTripClear s
  | .thermPairSuspect pair => Sys2Proof.Machine.execThermPairSuspect pair s
  | .thermPairClear pair => Sys2Proof.Machine.execThermPairClear pair s
  | .thermSensorFault pair => Sys2Proof.Machine.execThermSensorFault pair s
  | .coolingProjection => Sys2Proof.Machine.execCoolingProjection s
  | .sentFrameRx input raw frameOk => Sys2Proof.Machine.execSentFrameRx input raw frameOk s
  | .sentInputLost input => Sys2Proof.Machine.execSentInputLost input s
  | .coolantStopShutdown => Sys2Proof.Machine.execCoolantStopShutdown s
  | .coolantFlowReturned => Sys2Proof.Machine.execCoolantFlowReturned s
  | .wakeInEdge pin rising => Sys2Proof.Machine.execWakeInEdge pin rising s
  | .pcieWakeIn => Sys2Proof.Machine.execPcieWakeIn s
  | .wakeAlarm => Sys2Proof.Machine.execWakeAlarm s
  | .thermInTrip => Sys2Proof.Machine.execThermInTrip s
  | .vaonMonitorTrip => Sys2Proof.Machine.execVaonMonitorTrip s
  | .wearLedgerMinute monitors => Sys2Proof.Machine.execWearLedgerMinute monitors s
  | .wearRecordHourly writeOk => Sys2Proof.Machine.execWearRecordHourly writeOk s
  | .whaResetRelease => Sys2Proof.Machine.execWhaResetRelease s
  | .driveReady => Sys2Proof.Machine.execDriveReady s
  | .whbResetRelease => Sys2Proof.Machine.execWhbResetRelease s
  | .aonReset => Sys2Proof.Machine.execAonReset s
  | .perstAssert => Sys2Proof.Machine.execPerstAssert s
  | .perstRelease => Sys2Proof.Machine.execPerstRelease s
  | .railLoss rail => Sys2Proof.Machine.execRailLoss rail s
  | .pwrSeqFail => Sys2Proof.Machine.execPwrSeqFail s
  | .recoverImage => Sys2Proof.Machine.execRecoverImage s
  | .writeImage => Sys2Proof.Machine.execWriteImage s
  | .writeConfig => Sys2Proof.Machine.execWriteConfig s
  | .flashWriteDone verified => Sys2Proof.Machine.execFlashWriteDone verified s
  | .quoteGo => Sys2Proof.Machine.execQuoteGo s
  | .quoteDone => Sys2Proof.Machine.execQuoteDone s
  | .submit => Sys2Proof.Machine.execSubmit s
  | .debugWindowClose => Sys2Proof.Machine.execDebugWindowClose s
  | .stallOpen stall => Sys2Proof.Machine.execStallOpen stall s
  | .stallOpenDone stall => Sys2Proof.Machine.execStallOpenDone stall s
  | .stallClose stall => Sys2Proof.Machine.execStallClose stall s
  | .stallDrained stall => Sys2Proof.Machine.execStallDrained stall s
  | .stallDrainGraceTimeout stall => Sys2Proof.Machine.execStallDrainGraceTimeout stall s
  | .stallCloseDone stall => Sys2Proof.Machine.execStallCloseDone stall s
  | .netMacEnable mac => Sys2Proof.Machine.execNetMacEnable mac s
  | .netMacDisable mac => Sys2Proof.Machine.execNetMacDisable mac s
  | .change mac => Sys2Proof.Machine.execChange mac s
  | .qbvChangeTime mac => Sys2Proof.Machine.execQbvChangeTime mac s
  | .qbvGateEntry mac => Sys2Proof.Machine.execQbvGateEntry mac s
  | .ethFrameTx mac tagged pcp bytes queuedAt => Sys2Proof.Machine.execEthFrameTx mac tagged pcp bytes queuedAt s
  | .qavEnable mac cls => Sys2Proof.Machine.execQavEnable mac cls s
  | .clrNetCnt mac k => Sys2Proof.Machine.execClrNetCnt mac k s
  | .sensorLinkRestored port => Sys2Proof.Machine.execSensorLinkRestored port s
  | .pcieLinkUp speed width => Sys2Proof.Machine.execPcieLinkUp speed width s
  | .islandSupplyRestored island => Sys2Proof.Machine.execIslandSupplyRestored island s
  | .islandAcceleratorThermalStop island => Sys2Proof.Machine.execIslandAcceleratorThermalStop island s
  | .pcieWakeNRelease => Sys2Proof.Machine.execPcieWakeNRelease s
  | .markerOwnerChange group fn => Sys2Proof.Machine.execMarkerOwnerChange group fn s

end Sys2Proof.Machine
end

