-- ==== Sys2Proof/Safety.lean ====
section
/-!
DEFINITION. Safety.lean: what counts as a good state, and what a command may change, in the terms the statements use.
-/

namespace Sys2Proof.Machine

/-- The three byte memories (device memory, host memory, boot flash) are in the canonical form: addresses strictly rising, no
byte equal to what an unlisted one reads as. -/
def State.memWf (s : State) : Prop := Tbl.wf 0 s.mem = true ∧ Tbl.wf 0 s.hostMem = true ∧ Tbl.wf 255 s.flash = true

/-- The 64-bit time base (R186) and the 48-bit event arbiter (R327) are in range. -/
def State.countersOk (s : State) : Prop := s.now < 2 ^ 64 ∧ s.arbSeq < 2 ^ 48

/-! ## Frames -/

/-- The components of State other than the queue of waiting commands. -/
inductive Component where
  | now | arbSeq | freeCount | shown | readData | latches | regs | mem | hostMem | mode | transition | deferred |
  degrade | fabric | sensing | timeBase | memSys | pair | host | safety | stalls | pools | flash | boot | gauge |
  swatch | devLog | since | planner | power | thermal | wake | wear | macTx
deriving DecidableEq, Repr

/-- Component `k` is the same in two states. -/
def sameAt (k : Component) (s t : State) : Prop :=
  match k with
  | .now => t.now = s.now
  | .arbSeq => t.arbSeq = s.arbSeq
  | .freeCount => t.freeCount = s.freeCount
  | .shown => t.shown = s.shown
  | .readData => t.readData = s.readData
  | .latches => t.latches = s.latches
  | .regs => t.regs = s.regs
  | .mem => t.mem = s.mem
  | .hostMem => t.hostMem = s.hostMem
  | .mode => t.mode = s.mode
  | .transition => t.transition = s.transition
  | .deferred => t.deferred = s.deferred
  | .degrade => t.degrade = s.degrade
  | .fabric => t.fabric = s.fabric
  | .sensing => t.sensing = s.sensing
  | .timeBase => t.timeBase = s.timeBase
  | .memSys => t.memSys = s.memSys
  | .pair => t.pair = s.pair
  | .host => t.host = s.host
  | .safety => t.safety = s.safety
  | .stalls => t.stalls = s.stalls
  | .pools => t.pools = s.pools
  | .flash => t.flash = s.flash
  | .boot => t.boot = s.boot
  | .gauge => t.gauge = s.gauge
  | .swatch => t.swatch = s.swatch
  | .devLog => t.devLog = s.devLog
  | .since => t.since = s.since
  | .planner => t.planner = s.planner
  | .power => t.power = s.power
  | .thermal => t.thermal = s.thermal
  | .wake => t.wake = s.wake
  | .wear => t.wear = s.wear
  | .macTx => t.macTx = s.macTx

/-- From `s` to `t` nothing changes but the components of `l`; the waiting commands stay as they are. -/
def changesOnly (l : List Component) (s t : State) : Prop := t.pending = s.pending ∧ ∀ k, k ∉ l → sameAt k s t

/-- Every stored register field but those of `l` holds in `t` what it holds in `s`. -/
def fieldsOnly (l : List (Fld × Nat × Nat)) (s t : State) : Prop :=
  ∀ f i j, i < 65536 → j < 65536 → (f, i, j) ∉ l → t.fld f i j = s.fld f i j

/-- Every byte of device memory outside [a, a + n) reads the same in `t` as in `s`. -/
def memOnly (a n : Nat) (s t : State) : Prop := ∀ x, x < a ∨ a + n ≤ x → t.devRead x 1 = s.devRead x 1

/-- Making an error record changes no more than these (R375): the event arbiter, the free values of its unstated details
and the queues of the islands. -/
def recordParts : List Component := [.arbSeq, .freeCount, .safety]

/-- From `s` to `t` one error record is made, with this code and this severity, and it is on its way to the islands (R375). -/
def recordMade (code sev : Nat) (s t : State) : Prop :=
  ∃ r : ErrRec, t.safety.errq.inFlight = s.safety.errq.inFlight ++ [r] ∧ r.code = code ∧ r.sev = sev

/-- As `recordMade`, where the command may make other records too. -/
def recordAmong (code sev : Nat) (s t : State) : Prop :=
  ∃ (l m : List ErrRec) (r : ErrRec), t.safety.errq.inFlight = s.safety.errq.inFlight ++ l ++ r :: m ∧ r.code = code ∧
    r.sev = sev

/-- The run of a command that a reference names (R59). -/
def State.runOf (s : State) (c : CmdRef) : Option CmdRun := (s.cmdRun c).map fun x => x.2.2.2

/-- The START in force of a program (R303). -/
def State.runningOf (s : State) (fn slot : Nat) : Option Running := (s.program fn slot).bind (·.running)

/-- The effect of descriptor `d` has completed in `t` with this status, severity and info (R300). -/
def completedWith (d : DescRef) (status sev info : Nat) (t : State) : Prop :=
  ∃ x, t.desc d = some x ∧ x.started = true ∧ x.done = some (status, sev, info)

/-- The fetched descriptor that a ticket names. -/
def State.ticketDesc (s : State) (k : Ticket) : Option Desc :=
  (Tbl.get Ring.zero s.host.rings k.ring).descs.find? fun x => x.order == k.order

/-- The effect of the descriptor that a ticket names has completed in `t` with this status, severity and info (R300). -/
def endedWith (k : Ticket) (status sev info : Nat) (t : State) : Prop :=
  ∃ x, t.ticketDesc k = some x ∧ x.done = some (status, sev, info)

/-- Descriptor `x` of `d` may start and nothing turns it away: its ring is ACTIVE, it has not started, no fence (R314, R315),
header wait (R298) or checkpoint (R476) holds it, it passes the checks of R299 and R316, and its stall is OPEN (R465). -/
def startable (s : State) (d : DescRef) (x : Desc) : Prop :=
  s.desc d = some x ∧ x.started = false ∧ x.done = none ∧ (s.ring d.fn d.ring).phase = .active ∧
    ((s.ring d.fn d.ring).badSince.any fun o => decide (o < x.order)) = false ∧ s.knotFree (ticketOf d x) x = true ∧ s.headerWaits x = false ∧
    s.copyHeld d.fn x = false ∧ s.descCheck d.fn x = none ∧ s.stallBars d.fn = false

/-- An operation that is inside what the manual describes in every state: arithmetic on registers, and accesses that lie in
tile SRAM. -/
def plainOp : TileOp → Bool
  | .loadWord _ _ off => decide (off + 4 ≤ tileSize)
  | .storeWord _ _ off bytes => decide (off + bytes ≤ tileSize) && decide (bytes ≤ 4)
  | .scalarLoad _ off => decide (off + 8 ≤ tileSize)
  | .scalarStore _ off => decide (off + 8 ≤ tileSize)
  | .pull die tile srcOff dstOff bytes => decide (srcOff + bytes ≤ tileSize) && decide (dstOff + bytes ≤ tileSize) &&
      decide (die < 6) && decide (tile < 40) && decide (bytes ≤ 256)
  | .accRead .. => true
  | .fma .. => true
  | .bf16Add .. => true
  | .bf16Mul .. => true
  | .bf16Fma .. => true
  | .int32Add .. => true
  | .int32Mul .. => true
  | .select .. => true
  | .depthwise .. => false
  | .readStatus .. => false
  | .inputConvert .. => false
  | .outputConvert .. => false
  | .macElement .. => false
  | .attendRow .. => false
  | .finishKey .. => false
  | .appendLatent .. => false
  | .markAdd .. => false
  | .markSet .. => false

/-- What each command may change. A restart request, a failed command or a shed program reaches far: what a long list says is
that the rest stays as it is. -/
def changedBy : Instr → List Component
  | .registerWrite .. => recordParts ++ [.readData, .regs, .mem, .mode, .transition, .deferred, .degrade, .fabric,
    .sensing, .timeBase, .memSys, .pair, .host, .stalls, .pools, .flash, .boot, .gauge, .swatch, .devLog, .since,
    .planner, .power, .thermal, .wear, .macTx]
  | .badAccessWidth .. => recordParts ++ [.readData]
  | .latchedReadLow .. => recordParts ++ [.readData, .latches]
  | .secLockSet .. => [.regs]
  | .modeReqPark .. => recordParts ++ [.regs, .mem, .mode, .transition, .deferred, .degrade, .fabric, .timeBase,
    .memSys, .pair, .host, .stalls, .pools, .gauge, .since, .planner]
  | .parkEntryDone .. => recordParts ++ [.now, .latches, .regs, .mem, .hostMem, .mode, .transition, .deferred, .degrade,
    .fabric, .sensing, .timeBase, .memSys, .pair, .host, .stalls, .pools, .flash, .boot, .gauge, .swatch, .devLog,
    .since, .planner, .power, .thermal, .wake, .wear, .macTx]
  | .modeReqNightMarket .. => recordParts ++ [.regs, .mem, .mode, .transition, .deferred, .degrade, .fabric, .timeBase,
    .memSys, .pair, .host, .stalls, .pools, .gauge, .since, .planner]
  | .nightCloseDone .. => recordParts ++ [.regs, .mem, .mode, .transition, .deferred, .degrade, .fabric, .timeBase,
    .memSys, .pair, .host, .stalls, .pools, .gauge, .devLog, .since, .planner]
  | .modeReqDrive .. => recordParts ++ [.regs, .mem, .mode, .transition, .deferred, .degrade, .fabric, .timeBase,
    .memSys, .pair, .host, .stalls, .pools, .gauge, .since, .planner]
  | .dayOpenStallsCleared .. => recordParts ++ [.regs, .mem, .transition, .fabric, .memSys, .pair, .host, .stalls,
    .pools, .gauge, .devLog, .planner]
  | .dayOpenScrubDone .. => recordParts ++ [.mem, .transition, .degrade, .fabric, .memSys, .stalls, .swatch]
  | .dayOpenAttested .. => recordParts ++ [.regs, .mem, .mode, .transition, .deferred, .degrade, .fabric, .host,
    .stalls, .pools, .flash, .boot, .devLog, .since, .wake, .wear]
  | .dayOpenDone .. => recordParts ++ [.regs, .mem, .mode, .transition, .deferred, .degrade, .fabric, .sensing, .memSys,
    .host, .stalls, .pools, .swatch, .devLog, .since, .planner]
  | .dayOpenLate .. => recordParts ++ [.transition]
  | .fabricBeat .. => recordParts ++ [.shown, .regs, .mem, .fabric, .memSys, .pair, .host, .stalls, .pools, .flash,
    .boot, .gauge, .devLog]
  | .iterationStart .. => recordParts ++ [.regs, .degrade, .fabric, .pair, .host, .gauge, .swatch]
  | .commandStart .. => recordParts ++ [.regs, .fabric, .pair, .host, .stalls, .pools, .devLog]
  | .commandCommit .. => recordParts ++ [.regs, .mem, .fabric, .host, .pools, .gauge, .planner]
  | .wideRerunDecision .. => [.fabric]
  | .engineJobStart .. => [.fabric]
  | .windowBookedBeat .. => recordParts ++ [.regs, .mem, .fabric, .memSys, .pair, .host, .stalls, .pools, .flash, .boot,
    .gauge, .devLog]
  | .purlDataRelease .. => recordParts ++ [.regs, .fabric, .pair, .host, .stalls, .pools, .devLog]
  | .outboundWriteComplete .. => [.regs, .mem, .fabric]
  | .handoverBookedRead .. => recordParts ++ [.regs, .mem, .fabric, .sensing, .pair, .host, .stalls, .pools, .devLog]
  | .commandKillBeat .. => recordParts ++ [.regs, .fabric, .pair, .host, .pools]
  | .watchDeviation .. => recordParts ++ [.regs, .mem, .fabric, .pair, .host, .stalls, .pools, .flash, .boot, .swatch,
    .devLog]
  | .beatStepChange .. => recordParts ++ [.regs, .fabric, .pair, .power]
  | .tallyClear .. => [.regs]
  | .clrRerun .. => [.regs]
  | .clrNan .. => [.regs]
  | .clrCentreOnly .. => [.regs]
  | .clrStemClip .. => [.regs]
  | .clrStarve .. => [.regs]
  | .clrDropped .. => [.regs]
  | .kvAllocBeat .. => recordParts ++ [.regs, .fabric, .pools]
  | .victimDropDone .. => recordParts ++ [.regs, .mem, .pools, .swatch]
  | .pageStarvedReissue .. => recordParts ++ [.regs, .degrade, .fabric, .pools, .swatch]
  | .pageHeldOpsApply .. => recordParts ++ [.regs, .mem, .hostMem, .host, .pools]
  | .createPool .. => recordParts ++ [.regs, .mem, .hostMem, .host, .pools]
  | .destroyPool .. => recordParts ++ [.regs, .mem, .hostMem, .host, .pools]
  | .openSeq .. => recordParts ++ [.regs, .mem, .hostMem, .host, .pools]
  | .closeSeq .. => recordParts ++ [.regs, .mem, .hostMem, .host, .pools]
  | .truncateSeq .. => recordParts ++ [.regs, .mem, .hostMem, .host, .pools]
  | .setClass .. => recordParts ++ [.regs, .mem, .hostMem, .host, .pools]
  | .pin .. => recordParts ++ [.regs, .mem, .hostMem, .host, .pools]
  | .unpin .. => recordParts ++ [.regs, .mem, .hostMem, .host, .pools]
  | .readSeq .. => recordParts ++ [.regs, .mem, .hostMem, .host, .pools]
  | .poolStatus .. => recordParts ++ [.regs, .mem, .hostMem, .host, .pools]
  | .csi2FrameStart .. => recordParts ++ [.regs, .mem, .sensing]
  | .csi2LongPacket .. => recordParts ++ [.regs, .mem, .sensing]
  | .csi2FrameEnd .. => recordParts ++ [.regs, .mem, .sensing]
  | .ethPacketRx .. => recordParts ++ [.regs, .mem, .sensing]
  | .sensorLinkLost .. => recordParts ++ [.regs, .mem, .sensing]
  | .streamLostTimeout .. => recordParts ++ [.regs, .mem, .sensing]
  | .streamCtxEnable .. => recordParts ++ [.regs, .mem, .degrade, .sensing]
  | .streamCtxDisable .. => recordParts ++ [.regs, .degrade, .fabric, .sensing]
  | .clrFaults .. => [.regs]
  | .clrLate .. => [.regs]
  | .triggerEnable .. => recordParts ++ [.regs, .sensing]
  | .triggerDisable .. => recordParts ++ [.regs]
  | .triggerEdge .. => [.sensing]
  | .triggerPulseEnd .. => [.sensing]
  | .triggerHoldEnd .. => [.regs, .sensing]
  | .fusionEnable .. => [.regs, .mem, .sensing]
  | .fusionInstant .. => recordParts ++ [.regs, .mem, .sensing]
  | .fusedResultRelease .. => recordParts ++ [.regs, .mem, .degrade, .fabric, .sensing]
  | .gptpSyncRx .. => recordParts ++ [.now, .sensing, .timeBase, .wear, .macTx]
  | .gptpPdelayReqRx .. => [.timeBase]
  | .gptpPdelayRespRx .. => [.timeBase]
  | .syncTimeout .. => recordParts ++ [.timeBase]
  | .holdoverLimit .. => recordParts ++ [.timeBase]
  | .planEnable .. => recordParts ++ [.regs, .host, .planner]
  | .planDisable .. => [.regs, .planner]
  | .planCycleStart .. => recordParts ++ [.regs, .host, .planner]
  | .snapshotPublish .. => [.regs, .host, .planner]
  | .snapshotBuildDone .. => recordParts ++ [.regs, .mem, .host, .planner]
  | .proposalTake .. => recordParts ++ [.regs, .mem, .fabric, .planner]
  | .candidateCheckDone .. => [.regs, .mem, .memSys, .planner]
  | .planSelection .. => recordParts ++ [.regs, .mem, .degrade, .memSys, .planner]
  | .clrPlanStat .. => [.regs]
  | .regulatedRequestIssue .. => recordParts ++ [.memSys]
  | .regulatorRefill .. => recordParts ++ [.degrade, .memSys]
  | .commandSlotArbitration .. => [.memSys]
  | .regulatedRequestComplete .. => recordParts ++ [.regs, .mem, .fabric, .memSys, .pair, .host, .stalls, .pools,
    .flash, .boot, .gauge, .devLog]
  | .retireGranuleCopied .. => recordParts ++ [.regs, .mem, .fabric, .memSys, .pair, .host, .stalls, .pools, .flash,
    .boot, .gauge, .devLog]
  | .scrubBurst .. => recordParts ++ [.regs, .mem, .fabric, .memSys, .pair, .host, .stalls, .pools, .flash, .boot,
    .gauge, .devLog]
  | .refreshSlot .. => [.memSys]
  | .stackTempRead .. => recordParts ++ [.memSys]
  | .refreshRateChange .. => recordParts ++ [.regs, .mem, .degrade, .fabric, .memSys, .pair, .host, .pools, .gauge]
  | .memRegulationWrite .. => recordParts ++ [.regs, .memSys]
  | .clrPartStat .. => [.regs]
  | .purlCrcResend .. => [.regs]
  | .purlLinkDown .. => recordParts ++ [.memSys]
  | .clrPurlRetry .. => [.regs]
  | .clrPurlWhRetry .. => [.regs]
  | .pairEnable .. => recordParts ++ [.regs]
  | .pairTrainAttempt .. => [.regs, .pair]
  | .pairTrainTimeout .. => recordParts ++ [.pair]
  | .trainA .. => recordParts ++ [.pair]
  | .trainB .. => recordParts ++ [.pair]
  | .trainC .. => recordParts ++ [.pair]
  | .skip .. => [.pair]
  | .data .. => [.mem, .fabric, .pair]
  | .statusFlit .. => [.pair]
  | .time .. => [.fabric, .pair]
  | .idle .. => [.pair]
  | .arrive .. => recordParts ++ [.regs, .fabric, .pair, .swatch]
  | .release .. => recordParts ++ [.regs, .fabric, .pair, .host, .swatch]
  | .abort .. => recordParts ++ [.regs, .mem, .fabric, .pair, .host, .pools]
  | .pairTimeSend .. => [.pair]
  | .pairStatusSend .. => [.pair]
  | .pairXferSend .. => [.mem, .fabric, .pair]
  | .pairLostTimeout .. => recordParts ++ [.regs, .fabric, .pair, .host]
  | .barrierTimeout .. => recordParts ++ [.regs, .fabric, .pair, .host]
  | .pcieLinkDown .. => recordParts ++ [.host]
  | .pcieConfigRequest .. => [.regs, .host]
  | .pfFlr .. => [.host]
  | .vfFlr .. => [.host]
  | .ringEnable .. => recordParts ++ [.regs, .host]
  | .ringDisable .. => [.regs, .host]
  | .dbSqTail .. => recordParts ++ [.host]
  | .dbCqHead .. => recordParts ++ [.host]
  | .descFetch .. => recordParts ++ [.hostMem, .host]
  | .nop .. => [.regs, .host]
  | .knot .. => [.regs, .host]
  | .execLoad .. => recordParts ++ [.regs, .mem, .fabric, .sensing, .memSys, .host, .stalls, .devLog]
  | .execStart .. => recordParts ++ [.regs, .degrade, .fabric, .pair, .host, .swatch]
  | .execKill .. => [.regs, .fabric, .host]
  | .execUnload .. => recordParts ++ [.regs, .mem, .fabric, .memSys, .host, .gauge]
  | .iterationEnd .. => recordParts ++ [.regs, .degrade, .fabric, .host, .pools, .planner]
  | .copy .. => recordParts ++ [.regs, .mem, .hostMem, .fabric, .memSys, .pair, .host, .stalls, .pools, .devLog]
  | .copyToInbound .. => recordParts ++ [.regs, .mem, .hostMem, .fabric, .memSys, .pair, .host, .stalls, .pools,
    .devLog]
  | .copyFromOutbound .. => recordParts ++ [.regs, .mem, .hostMem, .fabric, .memSys, .host]
  | .add .. => [.regs, .host, .planner]
  | .set .. => [.regs, .host, .planner]
  | .wait .. => [.regs, .host]
  | .take .. => [.regs, .host, .planner]
  | .read .. => [.regs, .hostMem, .host]
  | .markArrive .. => [.regs, .host, .planner]
  | .markerTimeout .. => [.regs, .host, .planner]
  | .split .. => recordParts ++ [.regs, .mem, .degrade, .fabric, .pair, .host, .gauge]
  | .join .. => recordParts ++ [.regs, .mem, .degrade, .fabric, .pair, .host, .gauge]
  | .joinResyncDone .. => recordParts ++ [.regs, .mem, .degrade, .fabric, .host, .gauge]
  | .pairChangeBoundary .. => recordParts ++ [.regs, .mem, .degrade, .fabric, .host, .gauge]
  | .joinWarmupEnd .. => recordParts ++ [.regs, .degrade, .fabric, .host]
  | .checkpoint .. => recordParts ++ [.regs, .degrade, .fabric, .host, .stalls, .pools]
  | .checkpointBoundary .. => [.arbSeq, .regs, .hostMem, .memSys, .host, .stalls, .devLog]
  | .descComplete .. => [.arbSeq, .regs, .mem, .hostMem, .fabric, .host, .stalls, .planner]
  | .msixCoalesceTimeout .. => [.regs, .host]
  | .agreementDigest .. => [.fabric]
  | .agreementVerdict .. => recordParts ++ [.regs, .mem, .fabric, .host, .gauge, .swatch]
  | .gaugeChunkVerdict .. => recordParts ++ [.regs, .mem, .fabric, .host, .gauge, .swatch]
  | .gaugeSignatureVerdict .. => recordParts ++ [.regs, .mem, .fabric, .host, .gauge, .swatch]
  | .gaugeMissingTimeout .. => recordParts ++ [.regs, .mem, .fabric, .host, .gauge, .swatch]
  | .gaugeSwatchTimeout .. => recordParts ++ [.regs]
  | .clrCnt .. => [.regs]
  | .islandSupplyFault .. => recordParts ++ [.regs, .boot]
  | .islandClockAlign .. => [.freeCount, .safety]
  | .crossHeartbeat .. => [.safety]
  | .crossHbTimeout .. => recordParts ++ [.degrade]
  | .lockstepMismatch .. => [.regs, .safety, .boot]
  | .peerFailSignal .. => recordParts ++ [.degrade]
  | .islandSensorFrame .. => [.safety]
  | .pilotCycleStart .. => recordParts
  | .pilotPublish .. => recordParts ++ [.degrade]
  | .pilotDeadline .. => recordParts
  | .hubHeartbeat .. => [.safety]
  | .hubHeartbeatLost .. => recordParts
  | .planRecordRelay .. => recordParts
  | .mainPlanMissing .. => recordParts
  | .authorityHeartbeat .. => [.safety]
  | .hubTrajSend .. => [.safety]
  | .statusSend .. => [.safety]
  | .vehicleState .. => recordParts ++ [.regs, .mem, .mode, .transition, .degrade, .fabric, .timeBase, .memSys, .pair,
    .host, .stalls, .pools, .gauge, .since, .planner]
  | .yield .. => recordParts ++ [.pair]
  | .commandTake .. => recordParts ++ [.pair]
  | .canBusOff .. => recordParts
  | .canBusOffRecovery .. => [.safety]
  | .mainRestartStart .. => recordParts ++ [.regs, .mem, .degrade, .fabric, .memSys, .pair, .host, .pools, .flash,
    .boot, .gauge, .swatch, .planner, .power, .thermal]
  | .mainRestartDone .. => recordParts ++ [.regs, .degrade, .thermal]
  | .mainRestartFail .. => recordParts
  | .errorRecordEnqueue .. => recordParts ++ [.regs, .hostMem, .degrade, .fabric, .host]
  | .errorHandlingDone .. => recordParts ++ [.regs, .hostMem, .degrade, .fabric, .host]
  | .errlogEnable .. => [.regs]
  | .swatchSliceStart .. => recordParts ++ [.regs, .fabric, .swatch]
  | .swatchSliceEnd .. => [.swatch]
  | .swatchAbort .. => recordParts ++ [.regs, .mem, .degrade, .fabric, .pair, .host, .stalls, .pools, .flash, .boot,
    .gauge, .swatch, .devLog, .planner, .thermal]
  | .swatchVerdict .. => recordParts ++ [.regs, .mem, .degrade, .fabric, .pair, .host, .stalls, .pools, .flash, .boot,
    .gauge, .swatch, .devLog, .planner, .thermal]
  | .swatchCoverageLate .. => recordParts ++ [.regs, .swatch]
  | .clrSwatchCnt .. => [.regs]
  | .swatchPassDone .. => recordParts ++ [.regs, .mem, .transition, .deferred, .degrade, .fabric, .sensing, .timeBase,
    .memSys, .host, .stalls, .pools, .boot, .gauge, .swatch, .devLog, .since, .planner]
  | .injectReportTimeout .. => recordParts ++ [.regs, .mem, .degrade, .fabric, .memSys, .pair, .host, .pools, .flash,
    .boot, .gauge, .swatch, .planner, .thermal]
  | .bypass .. => [.boot]
  | .idcode .. => [.boot]
  | .samplePreload .. => [.boot]
  | .extest .. => [.boot]
  | .internalScan .. => [.boot]
  | .debugAccess .. => [.boot]
  | .scanCleared .. => recordParts ++ [.regs, .mem, .mode, .transition, .deferred, .degrade, .fabric, .host, .stalls,
    .pools, .boot, .since]
  | .budgetTick .. => recordParts ++ [.regs, .degrade, .fabric, .memSys, .pair, .host, .stalls, .pools, .power,
    .thermal]
  | .budgetReply .. => [.power]
  | .budgetMessage .. => recordParts ++ [.regs, .mem, .fabric, .pair, .host, .stalls, .pools, .devLog, .power]
  | .budgetMessageTimeout .. => [.power]
  | .shedUndo .. => recordParts ++ [.regs, .fabric, .host, .stalls, .power]
  | .voltageRampDone .. => [.fabric, .power]
  | .ivrFault .. => recordParts ++ [.regs, .mem, .fabric, .pair, .host, .stalls, .pools, .boot, .devLog, .planner,
    .power]
  | .pmbusTelemetryRead .. => [.power]
  | .pwrRailLimit .. => recordParts ++ [.fabric, .power]
  | .diodeRead .. => recordParts ++ [.regs, .fabric, .pair, .host, .pools, .boot, .planner, .power, .thermal]
  | .thermTripClear .. => recordParts ++ [.degrade, .thermal]
  | .thermPairSuspect .. => recordParts ++ [.thermal]
  | .thermPairClear .. => [.thermal]
  | .thermSensorFault .. => recordParts ++ [.swatch, .thermal]
  | .coolingProjection .. => recordParts ++ [.thermal]
  | .sentFrameRx .. => recordParts ++ [.regs, .fabric, .pair, .host, .pools, .power, .thermal]
  | .sentInputLost .. => recordParts ++ [.thermal]
  | .coolantStopShutdown .. => recordParts ++ [.regs, .mem, .degrade, .fabric, .pair, .host, .stalls, .pools, .boot,
    .devLog, .planner, .thermal]
  | .coolantFlowReturned .. => recordParts ++ [.regs, .thermal]
  | .wakeInEdge .. => recordParts ++ [.regs, .mem, .mode, .transition, .degrade, .fabric, .timeBase, .memSys, .pair,
    .host, .stalls, .pools, .boot, .gauge, .since, .planner, .wake]
  | .pcieWakeIn .. => recordParts ++ [.regs, .transition, .boot, .since, .wake]
  | .wakeAlarm .. => recordParts ++ [.regs, .transition, .boot, .since, .wake]
  | .thermInTrip .. => [.regs, .wake]
  | .vaonMonitorTrip .. => recordParts ++ [.now, .regs, .sensing, .timeBase, .wake, .wear, .macTx]
  | .wearLedgerMinute .. => recordParts ++ [.regs, .wear]
  | .wearRecordHourly .. => recordParts ++ [.flash, .wear]
  | .whaResetRelease .. => recordParts ++ [.now, .latches, .regs, .mem, .mode, .transition, .deferred, .degrade,
    .fabric, .sensing, .timeBase, .memSys, .pair, .host, .stalls, .pools, .flash, .boot, .gauge, .swatch, .devLog,
    .since, .planner, .power, .thermal, .wake, .wear, .macTx]
  | .driveReady .. => recordParts ++ [.regs, .mode, .transition, .deferred, .degrade, .fabric, .host, .stalls, .pools,
    .boot, .swatch, .devLog, .since, .planner]
  | .whbResetRelease .. => recordParts ++ [.regs, .degrade, .boot]
  | .aonReset .. => recordParts ++ [.now, .regs, .sensing, .timeBase, .wake, .wear, .macTx]
  | .perstAssert .. => recordParts ++ [.host, .boot]
  | .perstRelease .. => [.boot]
  | .railLoss .. => recordParts ++ [.now, .latches, .regs, .mem, .transition, .deferred, .fabric, .sensing, .timeBase,
    .memSys, .pair, .host, .stalls, .pools, .flash, .boot, .gauge, .swatch, .devLog, .planner, .power, .thermal, .wake,
    .wear, .macTx]
  | .pwrSeqFail .. => recordParts ++ [.regs, .transition, .boot]
  | .recoverImage .. => recordParts ++ [.regs, .mem, .transition, .degrade, .fabric, .memSys, .stalls, .flash, .boot,
    .gauge, .swatch, .devLog, .since, .planner, .power, .thermal, .wear]
  | .writeImage .. => recordParts ++ [.regs, .boot]
  | .writeConfig .. => recordParts ++ [.regs, .boot]
  | .flashWriteDone .. => recordParts ++ [.regs, .flash, .boot]
  | .quoteGo .. => recordParts ++ [.boot]
  | .quoteDone .. => recordParts ++ [.hostMem, .boot]
  | .submit .. => recordParts ++ [.regs, .transition, .boot]
  | .debugWindowClose .. => recordParts ++ [.regs, .mem, .transition, .degrade, .fabric, .memSys, .flash, .boot, .gauge,
    .swatch, .since, .planner, .power, .thermal]
  | .stallOpen .. => recordParts ++ [.regs, .stalls]
  | .stallOpenDone .. => recordParts ++ [.regs, .mem, .memSys, .stalls, .devLog]
  | .stallClose .. => recordParts ++ [.regs, .degrade, .fabric, .host, .stalls, .pools]
  | .stallDrained .. => [.stalls]
  | .stallDrainGraceTimeout .. => recordParts ++ [.regs, .fabric, .pair, .host, .stalls, .pools]
  | .stallCloseDone .. => recordParts ++ [.regs, .mem, .degrade, .fabric, .memSys, .pair, .host, .stalls, .pools,
    .gauge, .devLog, .planner]
  | .netMacEnable .. => recordParts ++ [.regs]
  | .netMacDisable .. => recordParts ++ [.regs]
  | .change .. => recordParts ++ [.regs, .macTx]
  | .qbvChangeTime .. => [.regs, .macTx]
  | .qbvGateEntry .. => [.macTx]
  | .ethFrameTx .. => [.regs, .macTx]
  | .qavEnable .. => recordParts ++ [.regs, .macTx]
  | .clrNetCnt .. => [.regs]
  | .sensorLinkRestored .. => [.regs, .sensing]
  | .pcieLinkUp .. => [.host, .wake]
  | .islandSupplyRestored .. => [.safety, .boot]
  | .islandAcceleratorThermalStop .. => recordParts ++ [.degrade]
  | .pcieWakeNRelease .. => [.wake]
  | .markerOwnerChange .. => recordParts ++ [.regs, .host]

end Sys2Proof.Machine
end

