-- ==== Sys2Proof/Certificates/Slice0/Obligations.lean ====
section
/-!
DEFINITION. Certificates/Slice0/Obligations.lean: the statements for the provers.
-/

open Sys2Proof Sys2Proof.Machine

/-- One step takes the command at the front of the queue and runs it with the rest still waiting. -/
def Obligations.StepRunsTheFrontCommand : Prop :=
  ∀ (c : Instr) (rest : List Instr) (s : State),
    step { s with pending := c :: rest } = exec c { s with pending := rest }

/-- With nothing waiting, one step lets the time base count on by 1 ns while the always-on domain has its supply, and
stand while it has none (DESIGN CHOICE, log 1), and leaves the queue, the registers and every memory as they are. -/
def Obligations.IdleStepTicks : Prop :=
  ∀ s : State, s.pending = [] → ∃ t, step s = .next t ∧
    t.now = (if s.domainOn 38 then (s.now + 1) % 2 ^ 64 else s.now) ∧ t.pending = [] ∧ t.regs = s.regs ∧
    t.mem = s.mem ∧ t.hostMem = s.hostMem ∧ t.flash = s.flash

/-- Of R7, R41, R186, R489: after the always-on reset the device is in Park with the time base at 0 in FREE, the beat
counter at 0, every ring DISABLED, every marker 0, every stall CLOSED, every gate of every MAC open; every register
field holds the value of its Reset column, of which a few are written out. -/
def Obligations.ResetLeavesTheStatedValues : Prop :=
  let s := State.reset
  s.mode = .park ∧ s.transition = .none ∧ s.now = 0 ∧ s.timeBase.state = 0 ∧ s.fabric.beat = 0 ∧
  (∀ f r, (s.ring f r).phase = .disabled) ∧ (∀ m, s.marker m = 0) ∧ (∀ k, s.stall k = .closed) ∧
  (∀ n : Fin 6, ((s.mac n).gatesNow = 255)) ∧ (∀ f i j, s.fld f i j = f.resetAt i j) ∧
  s.fld .TIME_CFG_SYNC_TIMEOUT = 3 ∧ s.fld .TIME_CFG_HOLD_LIMIT = 10 ∧ s.fld .PLAN_CYCLE_PERIOD = 20000 ∧
  s.fld .PLAN_CYCLE_SELECT_OFFSET = 19500 ∧ s.fld .MEM_MASTER_MAP_PART = 0xBA9876543210 ∧
  s.fld .MEM_ADMIT_STATUS_L_SLOT = 222822 ∧ s.fld .HUB_CFG_NM_CFG_DRAIN_GRACE = 1000 ∧ s.fld .PWR_PKG_LIMIT_LIMIT = 380 ∧
  s.fld .PWR_THERM_CFG_TARGET = 105 ∧ s.fld .PWR_STATUS_STEP = 4 ∧ s.fld .MEM_PAIR_CFG_BARRIER_TIMEOUT = 1000 ∧
  s.fld .SENS_FUSION_PERIOD_PERIOD = 33333333 ∧ s.fld .RING_CFG_LOG2_ENTRIES 3 5 = 6 ∧
  s.fld .NET_MAC_CFG_SPEED 3 = 2 ∧ s.fld .NET_MAC_CFG_SPEED 4 = 0 ∧ s.fld .NET_TC_MAP_PCP_TC 2 = 0x00FAC688 ∧
  s.fld .CD_TILE_MAP_PHYS 5 39 = 39 ∧ s.fld .HUB_CFG_TALLY_SEL_CAUSE 12 = 13 ∧ s.fld .HUB_CFG_TALLY_SEL_CAUSE 13 = 0

/-- After reset the memories are canonical, the counters in range and nothing waits. -/
def Obligations.ResetMeetsTheInvariants : Prop :=
  State.reset.memWf ∧ State.reset.countersOk ∧ State.reset.pending = []

/-- Every step keeps the three byte memories in their canonical form. -/
def Obligations.StepKeepsMemoriesCanonical : Prop :=
  ∀ s t : State, step s = .next t → s.memWf → t.memWf

/-- Every step keeps the time base within its 64 bits and the event arbiter within its 48 bits. No step draws a free
value a second time: the number of values drawn never falls. -/
def Obligations.StepKeepsCountersInRange : Prop :=
  (∀ s t : State, step s = .next t → s.countersOk → t.countersOk) ∧
  (∀ s t : State, step s = .next t → s.freeCount ≤ t.freeCount)

/-- Every command but FABRIC_BEAT answers a next state in every state, and FABRIC_BEAT answers one or stops on a
pattern that the manual does not describe: nothing is refused. -/
def Obligations.EveryCommandAnswers : Prop :=
  ∀ (c : Instr) (s : State), (∃ t, exec c s = .next t) ∨
    (∃ bundles engines, c = .fabricBeat bundles engines ∧ exec c s = .fault .patternOutsideManual)

/-- What a command leaves alone: every component of the state outside `changedBy c`. -/
def Obligations.FrameOfEveryCommand : Prop :=
  ∀ (c : Instr) (s t : State), exec c s = .next t → changesOnly (changedBy c) s t

/-- R12: an access of another width, or one that is not naturally aligned, changes no register, a read returns zeros,
and a severity-0 record with code BAD_ACCESS_WIDTH is made. R12: a register write and a register read that are not
naturally aligned are such accesses. -/
def Obligations.BadAccessIsRecorded : Prop :=
  (∀ (fn : Fin 32) (offset width : Nat) (isWrite : Bool) (s : State),
     ¬(width = 4 ∧ offset % 4 = 0) → ¬(width = 8 ∧ offset % 8 = 0) →
     ∃ t r, exec (.badAccessWidth fn offset width isWrite) s = .next t ∧
       t.safety.errq.inFlight = s.safety.errq.inFlight ++ [r] ∧ r.code = 0x003 ∧ r.sev = 0 ∧ t.regs = s.regs ∧
       (isWrite = false → t.readData = 0) ∧ changesOnly (.readData :: recordParts) s t) ∧
  (∀ (fn : Fin 32) (offset value : Nat) (wide : Bool) (s : State), offset % (if wide then 8 else 4) ≠ 0 →
     exec (.registerWrite fn offset wide value) s = exec (.badAccessWidth fn offset (if wide then 8 else 4) true) s ∧
     exec (.latchedReadLow fn offset wide) s = exec (.badAccessWidth fn offset (if wide then 8 else 4) false) s)

/-- R41: a beat in which every sequencer issues operations that the manual describes, within what lanes and ring links
carry, advances the package beat counter by one, modulo 2^64, on all dies together; HUB_CFG_BEAT_COUNT reads as the
64-bit counter. -/
def Obligations.FabricBeatAdvances : Prop :=
  (∀ s : State, ∃ t, exec (.latchedReadLow 0 0x100 true) s = .next t ∧ t.readData = s.fabric.beat % 2 ^ 64 ∧
    changesOnly [.readData] s t) ∧
  ∀ (bundles : List Bundle) (engines : List EngineRead) (s : State), let l := (s.issueAll bundles).1
    (∀ b ∈ l, ∀ o ∈ b.ops, plainOp o = true) → s.overfull l = false →
    ∃ t, exec (.fabricBeat bundles engines) s = .next t ∧ t.fabric.beat = (s.fabric.beat + 1) % 2 ^ 64

/-- R323: an ARRIVE whose target, the next multiple of its value, would exceed 0xFFFF_FFFF adds nothing and completes
with MARKER_RANGE. -/
def Obligations.ArrivesOutOfRangeAddNothing : Prop :=
  ∀ (d : DescRef) (s : State) (x : Desc), startable s d x → x.val 0 1 = 4 → x.val 16 1 = 5 →
    let w := s.marker (x.val 18 2) + 1
    0xFFFFFFFF < alignUp w (x.val 20 4) →
    ∃ t sev info, exec (.markArrive d) s = .next t ∧ completedWith d 0x633 sev info t ∧
      t.host.markers = s.host.markers ∧ t.host.waits = s.host.waits ∧ changesOnly [.host] s t

/-- Of R76: a write to HUB_CFG_TALLY_SEL_n selects the cause and the source that tally n counts, for n = 13 to 63, and
changes nothing else. -/
def Obligations.TallySelectIsWritten : Prop :=
  ∀ (n v : Nat) (s : State), 13 ≤ n → n < 64 → ∃ t, exec (.registerWrite 0 (0x4000 + 4 * n) false v) s = .next t ∧
    t.fld .HUB_CFG_TALLY_SEL_CAUSE n = v % 256 ∧ t.fld .HUB_CFG_TALLY_SEL_SOURCE n = v / 256 % 65536 ∧
    fieldsOnly [(.HUB_CFG_TALLY_SEL_CAUSE, n, 0), (.HUB_CFG_TALLY_SEL_SOURCE, n, 0)] s t ∧ changesOnly [.regs] s t

/-- Of R11, R13: a naturally aligned read completes, and a 64-bit read of TIME_NOW returns all of the time base. R13
with the latch that the field table of TIME_NOW names: a read of the lower half returns bits [31:0] of the time base
and freezes the upper half, which the next read of that half returns, whatever the time base has become. -/
def Obligations.ReadsAndLatches : Prop :=
  ((∀ (fn : Fin 32) (offset : Nat) (wide : Bool) (s : State), offset % (if wide then 8 else 4) = 0 →
     ∃ t, exec (.latchedReadLow fn offset wide) s = .next t ∧ changesOnly [.readData, .latches] s t) ∧
   (∀ s : State, ∃ t, exec (.latchedReadLow 0 0x400000 true) s = .next t ∧ t.readData = s.now % 2 ^ 64 ∧
     t.latches = s.latches)) ∧
  (∀ (s t u v : State), exec (.latchedReadLow 0 0x400000 false) s = .next t → u.latches = t.latches →
     exec (.latchedReadLow 0 0x400004 false) u = .next v →
     t.readData = s.now % 4294967296 ∧ v.readData = s.now % 2 ^ 64 / 4294967296 ∧ changesOnly [.readData, .latches] s t)

/-- Of R485, R11: an access where no register stands, of 32 bits or of 64 whose halves both fall on gaps, reads as 0,
ignores the write, and makes no record. -/
def Obligations.GapsReadZeroAndIgnoreWrites : Prop :=
  ∀ (fn : Fin 32) (offset v : Nat) (s : State), offset % 4 = 0 → locate fn offset = none →
    exec (.registerWrite fn offset false v) s = .next s ∧
    exec (.latchedReadLow fn offset false) s = .next { s with readData := 0 } ∧
    (offset % 8 = 0 → locate fn (offset + 4) = none → exec (.registerWrite fn offset true v) s = .next s ∧
      exec (.latchedReadLow fn offset true) s = .next { s with readData := 0 })

/-- Of R490, Table 16.4: once SEC_LOCK is set, a write to SEC_LOCK, MEM_SPARE_CFG, HUB_CFG_RETAIN_BASE,
HUB_CFG_RETAIN_SIZE or PWR_PKG_LIMIT, or to a half of one, does nothing and is no refusal: CFG_ERROR does not change
and no record is made. R14: SEC_LOCK_SET sets the lock and changes nothing else. R488: a write that a rule refuses
shows in CFG_ERROR (one more, its function, offset and code) and changes no other register; here TIME_CFG's range of
SYNC_TIMEOUT (R519). -/
def Obligations.LocksAndRefusedWrites : Prop :=
  (∀ (v : Nat) (s : State), s.fld .SEC_LOCK_LOCK = 1 →
     (∀ o, o ∈ [0x900000, 0x600018, 0x60001C, 0x7100, 0x7104, 0x7108, 0x800018] →
       exec (.registerWrite 0 o false v) s = .next s) ∧
     (∀ o, o ∈ [0x600018, 0x7100] → exec (.registerWrite 0 o true v) s = .next s)) ∧
  (∀ s : State, ∃ t, exec .secLockSet s = .next t ∧ t.fld .SEC_LOCK_LOCK = 1 ∧ fieldsOnly [(.SEC_LOCK_LOCK, 0, 0)] s t ∧
     changesOnly [.regs] s t) ∧
  (∀ (v : Nat) (s : State), s.fld .TIME_CFG_GPTP_EN = 0 →
     (Fld.of .TIME_CFG_SYNC_TIMEOUT v = 0) → s.fld .HUB_CFG_CFG_ERROR_COUNT < 65535 →
     ∃ t, exec (.registerWrite 0 0x400010 false v) s = .next t ∧
       t.fld .HUB_CFG_CFG_ERROR_COUNT = s.fld .HUB_CFG_CFG_ERROR_COUNT + 1 ∧ t.fld .HUB_CFG_CFG_ERROR_FUNCTION = 0 ∧
       t.fld .HUB_CFG_CFG_ERROR_OFFSET = 0x400010 ∧ t.fld .HUB_CFG_CFG_ERROR_CODE = 0x005 ∧
       fieldsOnly [(.HUB_CFG_CFG_ERROR_COUNT, 0, 0), (.HUB_CFG_CFG_ERROR_FUNCTION, 0, 0),
         (.HUB_CFG_CFG_ERROR_OFFSET, 0, 0), (.HUB_CFG_CFG_ERROR_CODE, 0, 0)] s t ∧ changesOnly (.regs :: recordParts) s t)

/-- Of R429, R474, R482: with no transition in progress, a mode request that is admitted starts its transition: Park
from Drive while the vehicle is parked, Night-close from Drive while no admission condition fails, Day-open from Night
Market. The mode itself does not change yet. R429, R474: a mode request that is not admitted changes neither the mode
nor the transition; CFG_ERROR shows it, and its record carries the condition that failed for Night Market. R4: a mode
request that arrives while another transition runs waits for its end, and nothing else changes. -/
def Obligations.ModeRequests : Prop :=
  (∀ s : State, s.transition = .none →
     (s.mode = .drive → s.parked = true → ∃ t, exec .modeReqPark s = .next t ∧ t.transition = .park ∧ t.since = s.now ∧
       t.mode = .drive) ∧
     (s.mode = .drive → s.nightRefused false = none → ∃ t, exec .modeReqNightMarket s = .next t ∧
       t.transition = .nightClose ∧ t.since = s.now ∧ t.mode = .drive) ∧
     (∀ thenPark, s.mode = .nightMarket → ∃ t, exec (.modeReqDrive thenPark) s = .next t ∧
       t.transition = .dayOpen 0 thenPark false ∧ t.since = s.now ∧ t.mode = .nightMarket)) ∧
  (∀ s : State, s.transition = .none → s.mode = .drive →
     (s.parked = false → ∃ t, exec .modeReqPark s = .next t ∧ t.mode = .drive ∧ t.transition = .none ∧
       t.fld .HUB_CFG_CFG_ERROR_CODE = 0x002 ∧ changesOnly (.regs :: recordParts) s t) ∧
     (∀ n, s.nightRefused false = some n → ∃ t r, exec .modeReqNightMarket s = .next t ∧ t.mode = .drive ∧
       t.transition = .none ∧ t.fld .HUB_CFG_CFG_ERROR_CODE = 0xC01 ∧
       t.safety.errq.inFlight = s.safety.errq.inFlight ++ [r] ∧ r.code = 0xC01 ∧ r.detail0 = n ∧
       changesOnly (.regs :: recordParts) s t)) ∧
  (∀ s : State, s.transition ≠ .none → s.transition ≠ .nightClose →
     exec .modeReqPark s = .next { s with deferred := s.deferred ++ [0] } ∧
     exec .modeReqNightMarket s = .next { s with deferred := s.deferred ++ [2] } ∧
     exec (.modeReqDrive false) s = .next { s with deferred := s.deferred ++ [1] })

/-- Of R429, R475 and Tables 15.1 and 15.4: where each transition ends. PARK_ENTRY_DONE ends in Park with PARK_ACK
asserted, the always-on domain alone supplied and memory lost; NIGHT_CLOSE_DONE in Night Market; the rows of Day-open
follow each other and its last one ends in Drive; DAY_OPEN_LATE logs severity 2 and lets it go on. R4, R429, R483:
each of these commands leaves the state as it is while its transition has not come so far. -/
def Obligations.TransitionsEnd : Prop :=
  ((∀ s : State, s.transition = .park → s.pfEnded = true → s.wake.pending = none → s.deferred = [] →
     ∃ t, exec .parkEntryDone s = .next t ∧ t.mode = .park ∧ t.transition = .none ∧ t.wake.ack = true ∧ t.mem = [] ∧
       t.fld .PWR_DOMAINS_ON = 0x4000000000) ∧
   (∀ s : State, s.transition = .nightClose → s.pfEnded = true → s.deferred = [] →
     ∃ t, exec .nightCloseDone s = .next t ∧ t.mode = .nightMarket ∧ t.transition = .none ∧ t.since = s.now) ∧
   (∀ (s : State) (p l : Bool), s.transition = .dayOpen 0 p l →
     s.stallsDrained = true ∨ s.since + s.fld .HUB_CFG_NM_CFG_DRAIN_GRACE * 1000000 ≤ s.now →
     ∃ t, exec .dayOpenStallsCleared s = .next t ∧ t.transition = .dayOpen 1 p l ∧ t.mode = s.mode) ∧
   (∀ (s : State) (p l : Bool), s.transition = .dayOpen 1 p l →
     ∃ t, exec .dayOpenScrubDone s = .next t ∧ t.transition = .dayOpen 2 p l ∧ t.swatch.fullPass = true ∧
       t.swatch.passed = []) ∧
   (∀ (s : State) (p l : Bool), s.transition = .dayOpen 3 p l →
     (∃ t, exec (.dayOpenAttested true) s = .next t ∧ t.transition = .dayOpen 4 p l ∧
       t.devLog.count = s.devLog.count + 1 ∧ changesOnly [.transition, .devLog, .arbSeq, .freeCount] s t) ∧
     ∃ t, exec (.dayOpenAttested false) s = .next t ∧ t.mode = .park ∧ t.transition = .none ∧
       t.fld .SEC_BOOT_STATUS_LAST_CODE = 0xB03) ∧
   (∀ (s : State) (l : Bool), s.transition = .dayOpen 4 false l → s.pilotsReady = true → s.deferred = [] →
     ∃ t, exec .dayOpenDone s = .next t ∧ t.mode = .drive ∧ t.transition = .none ∧ t.since = s.now) ∧
   (∀ (s : State) (r : Nat) (p : Bool), s.transition = .dayOpen r p false → s.since + 3000000000 ≤ s.now →
     ∃ t, exec .dayOpenLate s = .next t ∧ t.transition = .dayOpen r p true ∧ recordMade 0xC13 2 s t ∧
       changesOnly (.transition :: recordParts) s t)) ∧
  (∀ s : State,
     (s.transition ≠ .park ∨ s.pfEnded = false → exec .parkEntryDone s = .next s) ∧
     (s.transition ≠ .nightClose ∨ s.pfEnded = false → exec .nightCloseDone s = .next s) ∧
     ((∀ p l, s.transition ≠ .dayOpen 0 p l) → exec .dayOpenStallsCleared s = .next s) ∧
     ((∀ p l, s.transition ≠ .dayOpen 1 p l) → exec .dayOpenScrubDone s = .next s) ∧
     ((∀ p l, s.transition ≠ .dayOpen 3 p l) → ∀ d, exec (.dayOpenAttested d) s = .next s) ∧
     ((∀ p l, s.transition ≠ .dayOpen 4 p l) → exec .dayOpenDone s = .next s) ∧
     (s.now < s.since + 3000000000 → exec .dayOpenLate s = .next s))

/-- Of R41, R96, R136 and the Operations of 03: what one operation of a running command's bundle leaves in a vector
register lane, on a tile of its group, in a beat in which the sequencers issue that bundle alone. Fused multiply-add
rounds once, of FP32 and of BF16 lanes; INT32 addition and multiplication saturate; select takes `a` when the sign bit
of `c` is 1. The lane written is the only one that changes. A load outside the tile's SRAM, which the manual does not
describe, stops with patternOutsideManual (log 6). -/
def Obligations.VectorOperations : Prop :=
  ∀ (b : Bundle) (engines : List EngineRead) (s : State) (p : Program) (it : Iteration) (c : Command) (r : CmdRun),
    s.cmdRun b.ref = some (p, it, c, r) → r.phase = .running → (s.issueAll [b]).1 = [b] →
    let g := s.vreg b.die b.tile
    let result (o : TileOp) (reg lane v : Nat) : Prop := b.ops = [o] → reg < 32 → lane < 256 →
      ∃ t, exec (.fabricBeat [b] engines) s = .next t ∧ t.vreg b.die b.tile reg lane = v % 2 ^ 32 ∧
        (∀ (d : Fin 6) (k : Fin 40) (i : Fin 32) (j : Fin 256), (d, k, i.val, j.val) ≠ (b.die, b.tile, reg, lane) →
          t.vreg d k i j = s.vreg d k i j)
    (∀ dst lane off, tileSize < off + 4 → off % 4 = 0 → b.ops = [.loadWord dst lane off] →
      exec (.fabricBeat [b] engines) s = .fault .patternOutsideManual) ∧
    ∀ dst a b c lane, result (.fma dst a b c lane) dst lane (f32fma (g a lane) (g b lane) (g c lane)) ∧
      result (.bf16Add dst a b lane) dst lane (bf16add (g a lane) (g b lane)) ∧
      result (.bf16Mul dst a b lane) dst lane (bf16mul (g a lane) (g b lane)) ∧
      result (.bf16Fma dst a b c lane) dst lane (bf16fma (g a lane) (g b lane) (g c lane)) ∧
      result (.int32Add dst a b lane) dst lane (sat32 (signed 32 (g a lane) + signed 32 (g b lane))) ∧
      result (.int32Mul dst a b lane) dst lane (sat32 (signed 32 (g a lane) * signed 32 (g b lane))) ∧
      result (.select dst a b c lane) dst lane (if bit (g c lane) 31 then g a lane else g b lane)

/-- Of R303: at the frame boundary chosen for it an iteration starts: it is the last of the START's iterations,
numbered by the iterations that its program has begun, starting at this beat, every command of it idle, and the count
goes up. R59, R60, R63, R116: how a command of an iteration runs at its beats: it starts, where its dies are on and
none of its tiles stays idle (Table 12.3), an engine job of it starts on every die of its group whose engine is free,
its re-run is decided, and it commits, with nothing left in its shadow storage or on its way, unless its program is
being shed (R268). R61, R51, R479: a command whose ring or hub data is absent at its release beat fails with PURL_LATE
and will not commit; the other commands of its iteration run on, unless it is a stall's, whose programs are then
killed with a record of the stall. -/
def Obligations.ProgramCommandsAdvance : Prop :=
  (∀ (fn : Fin 32) (slot : Fin 16) (s : State) (p : Program) (r : Running), s.program fn slot = some p → p.running = some r →
     r.next = some s.fabric.beat → s.fabric.beat % 8192 = 0 → p.changeDue s.fabric.beat = false →
     s.stallWaits fn = false →
     ∃ t r', exec (.iterationStart fn slot) s = .next t ∧ t.runningOf fn slot = some r' ∧ r'.count = r.count + 1 ∧
       r'.left = r.left.map (· - 1) ∧
       r'.iters = r.iters ++ [Iteration.fresh p p.begun s.fabric.beat (p.entryBeat r.entry) r.entry false]) ∧
  (∀ (c : CmdRef) (s : State) (p : Program) (it : Iteration) (k : Command) (r : CmdRun), s.cmdRun c = some (p, it, k, r) →
     (r.phase = .idle → s.fabric.beat = it.start + k.start → it.entryBeat ≤ k.start →
       (∀ d, d < 6 → k.tiles.getD d 0 ≠ 0 → s.fabric.dieOn.getD d false = true) → s.idleTile k = false → p.layerAt k = none →
       ∃ t r', exec (.commandStart c) s = .next t ∧ t.runOf c = some r' ∧ r'.phase = .running ∧
         r'.began = some s.fabric.beat ∧ changesOnly [.fabric] s t) ∧
     (∀ (job : Nat) (e : Engine), p.engines[job]? = some e → r.phase = .running → e.cmd = k.id →
       s.fabric.beat = it.start + e.start → (∀ j ∈ r.jobs, j.entry ≠ job) →
       ∃ t r', exec (.engineJobStart c job) s = .next t ∧ t.runOf c = some r' ∧
         r'.jobs.map (fun j => (j.die, j.entry)) = r.jobs.map (fun j => (j.die, j.entry)) ++
           ((s.diesOf p it k).filter fun d => !s.engineBusy d e.kind).map (fun d => (d, job)) ∧
         r'.shadow = r.shadow ∧ changesOnly [.fabric] s t) ∧
     (r.phase = .running → k.wideRerun = true → r.decided = false → s.fabric.beat = it.start + k.decision →
       ∃ t r', exec (.wideRerunDecision c) s = .next t ∧ t.runOf c = some r' ∧ r'.decided = true ∧ r'.phase = .running ∧
         changesOnly [.fabric] s t) ∧
     (r.phase = .running → s.fabric.beat = it.start + k.commit → (k.wideRerun = true → r.decided = true) →
       p.agreementsIn it k r = true → p.doomed = false →
       ∃ t r', exec (.commandCommit c) s = .next t ∧ t.runOf c = some r' ∧ r'.phase = .committed ∧
         r'.ended = some s.fabric.beat ∧ r'.reads = [] ∧ r'.past = [] ∧ r'.shadow = [] ∧ r'.inputs = [] ∧ r'.arrivals = [] ∧ r'.jobs = [])) ∧
  (∀ (c : CmdRef) (s : State) (p : Program) (it : Iteration) (k : Command) (r : CmdRun), s.cmdRun c = some (p, it, k, r) →
     r.uncommitted = true → it.entryBeat ≤ k.start → p.fn = c.fn → p.slot = c.slot →
     (c.fn = 0 ∨ s.stall c.fn = .closed →
       ∃ t r', exec (.purlDataRelease c false) s = .next t ∧ t.runOf c = some r' ∧ r'.phase = .failed 0x140 ∧
         recordMade 0x140 (s.sev32 k.safety) s t ∧
         ∀ j, j ≠ c.cmd → t.runOf { c with cmd := j } = s.runOf { c with cmd := j }) ∧
     (c.fn ≠ 0 → s.stall c.fn ≠ .closed → ∃ t, exec (.purlDataRelease c false) s = .next t ∧
       recordAmong 0x140 (s.sev32 k.safety) s t ∧ recordAmong 0xC22 2 s t) ∧
     exec (.purlDataRelease c true) s = .next s)

/-- Of R50, R59: a window that its iteration has not served sends its data at its booked beat, usable or complete 96 +
⌈s/800⌉ beats later: an inbound target-0 one from memory that answers (R407) to its command's tiles, with device
memory unchanged; an outbound one of a committed command to its addresses. R50, R51, R272: at the beat at which data
on its way is due, in a beat in which no pattern runs and no program is being shed: a window's data becomes the input
of its command, or fails it with PURL_LATE when a link that it crosses is down; a write stands at its addresses, and
no other byte changes. -/
def Obligations.WindowsMoveData : Prop :=
  (∀ (c : CmdRef) (i : Nat) (w : Window) (s : State) (p : Program) (it : Iteration) (k : Command) (r : CmdRun),
     s.cmdRun c = some (p, it, k, r) → p.windows[i]? = some w → w.cmd = k.id → s.fabric.beat = it.start + w.beat →
     (∀ x ∈ it.served, x.1 ≠ i) → s.runsOn p it w.die = true → it.entryBeat ≤ k.start → w.target = 0 →
     s.memoryUp (s.devAddr p.fn w.addr) w.size = true →
     let a := s.devAddr p.fn w.addr
     let b := tileBase w.die w.tile + w.tileOff
     (w.dir = 0 → r.uncommitted = true → s.poisonedIn a w.size = false →
       ∃ t r', exec (.windowBookedBeat c i []) s = .next t ∧ t.runOf c = some r' ∧ t.mem = s.mem ∧ r'.inputs = r.inputs ∧
         r'.arrivals = r.arrivals ++
           [⟨s.fabric.beat + 96 + ceilDiv w.size 800, [6 + w.die], true, [(b, s.devRead a w.size)], [], none⟩]) ∧
     (w.dir = 1 → r.phase = .committed → p.secondary w = false → ∀ ecc,
       ∃ t, exec (.windowBookedBeat c i ecc) s = .next t ∧ t.mem = s.mem ∧ t.fabric.outgoing = s.fabric.outgoing ++
         [⟨s.fabric.beat + 96 + ceilDiv w.size 800, w.die, a, s.devRead b w.size⟩])) ∧
  ((∀ (c : CmdRef) (s : State) (p : Program) (it : Iteration) (k : Command) (r : CmdRun) (x : Nat) (l : List Byte)
       (due : Nat) (links : List Nat) (engines : List EngineRead), s.cmdRun c = some (p, it, k, r) → s.runningRefs = [] → s.awaiting = [c] →
     r.arrivals = [⟨due, links, true, [(x, l)], [], none⟩] → (s.programs.all fun q => !q.doomed) = true → due ≤ s.fabric.beat + 1 → s.fabric.beat + 1 < 2 ^ 64 →
     (s.linksGood links = true → ∃ t r', exec (.fabricBeat [] engines) s = .next t ∧ t.runOf c = some r' ∧
       r'.inputs = overlay r.inputs x l ∧ r'.arrivals = []) ∧
     (s.linksGood links = false → r.uncommitted = true → it.entryBeat ≤ k.start → p.fn = c.fn → p.slot = c.slot →
       (c.fn = 0 ∨ s.stall c.fn = .closed) → ∃ t r', exec (.fabricBeat [] engines) s = .next t ∧ t.runOf c = some r' ∧ r'.phase = .failed 0x140)) ∧
   ∀ (s : State) (x : Outgoing) (engines : List EngineRead), s.runningRefs = [] → s.awaiting = [] →
     (s.programs.all fun q => !q.doomed) = true → s.fabric.outgoing = [x] →
     x.due ≤ s.fabric.beat + 1 → s.fabric.beat + 1 < 2 ^ 64 →
     ∃ t, exec (.fabricBeat [] engines) s = .next t ∧ t.fabric.outgoing = [] ∧ t.devRead x.addr x.bytes.length = x.bytes ∧
       memOnly x.addr x.bytes.length s t)

/-- Of R55, R58: when the write of an outbound handover window is complete, the half it filled is ready with the
buffer's next generation. R56, R57: the booked read of an inbound handover buffer that no stream backs takes its
newest ready half, whose ready bit it clears; with none ready and policy 1 the iteration reads zeros. -/
def Obligations.HandoverBuffersTurn : Prop :=
  (∀ (c : CmdRef) (i half : Nat) (w : Window) (b : Buffer) (h : Half) (s : State) (p : Program) (it : Iteration) (k : Command)
     (r : CmdRun), s.cmdRun c = some (p, it, k, r) → p.windows[i]? = some w → w.target = 2 → p.secondary w = false →
     it.served.find? (fun x => x.1 == i) = some (i, half) → i ∉ it.written → it.invalid = false →
     s.fabric.beat = it.start + w.beat + windowBeats w.size → s.buffer (w.addr % 1024) = some b → b.halves[half]? = some h →
     ∃ t b' h', exec (.outboundWriteComplete c i) s = .next t ∧ t.buffer (w.addr % 1024) = some b' ∧
       b'.gen = nextGen b.gen ∧ b'.halves[half]? = some h' ∧ h'.ready = true ∧ h'.gen = nextGen b.gen ∧ h'.bytes = w.size) ∧
  (∀ (c : CmdRef) (n : Fin 1024) (i : Nat) (h : Handover) (b : Buffer) (s : State) (p : Program) (it : Iteration) (k : Command)
     (r : CmdRun), s.cmdRun c = some (p, it, k, r) →
     p.handovers.findIdx? (fun h => h.bufId == n.val && h.dir == 0 && h.cmd == k.id) = some i → p.handovers[i]? = some h →
     s.fabric.beat = it.start + h.booked → (∀ x ∈ it.reads, x.1 ≠ i) → r.uncommitted = true → it.entryBeat ≤ k.start →
     s.backing n = none → s.buffer n = some b →
     (∀ j x, b.newest = some j → b.halves[j]? = some x →
       ∃ t it' b' x', exec (.handoverBookedRead c n) s = .next t ∧ t.iteration c.fn c.slot c.iter = some it' ∧
         it'.reads = it.reads ++ [(i, x.gen * 2 + 1, some (b.halfAddr j))] ∧ t.buffer n = some b' ∧ b'.lastRead = some j ∧
         b'.halves[j]? = some x' ∧ x'.ready = false) ∧
     (b.newest = none → h.policy = 1 →
       ∃ t it', exec (.handoverBookedRead c n) s = .next t ∧ t.iteration c.fn c.slot c.iter = some it' ∧
         it'.reads = it.reads ++ [(i, 0, none)] ∧ t.mem = s.mem))

/-- Of R66, R67, R306: at its kill beat a program with commands to kill, or with no iteration begun, ends its run, and
what commits at that beat is not killed; one whose commands have all committed starts no further iteration, and its
KILL completes with KILL_TOO_LATE. R73, R74, R76: a watch whose command's commit does not come at its expected beat is
logged with both recorded beats, and goes on to the next command of its iteration that uses it, and of a stall's
program is a fault of the stall; at its beat a change of the beat step takes effect and is logged, severity 1 when the
step falls; TALLY_CLEAR zeroes the tallies of its mask and no other field. -/
def Obligations.KillsStepsAndWatches : Prop :=
  (∀ (fn : Fin 32) (slot : Fin 16) (s : State) (p : Program) (r : Running) (b : Nat) (k : Ticket),
     s.program fn slot = some p → p.running = some r → (b, k) ∈ r.kill → s.fabric.beat = b → r.waitsReissue = false →
     (killable p b ≠ [] ∨ r.count = 0 → ∃ t p', exec (.commandKillBeat fn slot) s = .next t ∧ t.program fn slot = some p' ∧
       p'.running = none) ∧
     (killable p b = [] → r.count ≠ 0 → r.iters ≠ [] →
       ∃ t r', exec (.commandKillBeat fn slot) s = .next t ∧ t.runningOf fn slot = some r' ∧ r'.next = none ∧
         r'.stopped = true ∧ r'.kill = [] ∧ r'.iters = r.iters)) ∧
  ((∀ (die : Fin 6) (n : Fin 64) (s : State), let x := s.watch die n
     x.armed = true → x.commit ≠ some x.expCommit → x.expCommit < s.fabric.beat → x.fn < 32 →
       (x.fn = 0 ∨ s.stall x.fn = .closed → ∃ t r, exec (.watchDeviation die ⟨n, none⟩) s = .next t ∧
         (s.program x.fn x.slot = none → t.watch die n = Watch.zero) ∧
         (∀ p it c, s.program x.fn x.slot = some p → s.iteration x.fn x.slot x.iter = some it → p.commands[x.index]? = some c →
           t.watch die n = (s.nextWatch p it die n c.start).watch die n) ∧
         t.safety.errq.inFlight = s.safety.errq.inFlight ++ [r] ∧ r.code = 0x130 ∧ (r.sev = 2 ∨ r.sev = 3) ∧
         r.detail0 = x.cmd ∧
         r.detail1 = x.start.getD 0 % 4294967296 + 4294967296 * (x.commit.getD 0 % 4294967296) ∧
         changesOnly (.fabric :: recordParts) s t) ∧
       (x.fn ≠ 0 → s.stall x.fn ≠ .closed → ∃ t, exec (.watchDeviation die ⟨n, none⟩) s = .next t ∧
         (recordAmong 0x130 2 s t ∨ recordAmong 0x130 3 s t) ∧ recordAmong 0xC22 2 s t ∧
         bit (t.fld .HUB_CFG_STALL_STATUS_EVENTS x.fn) 2 = true)) ∧
   (∀ (s : State) (n b : Nat), s.fabric.pendingStep = some (n, b) → s.fabric.beat = b →
     ∃ t, exec .beatStepChange s = .next t ∧ t.fabric.step = n ∧ t.fabric.pendingStep = none ∧ t.fabric.beat = b ∧
       recordMade 0xA22 (if n < s.fabric.step then 1 else 0) s t) ∧
   (∀ (mask : Nat) (s : State), ∃ t, exec (.tallyClear mask) s = .next t ∧
     (∀ n : Fin 64, t.fld .HUB_CFG_TALLY_CNT_COUNT n = if bit mask n then 0 else s.fld .HUB_CFG_TALLY_CNT_COUNT n) ∧
     fieldsOnly ((List.range 64).map fun n => (.HUB_CFG_TALLY_CNT_COUNT, n, 0)) s t ∧ changesOnly [.regs] s t))

/-- Of R161, Table 5.9: a PAGE descriptor that may start, on a pool that no iteration uses and that its function may
name, completes at once with the effect of its op. -/
def Obligations.PageOperations : Prop :=
  ∀ (d : DescRef) (s : State) (x : Desc) (p : Pool), startable s d x → x.val 0 1 = 7 →
    s.pool (x.val 18 2) = some p → s.poolHeld (x.val 18 2) = false → p.held = [] → (d.fn = 0 ∨ p.stall = d.fn) →
    let id := x.val 18 2
    let k := x.val 20 4
    let seqIn (t : State) : Option Seq := (t.pool id).bind fun p => p.seq k
    (x.val 16 1 = 2 → p.seqs = [] →
      ∃ t, exec (.destroyPool d) s = .next t ∧ completedWith d 0 0 0 t ∧ t.pool id = none ∧ t.mem = s.mem) ∧
    (x.val 16 1 = 3 → k < p.maxSeqs → p.seq k = none → x.val 17 1 ≤ 7 → p.safety = false →
      ∃ t q, exec (.openSeq d) s = .next t ∧ completedWith d 0 0 0 t ∧ seqIn t = some q ∧ q.cls = x.val 17 1 ∧
        q.length = 0 ∧ q.pinned = false) ∧
    (∀ q, p.seq k = some q →
      (x.val 16 1 = 4 → ∃ t p', exec (.closeSeq d) s = .next t ∧ completedWith d 0 0 0 t ∧ t.pool id = some p' ∧
        p'.seq k = none ∧ p'.free.length = p.free.length + (q.pages.filter (· ≠ 0xFFFFFFFE)).length) ∧
      (x.val 16 1 = 5 → x.val 24 4 ≤ q.length → ∃ t q', exec (.truncateSeq d) s = .next t ∧ completedWith d 0 0 0 t ∧
        seqIn t = some q' ∧ q'.length = x.val 24 4 ∧ q'.alloc = x.val 24 4 ∧ q'.truncated = false) ∧
      (x.val 16 1 = 6 → x.val 17 1 ≤ 7 → ∃ t, exec (.setClass d) s = .next t ∧ completedWith d 0 0 0 t ∧
        seqIn t = some { q with cls := x.val 17 1 }) ∧
      (x.val 16 1 = 7 → ∃ t, exec (.pin d) s = .next t ∧ completedWith d 0 0 0 t ∧
        seqIn t = some { q with pinned := true }) ∧
      (x.val 16 1 = 8 → ∃ t, exec (.unpin d) s = .next t ∧ completedWith d 0 0 0 t ∧
        seqIn t = some { q with pinned := false })) ∧
    (x.val 16 1 = 9 → k < p.maxSeqs → ∃ t, exec (.readSeq d) s = .next t ∧ completedWith d 0 0 64 t ∧
      t.hostRead (x.val 32 8) 64 = seqEntry k (p.seq k) ∧ t.mem = s.mem ∧ t.pools = s.pools) ∧
    (x.val 16 1 = 10 → ∃ t, exec (.poolStatus d) s = .next t ∧ completedWith d 0 0 16 t ∧
      t.hostRead (x.val 32 8) 16 = leBytes 4 p.free.length ++ leBytes 4 p.seqs.length ++ leBytes 8 p.appends ∧
      t.mem = s.mem ∧ t.pools = s.pools)

/-- Of R161, R148: CREATE_POOL makes the pool that its descriptor in host memory lays out; an operation on a pool that
is in use is held; a held PIN is applied once no iteration uses the pool. R164, R170, R171: at alloc_beat a batch that
the pages it may take cover takes them into shadow (and their hot slots are filled); one that they do not cover counts
a starvation; once its victims are dropped a killed iteration is booked again at a boundary 2,048 beats or more ahead;
and there it starts again as a re-issue. -/
def Obligations.PoolsAndPages : Prop :=
  ((∀ (d : DescRef) (s : State) (x : Desc), startable s d x → x.val 0 1 = 7 → x.val 16 1 = 1 →
     s.pool (x.val 18 2) = none → let b := s.hostRead (x.val 32 8) 128
     fieldAt b 0 2 = x.val 18 2 → s.poolFieldsOk d.fn b (poolOf b) = true →
       ∃ t, exec (.createPool d) s = .next t ∧ completedWith d 0 0 0 t ∧ t.pool (x.val 18 2) = some (poolOf b)) ∧
   (∀ (d : DescRef) (s : State) (x : Desc) (p : Pool), startable s d x → x.val 0 1 = 7 → x.val 16 1 = 7 →
     s.pool (x.val 18 2) = some p → s.poolHeld (x.val 18 2) = true →
       ∃ t, exec (.pin d) s = .next t ∧ t.pool (x.val 18 2) = some { p with held := p.held ++ [ticketOf d x] } ∧
         t.desc d = some { x with started := true } ∧ changesOnly [.host, .pools] s t) ∧
   (∀ (n : Fin 256) (s : State) (p : Pool) (k : Ticket) (x : Desc) (q : Seq), s.pool n = some p → p.held = [k] →
     s.poolHeld n = false → k.ring < 256 →
     s.ticketDesc k = some x → x.val 16 1 = 7 →
     x.val 18 2 = n → p.seq (x.val 20 4) = some q →
       ∃ t p', exec (.pageHeldOpsApply n) s = .next t ∧ t.pool n = some p' ∧ p'.held = [] ∧
         p'.seq (x.val 20 4) = some { q with pinned := true })) ∧
  ((∀ (c : CmdRef) (s : State) (p : Program) (it : Iteration) (k : Command) (r : CmdRun) (a : Attn) (q : Pool),
     s.cmdRun c = some (p, it, k, r) → r.attn = some a → s.pool a.pool = some q → a.append = true → a.allocBeat ≠ 0 →
     r.phase = .running → s.fabric.beat = it.start + a.allocBeat → r.pages = [] →
     let need := (a.entries.map q.needOf).foldl (· + ·) 0
     let avail := s.takeable a.pool q c.fn c.slot it k.id
     (need ≤ avail.length → ∃ t r', exec (.kvAllocBeat c) s = .next t ∧ t.runOf c = some r' ∧
       r' = { r with pages := nameGrants (q.grants a.entries) avail, shadow := r'.shadow } ∧
       (q.grants a.entries = [] → r'.shadow = r.shadow) ∧ changesOnly [.fabric, .pools] s t) ∧
     (avail.length < need → s.fld .CD_KV_STARVE_COUNT_COUNT q.die < 65535 → ∃ t, exec (.kvAllocBeat c) s = .next t ∧
       t.fld .CD_KV_STARVE_COUNT_COUNT q.die = s.fld .CD_KV_STARVE_COUNT_COUNT q.die + 1)) ∧
   (∀ (n : Fin 256) (s : State) (q : Pool) (x : Starved) (p : Program), s.pool n = some q → q.starved = [x] →
     x.done = false → s.program x.fn x.slot = some p → p.waitsReissue = true →
       ∃ t q', exec (.victimDropDone n) s = .next t ∧ t.pool n = some q' ∧
         q'.starved = [{ x with done := true, at_ := some (alignUp (s.fabric.beat + 2048) 8192) }]) ∧
   (∀ (n : Fin 256) (s : State) (q : Pool) (x : Starved) (p : Program) (r : Running), s.pool n = some q →
     q.starved.find? (fun y => y.at_ == some s.fabric.beat) = some x → s.program x.fn x.slot = some p → p.running = some r →
     s.stallWaits x.fn = false →
       ∃ t r' it, exec (.pageStarvedReissue n) s = .next t ∧ t.runningOf x.fn x.slot = some r' ∧
         r'.iters = r.iters ++ [it] ∧ it.reissued = true ∧ it.start = s.fabric.beat ∧ it.number = p.begun))

/-- Of R180, R182, R194, R202: the packets of a CSI-2 stream whose port and virtual channel reach one context: a Frame
Start takes a free slot, a long packet of its data type is written behind the frame record (outside open stalls,
R463), a Frame End completes the frame, raising RUN, or counts the failure found in it. The context stamps by exposure
(TS_SRC = 1) in the first clause, by Frame Start in the last. -/
def Obligations.CsiFrames : Prop :=
  ∀ (port vc : Fin 16) (n : Fin 128) (s : State), s.csiContexts port vc = [n.val] →
    (∀ number k, (s.ctx n).frame = none → (s.trig (s.lineOf n)).holdEnd = none → (s.ctx n).take = some (k, false) →
      s.fld .SENS_STREAM_CTX_TS_SRC n = 1 →
      ∃ t f, exec (.csi2FrameStart port vc number) s = .next t ∧ (t.ctx n).frame = some f ∧ f.slot = some k ∧
        f.number = number % 65536 ∧ f.ref = s.now ∧ f.discard = false ∧ (t.ctx n).lastStart = s.now) ∧
    (∀ dt l f k, s.fld .SENS_STREAM_CTX_DT n = dt → dt ≠ 0x12 → (s.ctx n).frame = some f → f.discard = false →
      f.failed = none → f.slot = some k → 256 + f.bytes + l.length ≤ s.fld .SENS_STREAM_SLOT_SIZE_SIZE n →
      let a := s.slotAddr n k + 256 + f.bytes
      s.inOpenStall a l.length = false → ∃ t, exec (.csi2LongPacket port vc dt l true true true) s = .next t ∧ t.devRead a l.length = l ∧
        memOnly a l.length s t ∧ (t.ctx n).frame = some { f with bytes := f.bytes + l.length } ∧
        changesOnly [.mem, .sensing] s t) ∧
    (∀ f, (s.ctx n).frame = some f → (s.ctx n).lost = false → f.discard = false → s.fld .SENS_STREAM_CTX_TS_SRC n = 0 →
      ∃ t, exec (.csi2FrameEnd port vc) s = .next t ∧ (t.ctx n).frame = none ∧
        (f.failed = none → (t.ctx n).run = min 255 ((s.ctx n).run + 1)) ∧
        (∀ c, f.failed = some c → s.fld .SENS_STREAM_FAULTS_PLAUS_FAIL n < 255 → (t.ctx n).run = 0 ∧
          t.fld .SENS_STREAM_FAULTS_PLAUS_FAIL n = s.fld .SENS_STREAM_FAULTS_PLAUS_FAIL n + 1))

/-- Of R177, R180 and NET_MAC_CNT: a frame that an enabled MAC takes is counted, by its FCS; a UDP packet of a frame
goes, behind its length, into the context's slot; what no context takes goes to the control cluster while its queue
has room (its depth is PRESUMED, log 8); one with a bad FCS that no context takes is only counted. -/
def Obligations.EthernetPackets : Prop :=
  ∀ (m : Fin 6) (udp : Bool) (vlan port : Nat) (l : List Byte) (s : State), s.domainOn 33 = true →
    s.fld .NET_MAC_CFG_ENABLE m ≠ 0 → frameLength udp vlan port l ≤ s.fld .NET_MAC_CFG_MAX_FRAME m →
    (udp = false ∨ s.ethContext m vlan port = none →
      (s.sensing.clusterQueue.length < clusterDepth → s.fld .NET_MAC_CNT_COUNT m 0 < 65535 →
        ∃ t, exec (.ethPacketRx m udp vlan port l true true) s = .next t ∧
          t.sensing.clusterQueue = s.sensing.clusterQueue ++ [(m.val, l)] ∧
          t.fld .NET_MAC_CNT_COUNT m 0 = s.fld .NET_MAC_CNT_COUNT m 0 + 1 ∧
          fieldsOnly [(.NET_MAC_CNT_COUNT, m, 0)] s t ∧ changesOnly [.regs, .sensing] s t) ∧
      (∀ ok, s.fld .NET_MAC_CNT_COUNT m 1 < 65535 → ∃ t, exec (.ethPacketRx m udp vlan port l false ok) s = .next t ∧
        t.fld .NET_MAC_CNT_COUNT m 1 = s.fld .NET_MAC_CNT_COUNT m 1 + 1 ∧
        fieldsOnly [(.NET_MAC_CNT_COUNT, m, 1)] s t ∧ changesOnly [.regs] s t)) ∧
    (∀ (n : Nat) (f : Frame) (k : Nat), udp = true → s.ethContext m vlan port = some n → (s.ctx n).frame = some f → f.packets ≠ 0 →
      f.discard = false → f.failed = none → f.slot = some k →
      256 + f.bytes + (ethItem l).length ≤ s.fld .SENS_STREAM_SLOT_SIZE_SIZE n →
      f.packets + 1 < s.fld .SENS_STREAM_LIMITS_PKTS_PER_FRAME n →
      let a := s.slotAddr n k + 256 + f.bytes
      s.inOpenStall a (ethItem l).length = false → ∃ t, exec (.ethPacketRx m true vlan port l true true) s = .next t ∧ t.devRead a (ethItem l).length = ethItem l ∧
        memOnly a (ethItem l).length s t ∧
        (t.ctx n).frame = some { f with bytes := f.bytes + (ethItem l).length, packets := f.packets + 1 })

/-- Of R201: a lost sensor link makes every enabled context of its port lost with RUN 0; a restored one lets the next
complete frame clear that, and changes nothing else of them; a context whose frames stay away for LOST_PERIODS periods
is lost. R184, R185, R211: enabling a context that passes the checks and is admitted starts it UNSYNC and unanchored;
one that does not pass is refused with STREAM_CTX_BAD; disabling drops what it held, but for its buffer's generation,
and changes no other register field (R209: the sensing step may rise by it). R190 to R193, R211: a trigger line in
range is driven from its enabling, its first edge 1 µs later at the earliest; an edge at its time starts a pulse of
WIDTH × 10 ns, which ends; a re-arm hold ends; a line that a context is bound to stays enabled. R197, R205: enabling
fusion starts with the instant of the present time; at T_i instant i becomes the current one; the newest complete
result is released for its instant. -/
def Obligations.StreamsTriggersAndFusion : Prop :=
  ((∀ (p : SensorPort) (s : State) (n : Nat), n ∈ s.portContexts p →
     (∃ t, exec (.sensorLinkLost p) s = .next t ∧ (t.ctx n).lost = true ∧ (t.ctx n).run = 0 ∧ (t.ctx n).linkUp = false ∧
       (t.ctx n).frame = none) ∧
     (∃ t, exec (.sensorLinkRestored p) s = .next t ∧ t.ctx n = { s.ctx n with linkUp := true } ∧ t.mem = s.mem)) ∧
   (∀ (n : Fin 128) (s : State), s.ctxOn n = true → (s.ctx n).lost = false →
     (s.ctx n).lastStart + s.fld .SENS_STREAM_PARAM_LOST_PERIODS n * s.period (s.lineOf n) ≤ s.now →
     ∃ t, exec (.streamLostTimeout n) s = .next t ∧ (t.ctx n).lost = true ∧ (t.ctx n).run = 0 ∧ (t.ctx n).suspect = false)) ∧
  (∀ (n : Fin 128) (s : State),
     let gen := ((s.buffer (s.fld .SENS_STREAM_PARAM_BUFFER_ID n)).map (·.gen)).getD 0
     let u := (s.setFld .SENS_STREAM_CTX_ENABLE 1 n).setCtx n { Context.zero with lastStart := s.now, gen := gen }
     (s.ctxOn n = false → s.ctxGood n = true → u.ctxDeclared n = false ∨ u.admits = true →
       ∃ t, exec (.streamCtxEnable n) s = .next t ∧ t.fld .SENS_STREAM_CTX_ENABLE n = 1 ∧ (t.ctx n).health = 2 ∧
         (t.ctx n).anchored = false ∧ (t.ctx n).lastStart = s.now ∧ fieldsOnly [(.SENS_STREAM_CTX_ENABLE, n, 0)] s t) ∧
     (s.ctxOn n = false → s.ctxGood n = false → ∃ t, exec (.streamCtxEnable n) s = .next t ∧
       t.ctx n = s.ctx n ∧ t.ctxOn n = false ∧ t.fld .HUB_CFG_CFG_ERROR_CODE = 0x301 ∧
       changesOnly (.regs :: recordParts) s t) ∧
     (∃ t, exec (.streamCtxDisable n) s = .next t ∧ t.ctxOn n = false ∧ t.ctx n = Context.zero ∧
       fieldsOnly [(.SENS_STREAM_CTX_ENABLE, n, 0)] s t ∧ changesOnly (recordParts ++ [.regs, .degrade, .fabric, .sensing]) s t)) ∧
  (∀ (n : Fin 32) (s : State),
     (s.fld .SENS_TRIG_CTRL_ENABLE n = 0 → s.triggerGood n = true →
       ∃ t, exec (.triggerEnable n) s = .next t ∧ t.fld .SENS_TRIG_CTRL_ENABLE n = 1 ∧ (t.trig n).driven = true ∧
         (t.trig n).earliest = s.now + 1000 ∧ fieldsOnly [(.SENS_TRIG_CTRL_ENABLE, n, 0)] s t ∧
         changesOnly [.regs, .sensing] s t) ∧
     (s.fld .SENS_TRIG_CTRL_ENABLE n = 0 → s.triggerGood n = false →
       ∃ t, exec (.triggerEnable n) s = .next t ∧ t.fld .SENS_TRIG_CTRL_ENABLE n = 0 ∧
         t.fld .HUB_CFG_CFG_ERROR_CODE = 0x303 ∧ changesOnly (.regs :: recordParts) s t) ∧
     (s.fld .SENS_TRIG_CTRL_ENABLE n ≠ 0 → s.lineBound n = false →
       ∃ t, exec (.triggerDisable n) s = .next t ∧ t.fld .SENS_TRIG_CTRL_ENABLE n = 0 ∧
         fieldsOnly [(.SENS_TRIG_CTRL_ENABLE, n, 0)] s t ∧ changesOnly [.regs] s t) ∧
     (s.fld .SENS_TRIG_CTRL_ENABLE n = 1 → s.lineBound n = true →
       ∃ t, exec (.triggerDisable n) s = .next t ∧ t.fld .SENS_TRIG_CTRL_ENABLE n = 1 ∧
         t.fld .HUB_CFG_CFG_ERROR_CODE = 0x004 ∧ changesOnly (.regs :: recordParts) s t) ∧
     (∀ k, s.edgeNow n = some k → s.fld .SENS_TRIG_CTRL_ENABLE n = 1 → s.edgeExists n k = true →
       (∀ l, (s.trig n).barred = some l → l < k) →
       ∃ t, exec (.triggerEdge n) s = .next t ∧ (t.trig n).lastEdge = some k ∧
         (t.trig n).pulseEnd = some (s.now + s.fld .SENS_TRIG_CTRL_WIDTH n * 10) ∧
         (∀ m, m ≠ n.val → t.trig m = s.trig m) ∧ changesOnly [.sensing] s t) ∧
     (∀ e, (s.trig n).pulseEnd = some e → e ≤ s.now →
       ∃ t, exec (.triggerPulseEnd n) s = .next t ∧ t.trig n = { s.trig n with pulseEnd := none } ∧
         (∀ m, m ≠ n.val → t.trig m = s.trig m) ∧ changesOnly [.sensing] s t) ∧
     (∀ e, (s.trig n).holdEnd = some e → e ≤ s.now →
       ∃ t, exec (.triggerHoldEnd n) s = .next t ∧ t.trig n = { s.trig n with holdEnd := none } ∧
         t.fld .SENS_TRIG_CTRL_HOLDING n = 0 ∧ fieldsOnly [(.SENS_TRIG_CTRL_HOLDING, n, 0)] s t ∧
         changesOnly [.regs, .sensing] s t)) ∧
  ((∀ s : State, ∃ t, exec .fusionEnable s = .next t ∧ t.fusing = true ∧ t.sensing.instant = s.instantAt s.now ∧
     fieldsOnly [(.SENS_FUSION_CFG_ENABLE, 0, 0)] s t ∧ changesOnly [.regs, .mem, .sensing] s t) ∧
   (∀ (s : State) (i : Nat), s.fusing = true → s.instantAt s.now = some i → (∀ j, s.sensing.instant = some j → j < i) →
     ∃ t, exec .fusionInstant s = .next t ∧ t.sensing.instant = some i) ∧
   (∀ (s : State) (b : Buffer) (j : Nat) (h : Half), s.fusing = true →
     s.buffer (s.fld .SENS_FUSION_CFG_RESULT_BUF) = some b → b.newest = some j → b.halves[j]? = some h →
     h.usable = true → b.entry.dir ≠ 0 → h.released = false →
     ∃ t b' h', exec .fusedResultRelease s = .next t ∧ t.buffer (s.fld .SENS_FUSION_CFG_RESULT_BUF) = some b' ∧
       b'.halves[j]? = some h' ∧ h'.released = true ∧
       t.sensing.released = some ((if h.instant.isSome then h.instant else s.sensing.instant).getD 0, s.now)))

/-- Of R186, R187, Table 6.3: the time base's gPTP events on a MAC that carries gPTP. A Sync within 100 ns counts as
good, the sixteenth in a row reaches LOCKED with its record; a copy whose 802.1CB number is not ahead of the last
one's only shows that its path is alive; peer delay is answered and stored; LOCKED ends for want of a Sync, HOLDOVER
at its limit, after which the time base runs uncorrected. R188: outside Drive, while the time base is not LOCKED, an
offset above 1 µs is removed by one step of the acquisition, which is logged; in Drive the time base never steps. -/
def Obligations.TimeBaseIsKept : Prop :=
  ((∀ (m : Fin 6) (s : State), s.gptpOn m = true →
     (∀ (o f : Int) (q : Nat), s.syncKnown q = false → o.natAbs ≤ 100 →
       ∃ t, exec (.gptpSyncRx m o f q) s = .next t ∧ t.now = s.now ∧ t.timeBase.good = min 16 (s.timeBase.good + 1) ∧
         t.timeBase.lastSync = some s.now ∧ t.timeBase.slew = o ∧ t.timeBase.cbSeq = some q ∧
         (15 ≤ s.timeBase.good → s.timeBase.state ≠ 2 → t.timeBase.state = 2 ∧ recordMade 0x340 0 s t) ∧
         (s.timeBase.good < 15 → t.timeBase.state = s.timeBase.state)) ∧
     (∀ (o f : Int) (q n : Nat), s.fld .TIME_CFG_CB_EN = 1 → s.timeBase.cbSeq = some n → n < 65536 → q ≤ n → n < q + 32768 →
       exec (.gptpSyncRx m o f q) s = .next { s with timeBase := { s.timeBase with lastSync := some s.now } }) ∧
     (∃ t, exec (.gptpPdelayReqRx m) s = .next t ∧ t.timeBase.pdelayAnswers = s.timeBase.pdelayAnswers + 1 ∧
       t.now = s.now ∧ changesOnly [.timeBase] s t) ∧
     (∀ delay, ∃ t, exec (.gptpPdelayRespRx m delay) s = .next t ∧
       (m.val < s.timeBase.delays.length → t.timeBase.delays[m.val]? = some delay) ∧
       (∀ k, k ≠ m.val → t.timeBase.delays[k]? = s.timeBase.delays[k]?) ∧ changesOnly [.timeBase] s t)) ∧
   (∀ s : State, s.timeBase.state = 2 → s.syncDeadline ≤ s.now →
     ∃ t, exec .syncTimeout s = .next t ∧ t.timeBase.state = 1 ∧ t.timeBase.holdSince = s.now ∧ recordMade 0x341 1 s t ∧
       changesOnly (.timeBase :: recordParts) s t) ∧
   (∀ s : State, s.timeBase.state = 1 → s.fld .TIME_CFG_HOLD_LIMIT * 100000 * 2000000 < s.holdError →
     ∃ t, exec .holdoverLimit s = .next t ∧ t.timeBase.state = 0 ∧ t.timeBase.freqAdj = 0 ∧ t.timeBase.slew = 0 ∧ recordMade 0x342 1 s t ∧
       changesOnly (.timeBase :: recordParts) s t)) ∧
  (∀ (m : Fin 6) (o f : Int) (q : Nat) (s : State), s.gptpOn m = true →
     s.syncKnown q = false →
     (s.inDrive = false → s.timeBase.state ≠ 2 → s.timeBase.stepped = false → 1000 < o.natAbs →
       ∃ t, exec (.gptpSyncRx m o f q) s = .next t ∧ (t.now : Int) = ((s.now : Int) - o) % 2 ^ 64 ∧
         t.timeBase.stepped = true ∧ t.timeBase.slew = 0 ∧ recordMade 0x344 0 s t) ∧
     (s.inDrive = true → ∃ t, exec (.gptpSyncRx m o f q) s = .next t ∧ t.now = s.now))

/-- Of R212, R213, R216, R241: a planning set-up that R241 accepts is enabled, and the first snapshot buffer granted
by a unit on FREE_MARKER; one that it does not accept is refused; disabling ends the cycle in progress. R213, R217,
R218, R220: at the start of a plan cycle a STANDBY snapshot becomes ACTIVE and the cycle begins with nothing taken; a
unit of PUBLISH_MARKER moves the granted buffer to BUILDING, and the engine's TAKE of it goes behind one that waits
(R322); a build that finds no fault puts it on STANDBY with the next epoch, one that does is logged with severity 2.
-/
def Obligations.PlanCyclesAndSnapshots : Prop :=
  (∀ s : State,
     (s.fld .PLAN_CFG_ENABLE ≠ 1 → s.planSetupOk = true → s.planner.granted = none →
       ∃ t, exec .planEnable s = .next t ∧ t.fld .PLAN_CFG_ENABLE = 1 ∧ t.planner.granted = some 0 ∧
         (s.planner.states ≠ [] → t.planner.states[0]? = some 0) ∧ t.planner.cycle = none ∧
         ((∀ w ∈ s.host.waits, w.marker ≠ s.fld .PLAN_MARKERS_FREE_MARKER) →
           t.marker (s.fld .PLAN_MARKERS_FREE_MARKER) = (s.marker (s.fld .PLAN_MARKERS_FREE_MARKER) + 1) % 2 ^ 32)) ∧
     (s.fld .PLAN_CFG_ENABLE ≠ 1 → s.planSetupOk = false →
       ∃ t, exec .planEnable s = .next t ∧ t.planner = s.planner ∧ t.fld .HUB_CFG_CFG_ERROR_CODE = 0x401 ∧
         t.fld .PLAN_CFG_ENABLE = s.fld .PLAN_CFG_ENABLE ∧ changesOnly (.regs :: recordParts) s t) ∧
     (∃ t, exec .planDisable s = .next t ∧ t.fld .PLAN_CFG_ENABLE = 0 ∧ t.planner.cycle = none ∧ t.planner.queue = [] ∧
       t.planner.waiting = [] ∧ fieldsOnly [(.PLAN_CFG_ENABLE, 0, 0)] s t ∧ changesOnly [.regs, .planner] s t)) ∧
  ((∀ s : State, s.planning = true → s.planner.first ≤ s.cycleNow →
     ∃ t y, exec .planCycleStart s = .next t ∧ t.planner.cycle = some y ∧ y.number = s.cycleNow.toNat ∧
       y.start = s.cycleStart y.number ∧ y.selected = false ∧ y.taken = [] ∧ y.checked = 0 ∧ t.planner.queue = [] ∧
       t.planner.waiting = [] ∧ (∀ b, s.planner.inState 2 = some b → b < s.planner.states.length →
         t.planner.states[b]? = some 3)) ∧
   (∀ (s : State) (b : Nat), s.planner.granted = some b → s.fld .PLAN_CFG_ENABLE = 1 → s.planner.states[b]? = some 0 →
     (∀ w ∈ s.host.waits, w.desc ≠ engineTake) → let m := s.fld .PLAN_MARKERS_PUBLISH_MARKER
     (s.planner.taken = true ∨ reached (s.marker m) 1 = true ∧ (∀ w ∈ s.host.waits, w.marker = m → w.kind ≠ 1) →
       ∃ t, exec .snapshotPublish s = .next t ∧ t.planner.states[b]? = some 1 ∧ t.planner.taken = false) ∧
     (s.planner.taken = false → (∃ w ∈ s.host.waits, w.marker = m ∧ w.kind = 1) →
       ∃ t, exec .snapshotPublish s = .next t ∧ t.planner = s.planner ∧ changesOnly [.host] s t ∧
         t.host.waits = s.host.waits ++ [⟨engineTake, m, 1, 1, none⟩])) ∧
   (∀ (s : State) (b : Nat), s.planner.inState 1 = some b → b < s.planner.states.length → b < s.planner.epochs.length →
     let h := s.world b
     let r := h.build ((List.range h.primCount).map (s.prim b)) (s.vertices b h.vertexCount)
     (∀ cells, r = .ok cells → ∃ t, exec .snapshotBuildDone s = .next t ∧ t.planner.states[b]? = some 2 ∧
       t.planner.epochs[b]? = some (s.planner.top + 1) ∧ t.planner.top = s.planner.top + 1) ∧
     (∀ e, r = .error e → ∃ t, exec .snapshotBuildDone s = .next t ∧ t.planner.top = s.planner.top ∧
       recordMade e.1 2 s t)))

/-- Of R228, R229: before the selection instant the first ready half in PLAN_PROP_BUF order is taken, and its ready
bit cleared: the candidates of a good block are taken in their order; a block that is no proposal block is logged
PLAN_PROPOSAL_BAD. R227, R229 to R233: a lane's verdict counts: a collision is counted and recorded with its pose and
primitive, a candidate found free enters the queue in the order of its key and index. -/
def Obligations.ProposalsAreChecked : Prop :=
  (∀ (s : State) (y : PlanCycle) (id : Nat) (b : Buffer) (j : Nat) (h : Half), s.takingCycle = some y →
     s.propBuffers = [id] → s.buffer id = some b → b.toTake = some j → b.halves[j]? = some h →
     let block := s.devRead (b.halfAddr j) b.entry.size
     let n := valAt block 8 4
     (valAt block 0 4 = 0x504F5250 → valAt block 4 2 = 1 → valAt block 6 2 = 64 → n ≠ 0 → 64 + 1040 * n ≤ b.entry.size →
       ∃ t y' b' h', exec .proposalTake s = .next t ∧ t.buffer id = some b' ∧ b'.halves[j]? = some h' ∧ h'.ready = false ∧
         t.planner.cycle = some y' ∧ y'.taken =
           ((List.range n).map fun k => valAt (block.drop (64 + 1040 * k)) 0 4).reverse ++ y.taken) ∧
     (valAt block 0 4 ≠ 0x504F5250 →
       ∃ t b' h', exec .proposalTake s = .next t ∧ t.buffer id = some b' ∧ b'.halves[j]? = some h' ∧ h'.ready = false ∧
         recordMade 0x406 1 s t ∧ t.planner = s.planner)) ∧
  (∀ (s : State) (lane : Fin 64) (y : PlanCycle) (c : Candidate) (b : Nat), s.takingCycle = some y →
     s.planner.lanes.getD lane none = some c → s.planner.inState 3 = some b → s.fld .PLAN_STAT_COUNT 0 < 65535 →
     (∃ t y', exec (.candidateCheckDone lane) s = .next t ∧ t.planner.cycle = some y' ∧ y'.checked = y.checked + 1 ∧
       t.fld .PLAN_STAT_COUNT 0 = s.fld .PLAN_STAT_COUNT 0 + 1 ∧
       (s.planner.waiting = [] → t.planner.lanes.getD lane none = none)) ∧
     (∀ k i, s.check b c.base c.raw = .collides k i → s.fld .PLAN_STAT_COUNT 2 < 65535 →
       ∃ t, exec (.candidateCheckDone lane) s = .next t ∧ t.planner.found = ⟨c.index, k, some i⟩ :: s.planner.found ∧
         t.fld .PLAN_STAT_COUNT 2 = s.fld .PLAN_STAT_COUNT 2 + 1 ∧ t.planner.queue = s.planner.queue) ∧
     (∀ key, s.check b c.base c.raw = .free →
       costKey (valAt c.raw 4 4) (s.fld .PLAN_COST_W_W_SPEED) (s.fld .PLAN_COST_W_W_YAW) (candPoses c.raw) = some key →
       s.planner.queue.length < 65536 →
       ∃ t, exec (.candidateCheckDone lane) s = .next t ∧
         t.planner.queue = insertFrontier ⟨key, c.index, c.base, s.planner.freeSlot, lane⟩ s.planner.queue))

/-- Of R234 to R238: at its selection instant PLAN_SELECTION ends the cycle's checking, in every state: the cycle is
selected, no candidate waits and every lane is free. A cycle with no world gets a record of outcome no_path, the D4
request of the planning source and a severity-3 record; one with a cheapest survivor of its own epoch publishes it
when the final check of another lane finds it free, in the record of slot cycle mod 16, and withholds it when that
check finds a collision. -/
def Obligations.SelectionPublishes : Prop :=
  ∀ (s : State) (y : PlanCycle), s.planner.cycle = some y → y.selected = false → s.planning = true → s.selectAt y ≤ s.now →
    (∀ agrees, ∃ t, exec (.planSelection agrees) s = .next t ∧ t.planner.cycle = some { y with selected := true } ∧
      t.planner.waiting = [] ∧ t.planner.lanes = List.replicate 64 none) ∧
    (s.selectionBuffer y = none → ∀ agrees, ∃ t r, exec (.planSelection agrees) s = .next t ∧
      t.safety.lastPlan = some r ∧ r.outcome = 3 ∧ r.cycle = y.number ∧ t.planner.d4 = true ∧ t.planner.prev = none ∧
      recordMade 0x412 3 s t) ∧
    (∀ b f l, s.selectionBuffer y = some b → y.stale = false → 2 ≤ s.lanesUp → s.planner.waiting = [] →
      (∀ x ∈ s.planner.lanes, x = none) → s.planner.epochs.getD b 0 = y.epoch → s.planner.queue = f :: l →
      (s.otherLane f.lane ≠ none → s.check b f.base (s.stored f.slot) = .free →
        ∃ t r, exec (.planSelection true) s = .next t ∧ t.safety.lastPlan = some r ∧ r.outcome = 0 ∧ r.cycle = y.number ∧
          r.candidate = f.index ∧ r.key = f.key ∧ r.base = f.base ∧ r.flags = 0 ∧ r.poses = candPoses (s.stored f.slot) ∧
          t.planner.queue = l ∧ (∀ x, x < hubBase + s.fld .PLAN_OUT_BASE_OFFSET * 256 + 1088 * (y.number % 16) →
            t.devRead x 1 = s.devRead x 1)) ∧
      (s.check b f.base (s.stored f.slot) ≠ .free → ∀ agrees,
        ∃ t, exec (.planSelection agrees) s = .next t ∧ t.safety.lastPlan = s.safety.lastPlan ∧ t.planner.prev = none ∧
          t.planner.mismatch = true ∧ t.mem = s.mem ∧ recordMade 0x420 3 s t))

/-- Of R243, R257: a request of a regulated master, of which no earlier one waits, to an address it may reach joins
its regulator; while the tokens do not cover its cost it waits there and takes none, and once they do it leaves with
the tokens its cost takes. One to another address is not performed, is logged MEM_BAD_ADDRESS with its master and
address, and its master gets an error, with zeros for a read. A Weighhouse die whose purl link is down is cut off, and
asks for nothing (R272). R257, R258, R262: at a refill a bucket with nothing waiting gains its RATE up to its DEPTH,
its credit becomes the minimum that holds, and written values are in effect. R262: a write of MEM_PART_RATE_n whose
minimum is above its rate is refused with MEM_CFG_BAD and changes none of its fields; one that admits is written, and
until the next refill the value in effect stays. -/
def Obligations.RequestsAreRegulated : Prop :=
  (∀ (m : Fin 12) (k : Fin 32) (a n d : Nat) (w : Bool) (s : State), 0 < n → n ≤ 4096 →
     let key := regKey (if k.val = 0 then s.partOf m else 15) k
     let g := s.regulator key
     let cost := if k.val ≠ 0 ∧ w = true then alignUp (a + n) 256 - a / 256 * 256 else alignUp n 64
     let ok := if w then s.writeOk m k a n else s.accessOk m k a n
     (s.cutOff m = true → exec (.regulatedRequestIssue m k a n w d) s = .next s) ∧
     (s.cutOff m = false → ok = true → s.limits key = true → g.waiting = [] →
       (k.val = 0 → ∀ j, j < 15 → j ≠ key → ∀ x ∈ (s.regulator j).waiting, x.master ≠ m.val) →
       (g.tokens < cost → ∃ t r, exec (.regulatedRequestIssue m k a n w d) s = .next t ∧
         t.regulator key = { g with waiting := [r] } ∧ r.id = s.memSys.nextId ∧ r.master = m ∧ r.stall = k ∧ r.addr = a ∧
         r.size = n ∧ r.write = w ∧ t.memSys.queue = s.memSys.queue ∧ changesOnly [.memSys] s t) ∧
       (cost ≤ g.tokens → ∃ t r, exec (.regulatedRequestIssue m k a n w d) s = .next t ∧
         t.regulator key = { g with tokens := g.tokens - cost, credit := g.credit - cost } ∧ r.id = s.memSys.nextId ∧
         r.left = s.now ∧ (t.memSys.queue = s.memSys.queue ++ [r] ∨ t.memSys.issued = s.memSys.issued ++ [r]) ∧
         changesOnly [.memSys] s t)) ∧
     (s.cutOff m = false → ok = false → ∃ t r, exec (.regulatedRequestIssue m k a n w d) s = .next t ∧
       t.safety.errq.inFlight = s.safety.errq.inFlight ++ [r] ∧ r.code = 0x504 ∧ r.sev = 1 ∧ r.detail0 = m.val + k.val * 256 ∧
       r.detail1 = a ∧ Tbl.get none t.memSys.answers (m.val + 16 * k.val) =
         some ⟨s.memSys.nextId, true, if w then [] else List.replicate n 0⟩ ∧ changesOnly (.memSys :: recordParts) s t)) ∧
  (∀ s : State, s.memSys.inEffect = [] → (∀ k ∈ regulatorKeys, (s.regulator k).waiting = []) →
     ∃ t, exec .regulatorRefill s = .next t ∧ (s.memSys.safetyUnmet = false → changesOnly [.memSys] s t) ∧
       t.memSys.inEffect = [] ∧
       ∀ k ∈ regulatorKeys, t.regulator k =
         { s.regulator k with tokens := min (s.depth k) ((s.regulator k).tokens + s.rate k), credit := s.minRate k }) ∧
  (∀ (n : Fin 15) (v : Nat) (s : State),
     let rate := Fld.of .MEM_PART_RATE_RATE v
     let low := Fld.of .MEM_PART_RATE_MIN_RATE v
     let o := Reg.offset .MEM_PART_RATE n 0
     (rate < low → ∃ t, exec (.memRegulationWrite o v) s = .next t ∧ t.fld .HUB_CFG_CFG_ERROR_CODE = 0x503 ∧
       t.fld .MEM_PART_RATE_RATE n = s.fld .MEM_PART_RATE_RATE n ∧
       t.fld .MEM_PART_RATE_MIN_RATE n = s.fld .MEM_PART_RATE_MIN_RATE n ∧ changesOnly (.regs :: recordParts) s t) ∧
     (low ≤ rate → low ≤ s.fld .MEM_PART_RATE_MIN_RATE n → s.memSys.inEffect = [] →
       ∃ t, exec (.memRegulationWrite o v) s = .next t ∧ t.fld .MEM_PART_RATE_RATE n = rate ∧
         t.fld .MEM_PART_RATE_MIN_RATE n = low ∧ t.eff .MEM_PART_RATE_RATE n = s.fld .MEM_PART_RATE_RATE n ∧
         fieldsOnly [(.MEM_PART_RATE_RATE, n, 0), (.MEM_PART_RATE_MIN_RATE, n, 0)] s t ∧ changesOnly [.regs, .memSys] s t))

/-- Of R253, R259 to R261, R272, R407: a command slot that a window needs serves no request; one that none needs
serves a granule of the request chosen while its controller has power. A write that has been served completes; a
deadline it misses is counted. A Weighhouse die that is cut off gets no answer. -/
def Obligations.RequestsAreServed : Prop :=
  (∀ (pc : Fin 64) (s : State),
    exec (.commandSlotArbitration pc true) s = .next s ∧
    (∀ r, s.slotChoice pc = some r → r.todo = [pc.val] → s.domainOn (35 + pc.val / 32) = true →
      ∃ t, exec (.commandSlotArbitration pc false) s = .next t ∧ t.memSys.queue = s.memSys.queue.erase r ∧
        t.memSys.issued = s.memSys.issued ++ [{ r with todo := [] }] ∧
        Tbl.get 0 t.memSys.lastPart pc = r.part ∧ changesOnly [.memSys] s t)) ∧
  (∀ (req : Nat) (r : Request) (e : EccResult) (s : State), s.memSys.issued.find? (fun x => x.id == req) = some r →
    (s.cutOff r.master = true → ∃ t, exec (.regulatedRequestComplete req e) s = .next t ∧
      t.memSys = { s.memSys with issued := s.memSys.issued.erase r } ∧ changesOnly [.memSys] s t) ∧
    (s.cutOff r.master = false → r.write = true → ∃ t, exec (.regulatedRequestComplete req e) s = .next t ∧
      t.memSys.issued = s.memSys.issued.erase r ∧ t.mem = s.mem ∧
      Tbl.get none t.memSys.answers (r.master + 16 * r.stall) = some ⟨r.id, false, []⟩ ∧
      (∀ d, r.deadline = some d → d < s.now → s.fld .MEM_PART_STAT_DL_MISSES r.part < 65535 →
        t.fld .MEM_PART_STAT_DL_MISSES r.part = s.fld .MEM_PART_STAT_DL_MISSES r.part + 1) ∧
      (r.deadline = none → t.fld .MEM_PART_STAT_DL_MISSES r.part = s.fld .MEM_PART_STAT_DL_MISSES r.part)) ∧
    (s.cutOff r.master = false → r.write = false → let a := s.devAddr r.stall r.addr
      (s.poisonedIn a r.size = false → ∃ t, exec (.regulatedRequestComplete req []) s = .next t ∧
        Tbl.get none t.memSys.answers (r.master + 16 * r.stall) = some ⟨r.id, false, s.devRead a r.size⟩) ∧
      (s.poisonedIn a r.size = true → a < hbmSize → ∃ t x, exec (.regulatedRequestComplete req e) s = .next t ∧
        Tbl.get none t.memSys.answers (r.master + 16 * r.stall) = some x ∧ x.error = true)))

/-- Of R245 to R250, R254, R255: memory maintenance, where the regulator of master 10 covers it. A good scrub burst
goes on to the next 32 bytes; one with one bad symbol counts as corrected on the pseudo-channel that serves it, one
with two as uncorrectable; a granule of a retired pseudo-channel is copied in order; at a refresh position the bank
whose turn it is is refreshed; a stack above 85 °C decides on doubled refresh with a record; at a frame boundary the
decision takes effect. R271, R272: a resend on a purl link in service is counted at its end, and a failure takes the
link out of service with a record of severity 3 in Drive and 2 otherwise; on a link that is out of service both do
nothing. -/
def Obligations.MemoryAndLinksAreMaintained : Prop :=
  ((∀ s : State, let k := s.serving (s.memSys.scrub / 256)
     (s.spend 32 = none → ∀ e, exec (.scrubBurst e) s = .next s) ∧
     (∀ u, s.spend 32 = some u →
       (s.poisonedIn s.memSys.scrub 32 = false → ∃ t, exec (.scrubBurst []) s = .next t ∧
         t.memSys.scrub = (s.memSys.scrub + 32) % hbmSize ∧ t.mem = s.mem ∧ changesOnly [.memSys] s t) ∧
       (∀ o x, s.fld .MEM_PC_ECC_CE k < 65535 → ∃ t, exec (.scrubBurst [⟨o, [x]⟩]) s = .next t ∧
         t.fld .MEM_PC_ECC_CE k = s.fld .MEM_PC_ECC_CE k + 1) ∧
       (∀ o x y, x ≠ y → s.fld .MEM_PC_ECC_UE k < 65535 → ∃ t, exec (.scrubBurst [⟨o, [x, y]⟩]) s = .next t ∧
         t.fld .MEM_PC_ECC_UE k = s.fld .MEM_PC_ECC_UE k + 1))) ∧
   (∀ (pc : Fin 64) (s u : State), (s.channel pc).spare.isSome = true → (s.channel pc).copied < 3145728 →
     s.spend 512 = some u → let g := granuleAt pc (s.channel pc).copied
     (s.poisonedIn (g * 256) 256 = false → ∃ t, exec (.retireGranuleCopied pc []) s = .next t ∧
       t.channel pc = { s.channel pc with copied := (s.channel pc).copied + 1 } ∧ t.memSys.poisoned = s.memSys.poisoned ∧
       changesOnly [.memSys] s t) ∧
     (∀ o x y, x ≠ y → ∃ t, exec (.retireGranuleCopied pc [⟨o, [x, y]⟩]) s = .next t ∧ g ∈ t.memSys.poisoned)) ∧
   (∀ (pc : Fin 64) (bank : Nat) (s : State), let k := pc.val * 65536 + bank % 65536
     let turn := (Tbl.get (0, 0) s.memSys.rotation pc.val).1
     (s.refreshDue pc = true → bank = turn → ∃ t, exec (.refreshSlot pc bank) s = .next t ∧
       Tbl.get 0 t.memSys.refreshes k = Tbl.get 0 s.memSys.refreshes k + 1 ∧
       (Tbl.get (0, 0) t.memSys.rotation pc.val).1 = (turn + 1) % max 1 Config.refreshBanks ∧ t.refreshDue pc = false ∧
       changesOnly [.memSys] s t) ∧
     (s.refreshDue pc = false ∨ bank ≠ turn → exec (.refreshSlot pc bank) s = .next s)) ∧
   (∀ (t0 t1 : Int) (x y : Stack) (s : State), s.memSys.hbmStacks = [x, y] → 85 < t0 → t1 ≤ 85 → x.doubled = false →
     x.pending = none → y.doubled = false →
     ∃ t u, exec (.stackTempRead t0 t1) s = .next t ∧ t.memSys.hbmStacks[0]? = some u ∧ u.temp = t0 ∧ u.doubled = false ∧
       u.pending = some true ∧ recordMade 0x520 1 s t ∧ changesOnly (.memSys :: recordParts) s t) ∧
   (∀ (k : Fin 2) (x : Stack) (s : State), s.memSys.hbmStacks[k.val]? = some x → s.fabric.beat % 8192 = 0 →
     (x.pending = some true ∨ x.pending = some false) →
     ∃ t u, exec (.refreshRateChange k) s = .next t ∧ t.memSys.hbmStacks[k.val]? = some u ∧ u.pending = none ∧
       (u.doubled = true ↔ x.pending = some true))) ∧
  (∀ (l : Fin 14) (s : State),
     (s.purlUp l = true →
       (l.val < 6 → s.fld .CD_PURL_RETRY_COUNT l 1 < 65535 → ∃ t, exec (.purlCrcResend l) s = .next t ∧
         t.fld .CD_PURL_RETRY_COUNT l 1 = s.fld .CD_PURL_RETRY_COUNT l 1 + 1 ∧
         fieldsOnly [(.CD_PURL_RETRY_COUNT, l, 1)] s t ∧ changesOnly [.regs] s t) ∧
       (∀ d : Fin 6, l.val = d + 6 → s.fld .CD_PURL_RETRY_COUNT d 0 < 65535 → ∃ t, exec (.purlCrcResend l) s = .next t ∧
         t.fld .CD_PURL_RETRY_COUNT d 0 = s.fld .CD_PURL_RETRY_COUNT d 0 + 1 ∧
         fieldsOnly [(.CD_PURL_RETRY_COUNT, d, 0)] s t ∧ changesOnly [.regs] s t) ∧
       (∀ k : Fin 2, l.val = k + 12 → s.fld .HUB_CFG_PURL_WH_RETRY_COUNT k < 65535 →
         ∃ t, exec (.purlCrcResend l) s = .next t ∧
           t.fld .HUB_CFG_PURL_WH_RETRY_COUNT k = s.fld .HUB_CFG_PURL_WH_RETRY_COUNT k + 1 ∧
           fieldsOnly [(.HUB_CFG_PURL_WH_RETRY_COUNT, k, 0)] s t ∧ changesOnly [.regs] s t) ∧
       (∃ t, exec (.purlLinkDown l) s = .next t ∧ t.purlUp l = false ∧
         (∀ k, k ≠ l.val → t.purlUp k = s.purlUp k) ∧ recordMade 0x530 (if s.inDrive then 3 else 2) s t ∧
         changesOnly (.memSys :: recordParts) s t)) ∧
     (s.purlUp l = false → exec (.purlCrcResend l) s = .next s ∧ exec (.purlLinkDown l) s = .next s))

/-- Of R76, R109, R115, R118, R168, R170, R200, R202, R239, R261, R271, R346, R391 and the register map: a command
that clears counters sets them to 0 and changes nothing else. -/
def Obligations.CountersAreCleared : Prop :=
  let clears (c : Instr) (l : List (Fld × Nat × Nat)) : Prop :=
    ∀ s : State, ∃ t, exec c s = .next t ∧ (∀ x ∈ l, t.fld x.1 x.2.1 x.2.2 = 0) ∧ fieldsOnly l s t ∧ changesOnly [.regs] s t
  (∀ d : Fin 6, clears (.clrRerun d) [(.CD_RERUN_COUNT_COUNT, d, 0)] ∧ clears (.clrNan d) [(.CD_NAN_COUNT_COUNT, d, 0)] ∧
    clears (.clrCentreOnly d) [(.CD_ENG_CENTRE_ONLY_COUNT, d, 0)] ∧
    clears (.clrStemClip d) [(.CD_ENG_STEM_CLIP_COUNT, d, 0)] ∧ clears (.clrStarve d) [(.CD_KV_STARVE_COUNT_COUNT, d, 0)] ∧
    clears (.clrDropped d) [(.CD_KV_DROPPED_PAGES_COUNT, d, 0)] ∧
    (∀ k : Fin 2, clears (.clrPurlRetry d k) [(.CD_PURL_RETRY_COUNT, d, k)])) ∧
  (∀ n : Fin 128, clears (.clrLate n) [(.SENS_STREAM_LATE_DROPS_COUNT, n, 0)] ∧
    clears (.clrFaults n) [(.SENS_STREAM_FAULTS_MISSED, n, 0), (.SENS_STREAM_FAULTS_MISALIGNED, n, 0),
      (.SENS_STREAM_FAULTS_PLAUS_FAIL, n, 0)]) ∧
  (∀ n : Fin 8, clears (.clrPlanStat n) [(.PLAN_STAT_COUNT, n, 0)]) ∧
  (∀ n : Fin 16, clears (.clrPartStat n) [(.MEM_PART_STAT_DL_MISSES, n, 0), (.MEM_PART_STAT_MAX_LAT, n, 0)]) ∧
  (∀ k : Fin 2, clears (.clrPurlWhRetry k) [(.HUB_CFG_PURL_WH_RETRY_COUNT, k, 0)]) ∧
  clears .clrCnt [(.HUB_CFG_GAUGE_CNT_MISMATCHES, 0, 0)] ∧
  (∀ n : Fin 4, clears (.clrSwatchCnt n) [(.HUB_CFG_SWATCH_CNT_COUNT, n, 0)]) ∧
  (∀ (m : Fin 6) (k : Fin 5), clears (.clrNetCnt m k) [(.NET_MAC_CNT_COUNT, m, k)])

/-- Of R275, R278: training. PAIR_ENABLE sets ENABLE unless SAFE_ALONE is strapped; an attempt is counted and starts
in TRAINING; lock within 2 ms leads on, later lock and 30 ms without UP fail the attempt, the third failure in a row
being logged; TRAIN_C brings the link UP with another role and fails with the same one; a SKIP changes nothing above
the lanes. -/
def Obligations.PairLinkTrains : Prop :=
  ∀ s : State, let p := s.pair
    (s.fld .SEC_BOOT_STATUS_SAFE_ALONE ≠ 1 → ∃ t, exec .pairEnable s = .next t ∧ t.fld .MEM_PAIR_CFG_ENABLE = 1 ∧
      fieldsOnly [(.MEM_PAIR_CFG_ENABLE, 0, 0)] s t ∧ changesOnly [.regs] s t) ∧
    (s.fld .SEC_BOOT_STATUS_SAFE_ALONE = 1 → ∃ t, exec .pairEnable s = .next t ∧ t.fld .HUB_CFG_CFG_ERROR_CODE = 0x503 ∧
      t.fld .MEM_PAIR_CFG_ENABLE = s.fld .MEM_PAIR_CFG_ENABLE ∧ changesOnly (.regs :: recordParts) s t) ∧
    (s.fld .MEM_PAIR_CFG_ENABLE = 1 → p.state = 0 → (∀ a, p.lastAttempt = some a → a + 100000000 ≤ s.now) →
      s.swatch.pairHeld = false → s.fld .MEM_PAIR_STATUS_RETRAINS < 255 →
      ∃ t, exec .pairTrainAttempt s = .next t ∧
        t.pair = { p with state := 1, phase := 0, lastAttempt := some s.now, wire := p.wire ++ [.control 0x1E] } ∧
        t.fld .MEM_PAIR_STATUS_RETRAINS = s.fld .MEM_PAIR_STATUS_RETRAINS + 1 ∧
        fieldsOnly [(.MEM_PAIR_STATUS_RETRAINS, 0, 0)] s t ∧ changesOnly [.regs, .pair] s t) ∧
    (p.state = 1 →
      (30000000 ≤ s.trainAge →
        (p.failures < 2 → exec .pairTrainTimeout s =
          .next { s with pair := { p with state := 0, phase := 0, failures := p.failures + 1 } }) ∧
        (p.failures = 2 → p.failLogged = false → ∃ t, exec .pairTrainTimeout s = .next t ∧ t.pair.state = 0 ∧
          recordMade 0x560 2 s t ∧ changesOnly (.pair :: recordParts) s t)) ∧
      (p.phase = 0 → s.trainAge ≤ 2000000 → exec .trainA s = .next { s with pair := { p with phase := 1 } }) ∧
      (p.phase = 0 → 2000000 < s.trainAge → ∃ t, exec .trainA s = .next t ∧ t.pair.state = 0 ∧
        t.pair.failures = p.failures + 1) ∧
      (p.phase = 1 → s.trainAge ≤ 30000000 →
        exec .trainB s = .next { s with pair := { p with phase := 2, wire := p.wire ++ [.control 0x2D] } }) ∧
      (p.phase = 1 → 30000000 < s.trainAge → ∃ t, exec .trainB s = .next t ∧ t.pair.state = 0 ∧
        t.pair.failures = p.failures + 1) ∧
      (p.phase = 2 → ∀ role : Bool,
        (s.trainAge ≤ 30000000 → (if role then 1 else 0) ≠ s.pairRole → ∃ t, exec (.trainC role) s = .next t ∧ t.pair.state = 2 ∧
          t.pair.failures = 0 ∧ t.pair.replay = [] ∧ t.pair.nextSeq = 1 ∧ t.pair.lastGood = s.now ∧
          t.pair.credits = Config.pairBuffer ∧ t.pair.scramblers = (List.range 8).map (0x12345678 + ·) ∧
          t.pair.peerRole = role ∧ recordMade 0x563 0 s t ∧ changesOnly (.pair :: recordParts) s t) ∧
        (s.trainAge ≤ 30000000 → (if role then 1 else 0) = s.pairRole → p.failures < 2 →
          ∃ t, exec (.trainC role) s = .next t ∧ t.pair.state = 0 ∧
            t.pair.failures = p.failures + 1 ∧ recordMade 0x561 2 s t ∧ changesOnly (.pair :: recordParts) s t) ∧
        (30000000 < s.trainAge → ∃ t, exec (.trainC role) s = .next t ∧ t.pair.state = 0 ∧
          t.pair.failures = p.failures + 1))) ∧
    (1 ≤ p.state → exec .skip s = .next { s with pair := { p with skips := p.skips + 1 } })

/-- Of R276, R277, R279, R281: flits that are received. A CRC-32 that is not that of the flit's bytes sets NAK and the
flit is dropped; a good flit renews the link's time, adds its credits and frees what it acknowledges, and one with NAK
has what is left sent again, in order. STATUS gives the view of the peer; a TIME flit that completes the sixteenth
exchange in a row within 2 beats aligns the link; DATA goes into the half being received of the inbound buffer (unless
that was given up, R283), which is ready once the flit with LAST is in. R275 to R277, R279, R281, R342: flits that are
sent. TIME at a frame boundary and STATUS go without a sequence number, with the NAK, the ack and the freed count of
the moment; after the 2,048th block of a lane comes a SKIP. A ready outbound half that no verdict holds up goes out as
DATA flits of 104 bytes, its ready bit clearing with the last; without a credit or a place in the replay buffer it
waits. -/
def Obligations.PairFlitsAreTakenAndSent : Prop :=
  (∀ (h : FlitHdr) (s : State), s.pairUp = true →
     let kept := s.pair.replay.filter fun e => !(h.ackValid && seqLe e.seq h.ack)
     (h.crc ≠ crc32 (hdrFlit h 0 []).covered → exec (.idle h) s = .next { s with pair := { s.pair with nak := true } }) ∧
     (goodFlit h 0 [] = true → s.pair.backlog = [] →
       (h.nak = false → ∃ t, exec (.idle h) s = .next t ∧ t.pair.lastGood = s.now ∧
         t.pair.credits = s.pair.credits + h.credits ∧ t.pair.replay = kept ∧ t.pair.sent = s.pair.sent ∧
         t.pair.state = s.pair.state ∧ changesOnly [.pair] s t) ∧
       (h.nak = true → ∃ t l, exec (.idle h) s = .next t ∧ t.pair.sent = s.pair.sent ++ l ∧
         l.map (·.seq) = kept.map (·.seq) ∧ l.map (·.body) = kept.map (·.body) ∧
         t.pair.replay.map (·.resends) = kept.map (·.resends + 1) ∧ changesOnly [.pair] s t)) ∧
     (∀ role m st a, goodFlit h 2 (statusBody (if role then 1 else 0) m st s.fabric.step a) = true →
       ∃ t, exec (.statusFlit h role m st s.fabric.step a) s = .next t ∧ t.pair.peerRole = role ∧
         t.pair.peerMode = m ∧ t.pair.peerStep = st ∧ t.pair.peerAuthority = a ∧ t.pair.state = s.pair.state ∧
         changesOnly [.pair] s t) ∧
     (∀ role m st b a, goodFlit h 2 (statusBody (if role then 1 else 0) m st b a) = true → b ≠ s.fabric.step → s.pair.state = 3 →
       ∃ t, exec (.statusFlit h role m st b a) s = .next t ∧ t.pair.state = 2 ∧ t.pair.peerBeatStep = b) ∧
     (∀ sent echo recv, goodFlit h 3 (timeBody sent echo recv s.fabric.step) = true →
       s.pair.lastTimeSent = some echo → (s.twiceOffset sent echo recv).natAbs ≤ 4 →
       ∃ t, exec (.time h sent echo recv s.fabric.step) s = .next t ∧ t.pair.lastTimeRecv = sent ∧
         t.pair.lastTimeRecvAt = s.fabric.beat ∧ t.pair.alignedRun = s.pair.alignedRun + 1 ∧
         (15 ≤ s.pair.alignedRun → t.pair.state = 3) ∧ changesOnly [.pair] s t) ∧
     (∀ (x : Fin 64) (n : Fin 1024) (k off : Nat) (l : List Byte) (b : Buffer) (y : Half),
       h.seq = (s.pair.inOrder + 1) % 65536 → s.buffer n = some b → b.entry.dir = 0 →
       (s.xfer x).receiving = some (n.val, k) → ((s.xfer x).dropping = true → off = 0) → b.halves[k]? = some y → l.length ≤ 104 → off + l.length ≤ b.entry.size →
       (goodFlit h 1 (dataBody x false off l) = true →
         ∃ t, exec (.data h x n false off l) s = .next t ∧ t.devRead (b.halfAddr k + off) l.length = l ∧
           memOnly (b.halfAddr k + off) l.length s t ∧ t.pair.inOrder = h.seq ∧ t.fabric = s.fabric) ∧
       (goodFlit h 1 (dataBody x true off l) = true →
         ∃ t b' y', exec (.data h x n true off l) s = .next t ∧ t.buffer n = some b' ∧ b'.gen = nextGen b.gen ∧
           b'.halves[k]? = some y' ∧ y'.ready = true ∧ y'.gen = nextGen b.gen ∧ (t.xfer x).receiving = none))) ∧
  (∀ s : State, s.pairUp = true →
     (s.fabric.beat % 8192 = 0 → ∃ t f, exec .pairTimeSend s = .next t ∧ t.pair.sent = s.pair.sent ++ [f] ∧
       f = ⟨3, s.pair.nak, s.pair.ackValid, 0, s.pair.inOrder, s.pair.freed % 65536,
         timeBody s.fabric.beat s.pair.lastTimeRecv s.pair.lastTimeRecvAt s.fabric.step⟩ ∧
       t.pair.nak = false ∧ t.pair.freed = 0 ∧
       (s.pair.blocks = 2047 → t.pair.blocks = 0 ∧ t.pair.wire.getLast? = some (.control 0x78)) ∧
       t.pair.lastTimeSent = some s.fabric.beat ∧ t.pair.nextSeq = s.pair.nextSeq ∧ changesOnly [.pair] s t) ∧
     (∃ t f l, exec .pairStatusSend s = .next t ∧ t.pair.sent = s.pair.sent ++ f :: l ∧ f.kind = 2 ∧ f.seq = 0 ∧
       f.body = statusBody s.pairRole s.mode.code s.degrade.step s.fabric.step
         (if s.safety.inCommand then s.safety.authority else 0) ∧
       (s.pair.backlog = [] → l.map (·.kind) = [0]) ∧ t.pair.nextSeq = s.pair.nextSeq ∧ changesOnly [.pair] s t) ∧
     (∀ (x : Fin 64) (b : Buffer) (k : Nat) (y : Half), s.fld .MEM_PAIR_XFER_ENABLE x = 1 →
       let id := s.fld .MEM_PAIR_XFER_LOCAL_BUF x
       s.buffer id = some b → (s.xfer x).sending = none → b.newest = some k → b.halves[k]? = some y → b.entry.dir = 1 →
       y.invalid = false →
       (y.pendingVerdict = true → exec (.pairXferSend x) s = .next s) ∧
       (y.pendingVerdict = false → s.pair.backlog = [] → 0 < b.entry.size →
         let n := (b.entry.size + 103) / 104
         (s.pair.replay.length + n ≤ 256 → n ≤ s.pair.credits →
           ∃ t b' y', exec (.pairXferSend x) s = .next t ∧
             t.pair.sent.length = s.pair.sent.length + n ∧ t.pair.credits = s.pair.credits - n ∧ t.buffer id = some b' ∧
             b'.halves[k]? = some y' ∧ y'.ready = false ∧ (t.xfer x).sending = none) ∧
         (256 ≤ s.pair.replay.length ∨ s.pair.credits = 0 →
           ∃ t, exec (.pairXferSend x) s = .next t ∧ t.pair.sent = s.pair.sent ∧ (t.xfer x).sending = some (k, 0) ∧
             changesOnly [.pair] s t))))

/-- Of R282 to R284: barriers. Role A, holding both arrivals of a generation in time, sends RELEASE for the first
frame boundary 4,096 beats or more ahead, from which the iteration starts; role B takes a release 2,048 beats or more
ahead. An ABORT before the release beat, a barrier without the peer's arrival in time and the loss of the link fail
the barrier: nothing has started, and the EXEC that waited completes with PAIR_BARRIER_FAIL; an ARRIVE of another
generation stays held. -/
def Obligations.PairBarriersHold : Prop :=
  ∀ (h : FlitHdr) (id : Fin 64) (gen : Nat) (s : State), s.pairUp = true → h.nak = false → s.pair.backlog = [] →
    (goodFlit h 4 (arriveBody id gen) = true → h.seq = (s.pair.inOrder + 1) % 65536 → s.barrier id = none →
      ∃ t, exec (.arrive h id gen) s = .next t ∧
        t.barrier id = some ⟨none, some gen, s.now, 0, none, 0, 0⟩ ∧ changesOnly [.pair] s t) ∧
    (∀ (b : Barrier) (p : Program) (r : Running), s.barrier id = some b → b.ownGen = some gen → b.release = none →
      s.program b.fn b.slot = some p → p.running = some r →
      let until_ := b.armedAt + s.fld .MEM_PAIR_CFG_BARRIER_TIMEOUT * 1000
      (h.seq = (s.pair.inOrder + 1) % 65536 →
        (goodFlit h 4 (arriveBody id gen) = true → s.pairRole = 0 → s.now ≤ until_ → s.pair.room = true →
          ∃ t r' f, exec (.arrive h id gen) s = .next t ∧ t.runningOf b.fn b.slot = some r' ∧
            r'.next = some (alignUp (s.fabric.beat + 4096) 8192) ∧ t.pair.sent = s.pair.sent ++ [f] ∧ f.kind = 5 ∧
            f.body = releaseBody id gen (alignUp (s.fabric.beat + 4096) 8192)) ∧
        (∀ rel, goodFlit h 5 (releaseBody id gen rel) = true → s.pairRole = 1 → s.aligned = true → s.fabric.beat + 2048 ≤ rel →
          ∃ t r', exec (.release h id gen rel) s = .next t ∧ t.runningOf b.fn b.slot = some r' ∧ r'.next = some rel ∧
            t.barrier id = some { b with release := some rel }) ∧
        (∀ reason d x, goodFlit h 6 (abortBody 1 id gen reason) = true → (64 + id.val, gen) ∉ s.pair.aborted →
          r.desc = some d → s.ticketDesc d = some x → x.done = none →
          ∃ t, exec (.abort h true id gen reason) s = .next t ∧ t.runningOf b.fn b.slot = none ∧ t.barrier id = b.over ∧
            recordMade 0x565 0 s t ∧ endedWith d 0x564 1 0 t)) ∧
      (b.peerGen ≠ some gen ∨ until_ < b.peerAt → until_ ≤ s.now → s.pair.room = true →
        ∃ t f, exec (.barrierTimeout id) s = .next t ∧ t.runningOf b.fn b.slot = none ∧ t.barrier id = b.over ∧
          t.pair.sent = s.pair.sent ++ [f] ∧ f.kind = 6 ∧ f.body = abortBody 1 id gen 1)) ∧
    ((∃ e ∈ s.pair.replay, 8 ≤ e.resends) ∨ s.pair.lastGood + s.fld .MEM_PAIR_CFG_LOST_TIMEOUT * 1000 ≤ s.now →
      ∃ t, exec .pairLostTimeout s = .next t ∧ t.pair.state = 0 ∧ t.pair.replay = [] ∧ t.pair.backlog = [] ∧ t.pair.xfers = [] ∧
        (s.pairRole = 1 → t.pair.advisory = true ∧ t.safety.inCommand = false) ∧
        (s.pairRole ≠ 1 → t.pair.advisory = false ∧ t.safety.inCommand = true))

/-- Of R286, R289, R290, R454, R506: the PCI Express link comes up, at 32 GT/s or less on 8, 4, 2 or 1 lanes, once
PERST_N and the endpoint are out of reset, and configuration requests then take effect; when it goes down, every ring
of the PF stops, the loss is counted and logged; an FLR stops the rings of its function alone. A configuration request
sets the controls that it writes and no other, and nothing before Evfin runs or while the link is down. -/
def Obligations.HostLinkAndResets : Prop :=
  ∀ s : State,
    (∀ speed width, s.host.linkUp = false → s.boot.released.getD 2 false = true → s.domainOn 34 = true →
      (speed ∈ [1, 2, 3, 4, 5] → width ∈ [1, 2, 4, 8] →
        ∃ t, exec (.pcieLinkUp speed width) s = .next t ∧
          t.host = { s.host with linkUp := true, speed := speed, width := width } ∧
          (s.wake.untilLink = true → t.wake.wakeN = none) ∧ changesOnly [.host, .wake] s t) ∧
      (speed ∉ [1, 2, 3, 4, 5] ∨ width ∉ [1, 2, 4, 8] → exec (.pcieLinkUp speed width) s = .next s)) ∧
    (s.host.linkUp = true → s.host.downCount < 65535 → ∃ t, exec .pcieLinkDown s = .next t ∧ t.host.linkUp = false ∧
      t.host.downCount = s.host.downCount + 1 ∧
      (∀ k : Fin 256, (t.ring 0 k).phase = .stopped) ∧
      (∀ (f : Fin 32) (k : Fin 256), f ≠ 0 → t.ring f k = s.ring f k) ∧
      recordMade 0x640 (if s.inDrive then 2 else 1) s t ∧ changesOnly (.host :: recordParts) s t) ∧
    (∀ f : Fin 32, ∃ t, exec (if f = 0 then .pfFlr else .vfFlr f) s = .next t ∧
      (∀ k : Fin 256, (t.ring f k).phase = .stopped ∧ (t.ring f k).descs.all (·.orphan) = true) ∧
      (∀ (g : Fin 32) (k : Fin 256), g ≠ f → t.ring g k = s.ring g k) ∧ t.host.markers = s.host.markers ∧
      changesOnly [.host] s t) ∧
    (∀ (fn : Fin 32) (bm : Option Bool) (w : ConfigWrite),
      (s.boot.evfin = none ∨ s.host.linkUp = false → exec (.pcieConfigRequest fn bm w) s = .next s) ∧
      (s.boot.evfin.isSome → s.host.linkUp = true → ∃ t, exec (.pcieConfigRequest fn bm w) s = .next t ∧
        t.host = { s.host with
          busMaster := t.host.busMaster, numVfs := t.host.numVfs, controls := t.host.controls, msix := t.host.msix } ∧
        (bm = some true → t.host.busMaster.contains fn.val = true) ∧
        (bm = some false → t.host.busMaster = s.host.busMaster.erase fn.val) ∧
        (bm = none → t.host.busMaster = s.host.busMaster) ∧
        (∀ k : Fin 32, w.numVfs = some k → fn = 0 → t.host.numVfs = k.val) ∧
        ((w.numVfs = none ∨ fn ≠ 0) → t.host.numVfs = s.host.numVfs) ∧
        t.control fn = (s.control fn).set w ∧ (∀ g : Fin 32, g ≠ fn → t.control g = s.control g) ∧
        (∀ v, v ≤ lastVector fn → bit (s.fld .MSIX_PBA_WORD fn (v / 32)) (v % 32) = true → t.vectorMasked fn v = false →
          t.host.msix.contains (fn.val, v) = true) ∧
        fieldsOnly ((List.range 8).map fun k => (.MSIX_PBA_WORD, fn.val, k)) s t ∧ changesOnly [.regs, .host] s t))

/-- Of R292 to R297, R310, R326: a ring. Enabling checks RING_CFG and starts ACTIVE with its heads at 0; disabling
completes what has not started with RING_DRAINED; doorbells of a ring that is ACTIVE or DRAINING move its tail and its
consumed count, and a bad one stops it with DOORBELL_BAD; in its turn it fetches the next 64 bytes, or stops with
FETCH_ERROR; a coalesced completion is signalled when its time is over. -/
def Obligations.RingsAndDoorbells : Prop :=
  ∀ (fn : Fin 32) (k : Fin 256) (s : State),
    let r := s.ring fn k
    let e := s.entries fn k
    let good : Prop := s.fld .RING_SQ_BASE_BASE fn k ≠ 0 ∧ s.fld .RING_CQ_BASE_BASE fn k ≠ 0 ∧
      6 ≤ s.fld .RING_CFG_LOG2_ENTRIES fn k ∧ s.fld .RING_CFG_LOG2_ENTRIES fn k ≤ 16 ∧
      s.fld .RING_CFG_VECTOR fn k ≠ 0 ∧ s.fld .RING_CFG_VECTOR fn k ≤ lastVector fn
    (r.phase = .disabled →
      (good → ∃ t, exec (.ringEnable fn k) s = .next t ∧ t.fld .RING_CFG_ENABLE fn k = 1 ∧
        (t.ring fn k).phase = .active ∧ (t.ring fn k).head = 0 ∧ (t.ring fn k).tail = 0 ∧ (t.ring fn k).completed = 0 ∧
        (t.ring fn k).consumed = 0 ∧ fieldsOnly [(.RING_CFG_ENABLE, fn, k)] s t ∧ changesOnly [.regs, .host] s t) ∧
      (¬ good → ∃ t, exec (.ringEnable fn k) s = .next t ∧ t.fld .HUB_CFG_CFG_ERROR_CODE = 0x602 ∧
        t.ring fn k = { r with lastError := 0x602 } ∧ changesOnly ([.regs, .host] ++ recordParts) s t)) ∧
    (r.phase = .active →
      (∀ x, r.descs = [x] → x.started = false → x.orphan = false → ∃ t, exec (.ringDisable fn k) s = .next t ∧
        t.fld .RING_CFG_ENABLE fn k = 0 ∧ (t.ring fn k).phase = .draining ∧
        (t.ring fn k).descs = [{ x with started := true, done := some (0x606, 0, 0) }] ∧ changesOnly [.regs, .host] s t) ∧
      (r.descs = [] → ∃ t, exec (.ringDisable fn k) s = .next t ∧ (t.ring fn k).phase = .disabled)) ∧
    (r.phase = .active ∨ r.phase = .draining →
      (∀ tail, tail < e → (r.tail + e - r.head) % e ≤ (tail + e - r.head) % e →
        ∃ t, exec (.dbSqTail fn k tail) s = .next t ∧ t.ring fn k = { r with tail := tail } ∧ changesOnly [.host] s t) ∧
      (∀ tail, e ≤ tail → ∃ t, exec (.dbSqTail fn k tail) s = .next t ∧ (t.ring fn k).phase = .stopped ∧
        (t.ring fn k).lastError = 0x603 ∧ recordMade 0x603 2 s t ∧ changesOnly (.host :: recordParts) s t) ∧
      (∀ head, let adv := (head + e - r.consumed % e) % e
        head < e → r.consumed + adv ≤ r.completed → ∃ t, exec (.dbCqHead fn k head) s = .next t ∧
          t.ring fn k = { r with consumed := r.consumed + adv } ∧ changesOnly [.host] s t) ∧
      (∀ head, e ≤ head → ∃ t, exec (.dbCqHead fn k head) s = .next t ∧ (t.ring fn k).phase = .stopped ∧
        recordMade 0x603 2 s t)) ∧
    (r.phase = .active →
      (s.turn = some (ringKey fn k) →
        (∃ t x, exec (.descFetch fn k .ok) s = .next t ∧ (t.ring fn k).descs = r.descs ++ [x] ∧ x.slot = r.head ∧
          x.bytes = s.hostRead (s.fld .RING_SQ_BASE_BASE fn k * 4096 + 64 * r.head) 64 ∧
          (t.ring fn k).head = (r.head + 1) % e ∧
          (s.fld .RING_HEAD_WB_EN fn k = 1 →
            t.hostRead (s.fld .RING_HEAD_WB_ADDR fn k * 4) 4 = leBytes 4 ((r.head + 1) % e)) ∧
          changesOnly [.host, .hostMem] s t) ∧
        (∃ t, exec (.descFetch fn k .error) s = .next t ∧ (t.ring fn k).phase = .stopped ∧
          (t.ring fn k).lastError = 0x604 ∧ recordMade 0x604 2 s t ∧ t.hostMem = s.hostMem))) ∧
    (r.phase = .stopped → ∃ t, exec (.ringDisable fn k) s = .next t ∧ (t.ring fn k).phase = .disabled) ∧
    (∀ f, let v := s.fld .RING_CFG_VECTOR fn k
      r.firstUnsignalled = some f → s.fld .RING_IRQ_COALESCE_TIME fn k ≠ 0 →
      f + s.fld .RING_IRQ_COALESCE_TIME fn k * 1000 ≤ s.now → s.vectorMasked fn v = false → s.host.linkUp = true →
      ∃ t, exec (.msixCoalesceTimeout fn v) s = .next t ∧ t.host.msix = s.host.msix ++ [(fn.val, v)] ∧
        (t.ring fn k).unsignalled = 0 ∧ (t.ring fn k).firstUnsignalled = none ∧ changesOnly [.host] s t)

/-- Of R299, R300, R315, R316: NOP and KNOT complete at once. One that names a marker of another function, or whose
reserved bytes or fields are bad, runs nothing and completes with the code of its check; a KNOT with ABORT_ON_ERROR
after the bad completion of an earlier descriptor, with KNOT_ABORTED. R243, R247, R310: COPY of host memory, device
memory or a fill into host or device memory. It leaves in its place the bytes of its source, and no other byte of
device memory changes; one to or from an address its function may not reach moves nothing, and so does one whose
source is poisoned; a host read that fails ends it. It takes the tokens of its function's regulation, and does not
start while they are wanting. R308, R309, R342: COPY into an inbound buffer fills a free half, which is then ready;
COPY from an outbound one takes its newest ready half, whose ready bit it clears and which it holds; it waits for a
gauge verdict that is pending, and ends with COPY_NOT_READY when no half is ready. Both start once their function's
regulation has the tokens. A buffer that does not exist, or that belongs to another function than a VF's own, is
COPY_BAD_TARGET. -/
def Obligations.CopiesMoveBytes : Prop :=
  (∀ (d : DescRef) (s : State) (x : Desc),
     (startable s d x →
       (x.val 0 1 = 0 → ∃ t, exec (.nop d) s = .next t ∧ completedWith d 0 0 0 t ∧ changesOnly [.host] s t) ∧
       (x.val 0 1 = 3 → ∃ t, exec (.knot d) s = .next t ∧ completedWith d 0 0 0 t ∧ changesOnly [.host] s t)) ∧
     (s.desc d = some x → x.started = false → x.done = none → (s.ring d.fn d.ring).phase = .active →
       s.knotFree (ticketOf d x) x = true → s.headerWaits x = false →
       (∀ code, ((s.ring d.fn d.ring).badSince.any fun o => decide (o < x.order)) = false → s.descCheck d.fn x = some code →
         (x.val 0 1 = 0 → ∃ t, exec (.nop d) s = .next t ∧ completedWith d code 0 0 t ∧ changesOnly [.host] s t) ∧
         (x.val 0 1 = 3 → ∃ t, exec (.knot d) s = .next t ∧ completedWith d code 0 0 t ∧ changesOnly [.host] s t)) ∧
       (((s.ring d.fn d.ring).badSince.any fun o => decide (o < x.order)) = true → x.flag 5 = true → x.val 0 1 = 3 →
         ∃ t, exec (.knot d) s = .next t ∧ completedWith d 0x610 0 0 t ∧ changesOnly [.host] s t))) ∧
  (∀ (d : DescRef) (s : State) (x : Desc), startable s d x → s.memWf → x.val 0 1 = 2 →
     let n := x.val 20 4
     let src := x.val 24 8
     let dst := x.val 32 8
     let a := s.devAddr d.fn dst
     let b := s.devAddr d.fn src
     let readable : Prop := x.val 16 1 = 0 ∨ x.val 16 1 = 1 ∧ s.accessOk 1 d.fn src n = true ∧ s.poisonedIn b n = false ∨ x.val 16 1 = 3
     let bytes := if x.val 16 1 = 0 then s.hostRead src n else if x.val 16 1 = 1 then s.devRead b n else fillBytes src n
     (s.copyTokens d.fn x = none → x.val 16 1 ≠ 2 → ∀ rd, exec (.copy d rd) s = .next s) ∧
     (∀ u, s.copyTokens d.fn x = some u → readable →
       (x.val 17 1 = 0 → ∃ t, exec (.copy d .ok) s = .next t ∧ completedWith d 0 0 0 t ∧
         t.hostRead dst n = bytes ∧ t.memSys = u.memSys ∧ changesOnly [.host, .hostMem, .memSys] s t) ∧
       (x.val 17 1 = 1 → s.writeOk 1 d.fn dst n = true → ∃ t, exec (.copy d .ok) s = .next t ∧ completedWith d 0 0 0 t ∧
         t.devRead a n = bytes ∧ memOnly a n s t ∧ changesOnly [.host, .mem, .memSys, .fabric] s t) ∧
       (x.val 17 1 = 1 → s.writeOk 1 d.fn dst n = false → ∃ t, exec (.copy d .ok) s = .next t ∧ completedWith d 0x504 1 0 t ∧
         t.mem = s.mem ∧ t.hostMem = s.hostMem)) ∧
     ((s.copyTokens d.fn x).isSome → x.val 16 1 = 1 → x.val 17 1 ≠ 2 →
       (s.accessOk 1 d.fn src n = false → ∃ t, exec (.copy d .ok) s = .next t ∧ completedWith d 0x504 1 0 t ∧
         t.mem = s.mem ∧ t.hostMem = s.hostMem) ∧
       (s.accessOk 1 d.fn src n = true → s.poisonedIn b n = true → (∀ k, s.stall k = .closed) →
         ∃ t, exec (.copy d .ok) s = .next t ∧ completedWith d 0x510 2 0 t ∧ t.mem = s.mem ∧ t.hostMem = s.hostMem)) ∧
     ((s.copyTokens d.fn x).isSome → x.val 16 1 = 0 → x.val 17 1 ≠ 2 → ∃ t, exec (.copy d .error) s = .next t ∧ completedWith d 0x622 1 0 t ∧
       (x.val 17 1 = 0 → t.mem = s.mem) ∧ (x.val 17 1 = 1 → t.hostMem = s.hostMem ∧ memOnly a n s t))) ∧
  (∀ (d : DescRef) (s : State) (x : Desc), startable s d x → s.memWf → x.val 0 1 = 2 → (s.copyTokens d.fn x).isSome →
     let n := x.val 20 4
     let off := x.val 40 4
     (x.val 16 1 = 0 → x.val 17 1 = 2 → let id := x.val 32 8
       (s.buffer id = none → ∃ t, exec (.copyToInbound d .ok) s = .next t ∧ completedWith d 0x620 0 0 t ∧ t.mem = s.mem) ∧
       (∀ b y, s.buffer id = some b → b.entry.dir = 0 → s.backing id = none → off + n ≤ b.entry.size →
         b.halves[b.freeHalf]? = some y →
         (d.fn ≠ 0 → b.fn ≠ d.fn → ∃ t, exec (.copyToInbound d .ok) s = .next t ∧ completedWith d 0x620 0 0 t ∧ t.mem = s.mem) ∧
         (d.fn = 0 ∨ b.fn = d.fn → ∃ t b' y', exec (.copyToInbound d .ok) s = .next t ∧ completedWith d 0 0 0 t ∧
           t.devRead (b.halfAddr b.freeHalf + off) n = s.hostRead (x.val 24 8) n ∧ t.buffer id = some b' ∧
           b'.gen = nextGen b.gen ∧ b'.halves[b.freeHalf]? = some y' ∧ y'.ready = true ∧ y'.gen = nextGen b.gen))) ∧
     (x.val 16 1 = 2 → x.waits = none → (s.startedDesc d fun y => (s.halfSettled y).isSome) = none → let id := x.val 24 8
       (s.buffer id = none → ∃ t, exec (.copyFromOutbound d) s = .next t ∧ completedWith d 0x620 0 0 t ∧
         t.hostMem = s.hostMem) ∧
       (∀ b, s.buffer id = some b → b.entry.dir = 1 → off + n ≤ b.entry.size →
         (d.fn ≠ 0 → b.fn ≠ d.fn → ∃ t, exec (.copyFromOutbound d) s = .next t ∧ completedWith d 0x620 0 0 t ∧
           t.hostMem = s.hostMem) ∧
         (d.fn = 0 ∨ b.fn = d.fn →
           (b.newest = none → ∃ t, exec (.copyFromOutbound d) s = .next t ∧ completedWith d 0x621 0 0 t ∧
             t.hostMem = s.hostMem) ∧
           (∀ k y, b.newest = some k → b.halves[k]? = some y →
             (y.pendingVerdict = true → ∃ t, exec (.copyFromOutbound d) s = .next t ∧
               t.desc d = some { x with started := true, waits := some (id, k) } ∧ t.hostMem = s.hostMem) ∧
             (y.pendingVerdict = false → x.val 17 1 = 0 → ∃ t b' y', exec (.copyFromOutbound d) s = .next t ∧
               completedWith d 0 0 0 t ∧ t.hostRead (x.val 32 8) n = s.devRead (b.halfAddr k + off) n ∧
               t.buffer id = some b' ∧ b'.halves[k]? = some y' ∧ y'.ready = false ∧ y'.held = true))))))

/-- Of R297, R300, R326: DESC_COMPLETE of an effect that is complete adds to the marker the descriptor signals, writes
the 16-byte completion record at the ring's completion slot with the next sequence number of the event arbiter, takes
the descriptor away and requests the ring's vector; a bad one is kept for the KNOTs after it; a descriptor of a
stopped ring gets no record. -/
def Obligations.CompletionsAreRecorded : Prop :=
  ∀ (d : DescRef) (s : State) (x : Desc) (st sev info : Nat),
    let r := s.ring d.fn d.ring
    let e := s.entries d.fn d.ring
    let m := x.val 12 2
    let a := s.fld .RING_CQ_BASE_BASE d.fn d.ring * 4096 + 16 * (r.completed % e)
    r.descs = [x] → x.slot = d.slot → x.done = some (st, sev, info) → x.holds = none → s.host.waits = [] →
    (x.orphan = false → ∃ t, exec (.descComplete d) s = .next t ∧
      t.hostRead a 16 = leBytes 4 (x.val 4 4) ++ leBytes 2 x.slot ++
        leBytes 2 (st % 4096 + sev % 4 * 4096 + (if r.completed / e % 2 = 0 then 1 else 0) * 32768) ++
        leBytes 6 s.arbSeq ++ leBytes 2 (min info 65535) ∧
      (∀ y, y < a ∨ a + 16 ≤ y → t.hostRead y 1 = s.hostRead y 1) ∧ t.arbSeq = (s.arbSeq + 1) % 2 ^ 48 ∧
      (t.ring d.fn d.ring).descs = [] ∧ (t.ring d.fn d.ring).completed = r.completed + 1 ∧
      (x.refused = false → m < 8192 → s.markerOwner m = d.fn → (x.flag 4 = true ∨ x.flag 3 = true ∧ st = 0) →
        t.marker m = (s.marker m + x.val 14 2) % 2 ^ 32) ∧
      (x.flag 3 = false → x.flag 4 = false → t.host.markers = s.host.markers) ∧
      (let v := s.fld .RING_CFG_VECTOR d.fn d.ring
       x.flag 1 = true → s.fld .RING_IRQ_COALESCE_COUNT d.fn d.ring ≤ 1 → s.vectorMasked d.fn v = false →
        s.host.linkUp = true → t.host.msix = s.host.msix ++ [(d.fn.val, v)]) ∧
      (x.flag 1 = false → t.host.msix = s.host.msix) ∧
      (t.ring d.fn d.ring).badSince = (if st = 0 then r.badSince else r.badSince ++ [x.order])) ∧
    (x.orphan = true → ∃ t, exec (.descComplete d) s = .next t ∧ t.hostMem = s.hostMem ∧ t.arbSeq = s.arbSeq ∧
      (t.ring d.fn d.ring).descs = [] ∧ (t.ring d.fn d.ring).completed = r.completed)

/-- Of R319 to R324: the MARK operations on a marker that nothing waits on. ADD and SET; a WAIT that is met at once or
waits; a TAKE that subtracts; a READ; an ARRIVE that waits for the next multiple of its participants; the end of a
wait whose time is over, on a ring that has stopped too. When a group that nothing uses changes owner, its 64 markers
are set to 0, and no other. -/
def Obligations.MarkersAreOperatedOn : Prop :=
  (∀ (d : DescRef) (s : State) (x : Desc), startable s d x → x.val 0 1 = 4 → s.host.waits = [] → s.waitsPending < 4096 →
    let m := x.val 18 2
    let v := x.val 20 4
    let w := s.marker m + 1
    let target := alignUp w v
    let becomes (c : Instr) (value info : Nat) : Prop := ∃ t, exec c s = .next t ∧ completedWith d 0 0 info t ∧
      t.marker m = value % 2 ^ 32 ∧ (∀ k, k ≠ m → t.marker k = s.marker k) ∧ t.host.waits = [] ∧ changesOnly [.host] s t
    let waits (c : Instr) (value kind threshold : Nat) : Prop := ∃ t k met, exec c s = .next t ∧
      t.desc d = some { x with started := true, met := met } ∧ t.host.waits = [k] ∧ k.desc = ticketOf d x ∧ k.marker = m ∧
      k.kind = kind ∧ k.threshold = threshold ∧
      k.expires = (if x.val 24 4 = 0 then none else some (s.now + x.val 24 4 * 1000)) ∧ t.marker m = value % 2 ^ 32 ∧
      changesOnly [.host] s t
    (x.val 16 1 = 0 → becomes (.add d) (s.marker m + v) 0) ∧
    (x.val 16 1 = 1 → becomes (.set d) v 0) ∧
    (x.val 16 1 = 2 → s.marker m < 2 ^ 32 → (reached (s.marker m) v = true → becomes (.wait d) (s.marker m) 1) ∧
      (reached (s.marker m) v = false → waits (.wait d) (s.marker m) 0 v)) ∧
    (x.val 16 1 = 3 → s.marker m < 2 ^ 32 →
      (reached (s.marker m) v = true → becomes (.take d) (s.marker m + 2 ^ 32 - v) 1) ∧
      (reached (s.marker m) v = false → waits (.take d) (s.marker m) 1 v)) ∧
    (x.val 16 1 = 4 → ∃ t, exec (.read d) s = .next t ∧ completedWith d 0 0 4 t ∧
      t.hostRead (x.val 32 8) 4 = leBytes 4 (s.marker m) ∧ t.host.markers = s.host.markers ∧
      changesOnly [.host, .hostMem] s t) ∧
    (x.val 16 1 = 5 → target < 2 ^ 32 → (reached w target = true → becomes (.markArrive d) (s.marker m + 1) 1) ∧
      (reached w target = false → waits (.markArrive d) (s.marker m + 1) 2 target))) ∧
  (∀ (d : DescRef) (s : State) (x : Desc) (w : MarkWait) (e : Nat), s.ticketDesc w.desc = some x → x.slot = d.slot →
    w.desc = ticketOf d x → x.done = none → s.host.waits = [w] → w.expires = some e → e ≤ s.now →
    ∃ t, exec (.markerTimeout d) s = .next t ∧ endedWith w.desc 0x631 1 0 t ∧ t.host.waits = [] ∧
      t.host.markers = s.host.markers ∧ changesOnly [.host] s t) ∧
  (∀ (g : Fin 128) (fn : Fin 32) (s : State), s.groupBusy g = false → s.fld .HUB_CFG_MARKER_OWNER_FUNCTION g ≠ fn →
    ∃ t, exec (.markerOwnerChange g fn) s = .next t ∧ t.fld .HUB_CFG_MARKER_OWNER_FUNCTION g = fn ∧
      (∀ m, m / 64 = g → t.marker m = 0) ∧ (∀ m, m / 64 ≠ g → t.marker m = s.marker m) ∧
      fieldsOnly [(.HUB_CFG_MARKER_OWNER_FUNCTION, g, 0)] s t ∧ changesOnly [.regs, .host] s t)

/-- Of R301 to R307: EXEC. LOAD puts a container that passes the checks into an empty slot, and one that fails a check
completes with the check's code and loads nothing; START fixes the first iteration's beat; KILL sets a kill beat at
most 64 beats ahead, beside those of other KILLs; UNLOAD empties the slot of a program that is not started. -/
def Obligations.ProgramsAreExecuted : Prop :=
  ∀ (d : DescRef) (s : State) (x : Desc), startable s d x → x.val 0 1 = 1 →
    let k := x.val 17 1
    (x.val 16 1 = 0 → ¬(d.fn = 0 ∧ s.mode = .nightMarket) → s.program d.fn k = none →
      s.accessOk 1 d.fn (x.val 24 8) (x.val 32 8) = true →
      let c := s.devRead (s.devAddr d.fn (x.val 24 8)) (x.val 32 8)
      ∃ t, exec (.execLoad d) s = .next t ∧ match s.checkLoad d.fn k c with
        | .ok p => completedWith d 0 0 0 t ∧ ∃ p', t.program d.fn k = some p' ∧ p'.commands = p.commands ∧
            p'.windows = p.windows ∧ p'.digest = p.digest ∧ p'.running = none
        | .error (code, info) => completedWith d code 0 info t ∧ t.fabric = s.fabric ∧ t.mem = s.mem) ∧
    (∀ p, s.program d.fn k = some p →
      (x.val 16 1 = 0 → ¬(d.fn = 0 ∧ s.mode = .nightMarket) → ∃ t, exec (.execLoad d) s = .next t ∧
        completedWith d 0x612 0 0 t ∧ t.fabric = s.fabric) ∧
      (x.val 16 1 = 1 →
        (∀ code sev, s.startRefused p x = some (code, sev) → ∃ t, exec (.execStart d) s = .next t ∧
          completedWith d code sev 0 t ∧ t.fabric = s.fabric) ∧
        (s.startRefused p x = none → p.fn = d.fn → p.slot = k → x.val 18 1 = 255 → ∃ t r,
          exec (.execStart d) s = .next t ∧ t.runningOf d.fn k = some r ∧ r.desc = some (ticketOf d x) ∧
          r.next = some (s.firstStart (x.val 32 8)) ∧ r.count = 0 ∧ r.iters = [] ∧
          r.total = (if x.val 28 4 = 0 then none else some (x.val 28 4)))) ∧
      (x.val 16 1 = 2 → ∀ b,
        (p.running = none → ∃ t, exec (.execKill d b) s = .next t ∧ completedWith d 0 0 0 t ∧ t.fabric = s.fabric) ∧
        (∀ r, p.running = some r → ∃ t, exec (.execKill d b) s = .next t ∧
          t.runningOf d.fn k =
            some { r with kill := r.kill ++ [(max s.fabric.beat (min b (s.fabric.beat + 64)), ticketOf d x)] } ∧
          changesOnly [.fabric, .host] s t)) ∧
      (x.val 16 1 = 3 →
        (p.running = none → (∀ e ∈ s.host.rings, ∀ y ∈ e.2.descs, y.waits = none) → ∃ t, exec (.execUnload d) s = .next t ∧
          completedWith d 0 0 0 t ∧ t.program d.fn k = none) ∧
        (∀ r, p.running = some r → ∃ t, exec (.execUnload d) s = .next t ∧ completedWith d 0x612 0 0 t ∧
          t.fabric = s.fabric)))

/-- Of R304, R305, R312: an iteration whose commands have all ended and whose verdicts are in ends; without a failed
command it counts, with one under CONTINUE the failure is kept; once nothing of the START is left it completes, with
the number of its iterations or with the code of its first failure in the order of the event arbiter. -/
def Obligations.IterationsEnd : Prop :=
  ∀ (fn : Fin 32) (slot : Fin 16) (s : State) (p : Program) (r : Running) (it : Iteration) (l : List Iteration),
    s.program fn slot = some p → p.fn = fn → p.slot = slot → p.running = some r → r.iters = it :: l → it.killed = false →
    s.mayEnd p it = true → r.iterMarker = none →
    (it.failure = none → (r.next ≠ none ∨ l ≠ []) → ∃ t, exec (.iterationEnd fn slot) s = .next t ∧
      t.runningOf fn slot = some { r with iters := l, ended := r.ended + 1 }) ∧
    (∀ f, it.failure = some f → r.cont = true → (r.next ≠ none ∨ l ≠ []) → ∃ t, exec (.iterationEnd fn slot) s = .next t ∧
      t.runningOf fn slot = some { r with iters := l, failure := some (r.failure.getD f) }) ∧
    (∀ k x, l = [] → r.next = none → r.count ≠ 0 → r.kill = [] → r.final = none → r.skipped = false →
      r.desc = some k → s.ticketDesc k = some x → x.done = none →
      (it.failure = none → r.failure = none → ∃ t, exec (.iterationEnd fn slot) s = .next t ∧ t.runningOf fn slot = none ∧
        endedWith k 0 0 (min (r.ended + 1) 65535) t) ∧
      (∀ f, it.failure = some f → r.failure = none → let g := r.first.getD f
        ∃ t, exec (.iterationEnd fn slot) s = .next t ∧ t.runningOf fn slot = none ∧
          endedWith k g.1 g.2.2 (g.2.1 % 65536) t))

/-- Of R347 to R351: SPLIT and JOIN of one slot. A started program that has a named pair takes the change at a later
boundary, one without it and an empty slot at once; at the boundary the copies of the pairs stop, or run again; a
change that is not allowed completes with PAIR_SPLIT_BAD or, in Drive outside NORMAL, with its own code; a JOIN is
logged when it completes. R333 to R345: agreement and the gauge. At agreement_beat both copies' digests are taken, and
at the verdict beat they decide: equal ones let the command go on, different ones fail it with INPUT_DISAGREE and are
a mismatch, missing ones fail it with a record; a comparison that agrees is over, one that does not makes the
iteration's outputs invalid and, in Drive, asks for D3 with a severity-3 record; one that lacks a copy 20 µs long
differs; a targeted swatch not complete after 1 s requests a restart, and authority passes to the fallback. -/
def Obligations.PairsSplitJoinAndCompare : Prop :=
  ((∀ (d : DescRef) (s : State) (x : Desc), startable s d x → x.val 16 1 = 0 → x.val 18 1 < 16 →
     s.gauge.splits.length = 16 → s.gauge.goals.length = 16 → (∀ p ∈ s.programs, p.changes = [] ∧ p.warm = []) →
     let m := x.val 17 1
     let k := x.val 18 1
     let old := s.gauge.splits.getD k 0
     (x.val 0 1 = 5 → m ≠ 0 → s.gauge.forced &&& m = 0 → s.gauge.goals.getD k 0 &&& m = 0 →
       (s.inDrive = true → s.gaugeState ≠ 0 → ∃ t, exec (.split d) s = .next t ∧ completedWith d 0x741 0 0 t ∧
         t.gauge = s.gauge) ∧
       (s.inDrive = false ∨ s.gaugeState = 0 →
         (s.program 0 k = none → ∃ t, exec (.split d) s = .next t ∧ completedWith d 0 0 0 t ∧
           t.gauge.splits.getD k 0 = old ||| m ∧ t.gauge.goals.getD k 0 = s.gauge.goals.getD k 0 ||| m) ∧
         (∀ p r, s.program 0 k = some p → p.slot = k → p.fn = 0 → p.running = some r → p.pairMask &&& m % 8 = 0 → ∃ t,
           exec (.split d) s = .next t ∧ completedWith d 0 0 0 t ∧ t.gauge.splits.getD k 0 = old ||| m) ∧
         (∀ p r, s.program 0 k = some p → p.running = some r → p.pairMask &&& m % 8 ≠ 0 → ∃ t p' c, exec (.split d) s = .next t ∧
           t.program 0 k = some p' ∧ p'.changes = [c] ∧ c.split = true ∧ c.mask = m ∧ c.desc = ticketOf d x ∧
           s.fabric.beat + 2048 ≤ c.after ∧ t.gauge.splits = s.gauge.splits ∧
           t.desc d = some { x with started := true }))) ∧
     (x.val 0 1 = 5 ∨ x.val 0 1 = 6 → m = 0 → ∃ t,
       exec (if x.val 0 1 = 5 then .split d else .join d) s = .next t ∧ completedWith d 0x740 0 0 t ∧ t.gauge = s.gauge) ∧
     (x.val 0 1 = 6 → m ≠ 0 → s.gauge.forced &&& m = 0 → s.gauge.goals.getD k 0 &&& m = m →
       (∀ j, j < 3 → bit m j = true → s.fabric.dieOn.getD (j + 3) false = true) →
       (s.poolsOn m = [] → s.program 0 k = none → ∃ t, exec (.join d) s = .next t ∧ completedWith d 0 0 0 t ∧
         t.gauge.splits.getD k 0 = old &&& (7 - m % 8) ∧ recordAmong 0x743 0 s t) ∧
       (s.poolsOn m ≠ [] → ∃ t y, exec (.join d) s = .next t ∧ t.gauge.resync = s.gauge.resync ++ [y] ∧
         y.1 = ticketOf d x ∧ y.2.1 = m ∧ t.gauge.splits = s.gauge.splits))) ∧
   (∀ (d : DescRef) (s : State) (x : Desc) (m slot at_ : Nat) (q : Pool),
     s.ticketDesc (ticketOf d x) = some x → x.slot = d.slot → x.done = none →
     s.gauge.resync = [(ticketOf d x, m, slot, at_)] → slot < 16 → s.gauge.splits.length = 16 → s.memWf → s.poolsOn m = [q] →
     s.program 0 slot = none → (∀ p ∈ s.programs, p.changes = [] ∧ p.warm = []) →
     ∃ t, exec (.joinResyncDone d) s = .next t ∧ endedWith (ticketOf d x) 0 0 0 t ∧ t.gauge.resync = [] ∧
       t.devRead (s.poolAddr q q.mirror) q.bitmapArea = s.devRead (s.poolAddr q q.base) q.bitmapArea ∧
       memOnly (s.poolAddr q q.mirror) q.bitmapArea s t) ∧
   (∀ (slot : Fin 16) (s : State) (p : Program) (c : PairChange), s.program 0 slot = some p → p.slot = slot → p.fn = 0 →
     c ∈ p.changes → (∀ e ∈ p.changes, s.atBoundary p e = true → e = c) → c.split = true → s.gauge.splits.length = 16 →
     (p.running = none ∨ ∃ r, p.running = some r ∧ r.next = some s.fabric.beat ∧ c.after ≤ s.fabric.beat) →
     ∃ t p', exec (.pairChangeBoundary 0 slot) s = .next t ∧ t.program 0 slot = some p' ∧ p'.changes = p.changes.erase c ∧
       t.gauge.splits.getD slot 0 = s.gauge.splits.getD slot 0 ||| c.mask ∧
       p'.split = s.gauge.forced ||| (s.gauge.splits.getD slot 0 ||| c.mask)) ∧
   (∀ (fn : Fin 32) (slot : Fin 16) (s : State) (p : Program) (w : Warmup), s.program fn slot = some p → p.warm = [w] →
     p.running = none → w.desc.isSome ∨ w.left = 0 → ∃ t p', exec (.joinWarmupEnd fn slot) s = .next t ∧
       t.program fn slot = some p' ∧ p'.warm = (if w.left = 0 then [] else [{ w with desc := none }]) ∧
       t.gauge.splits = s.gauge.splits)) ∧
  ((∀ (c : CmdRef) (i : Nat) (s : State) (p : Program) (it : Iteration) (k : Command) (r : CmdRun) (a : Agree),
     s.cmdRun c = some (p, it, k, r) → p.agrees[i]? = some a → a.cmd = k.id → it.runsPair p a.die = true →
     r.uncommitted = true → it.entryBeat ≤ k.start → p.fn = c.fn → p.slot = c.slot →
     (s.fabric.beat = it.start + a.beat → (∀ y ∈ r.digests, y.1 ≠ i) → ∃ t r' y z, exec (.agreementDigest c i) s = .next t ∧
       t.runOf c = some r' ∧ r'.digests = r.digests ++ [(i, y, z)] ∧
       y = shake256 (s.peekBytes r (tileBase a.die a.tile + a.off) a.size) 16 ∧
       z = shake256 (s.peekBytes r (tileBase (a.die + 3) a.tile + a.off) a.size) 16 ∧ changesOnly [.fabric] s t) ∧
     (s.fabric.beat = it.start + a.beat + a.delay + 160 → i ∉ r.verdicts →
       (∀ y, r.digests.find? (·.1 == i) = some (i, y, y) → ∃ t r', exec (.agreementVerdict c i true true) s = .next t ∧
         t.runOf c = some r' ∧ r'.verdicts = r.verdicts ++ [i] ∧ r'.phase = r.phase ∧ changesOnly [.fabric] s t) ∧
       (∀ e, ∃ t r', exec (.agreementVerdict c i false e) s = .next t ∧ t.runOf c = some r' ∧
         r'.phase = .failed 0x711 ∧ recordMade 0x711 (s.sev32 k.safety) s t) ∧
       (∀ y z e, y ≠ z → r.digests.find? (·.1 == i) = some (i, y, z) → ∃ t r', exec (.agreementVerdict c i true e) s = .next t ∧
         t.runOf c = some r' ∧ r'.phase = .failed 0x710 ∧ t.fld .HUB_CFG_GAUGE_STATUS_LAST_KIND = 4))) ∧
   (∀ (g : GaugeCmp) (w n : Nat) (s : State) (p : Program) (it : Iteration) (k : Command) (r : CmdRun) (x : Covering)
     (y : Window), s.cmdRun g.ref = some (p, it, k, r) → it.number = g.ref.iter → p.fn = g.ref.fn → p.slot = g.ref.slot →
     it.covering = [x] → x.kind = 0 → x.cmd = k.id →
     x.index = w * 8192 + n → p.windows[w]? = some y → 2 ≤ x.values.length → x.first ≤ s.now →
     (g.agree = true → x.values[0]? = x.values[1]? → ∃ t it', exec (.gaugeChunkVerdict g w n) s = .next t ∧
       t.iteration g.ref.fn g.ref.slot g.ref.iter = some it' ∧ it'.covering = [] ∧ it'.failure = it.failure) ∧
     (g.agree = false → it.binds p x = false → ∃ t, exec (.gaugeChunkVerdict g w n) s = .next t ∧ recordMade 0x724 0 s t) ∧
     (g.agree = false → it.binds p x = true → it.failure = none → s.inDrive = true → s.gaugeState = 0 →
       s.fld .HUB_CFG_GAUGE_CNT_MISMATCHES < 65535 →
       ∃ t it' q, exec (.gaugeChunkVerdict g w n) s = .next t ∧
         t.iteration g.ref.fn g.ref.slot g.ref.iter = some it' ∧ it'.failure = some (0x720, k.id, 3) ∧
         it'.invalid = true ∧ t.gaugeState = 1 ∧ t.fld .HUB_CFG_GAUGE_STATUS_LAST_KIND = 1 ∧
         t.fld .HUB_CFG_GAUGE_CNT_MISMATCHES = s.fld .HUB_CFG_GAUGE_CNT_MISMATCHES + 1 ∧
         t.safety.errq.inFlight = s.safety.errq.inFlight ++ [q] ∧ q.code = 0x720 ∧ q.sev = 3 ∧ q.request = some (2, 3))) ∧
   (∀ (g : GaugeCmp) (s : State) (p : Program) (it : Iteration) (k : Command) (r : CmdRun) (x : Covering),
     s.cmdRun g.ref = some (p, it, k, r) → it.number = g.ref.iter → p.fn = g.ref.fn → p.slot = g.ref.slot →
     it.covering = [x] → x.kind = 1 → x.cmd = k.id → r.firstDiff p it = none → g.agree = true →
     ∃ t it', exec (.gaugeSignatureVerdict g) s = .next t ∧ t.iteration g.ref.fn g.ref.slot g.ref.iter = some it' ∧
       it'.covering = [] ∧ it'.failure = it.failure) ∧
   (∀ (g : GaugeCmp) (s : State) (p : Program) (it : Iteration) (k : Command) (r : CmdRun) (x : Nat × Nat),
     s.cmdRun g.ref = some (p, it, k, r) → it.covering.any (fun y => y.kind == 1 && y.cmd == k.id) = true →
     r.firstDiff p it = some x → it.compares p x.1 = false →
     ∃ t, exec (.gaugeSignatureVerdict g) s = .next t ∧ recordMade 0x724 0 s t) ∧
   (∀ (c : CmdRef) (s : State) (p : Program) (it : Iteration) (k : Command) (r : CmdRun) (x : Covering),
     s.cmdRun c = some (p, it, k, r) → it.number = c.iter → p.fn = c.fn → p.slot = c.slot → it.covering = [x] →
     x.cmd = k.id → x.values.length < 2 → x.first + 20000 ≤ s.now → it.binds p x = true →
     it.failure = none → ∃ t it', exec (.gaugeMissingTimeout c) s = .next t ∧ t.iteration c.fn c.slot c.iter = some it' ∧
       it'.covering = [] ∧ it'.failure = some (0x720, k.id, if s.inDrive then 3 else 2) ∧ it'.invalid = true ∧
       t.fld .HUB_CFG_GAUGE_STATUS_LAST_KIND = 3) ∧
   (∀ s : State, s.inDrive = true → s.gaugeState = 1 → s.gauge.since + 1000000000 ≤ s.now → s.mainStarting = false →
     s.restartWindow.length < s.restartLimit → ∃ t q, exec .gaugeSwatchTimeout s = .next t ∧ t.gaugeState = 3 ∧
       t.safety.restart.requested = true ∧ (∃ l, t.safety.errq.inFlight = s.safety.errq.inFlight ++ q :: l) ∧ q.code = 0x723 ∧
       q.sev = 3 ∧ q.request = some (2, 3) ∧
       (s.safety.restart.requested = false → s.safety.authority = 1 → t.safety.authority = s.fallbackAuthority)))

/-- Of R354 to R356, R363, R368, R426, R502, Table 11.5: an island that loses its supply, its lockstep or its
accelerator goes silent or supervises only, and its STAT ball is high while it runs its firmware, high-impedance
otherwise; its clock follows the time base while the hub die is reachable, and 802.1AS on its own MAC otherwise (log
113); scan and debug are closed with WHA; the peer logs what it misses, and takes command from a commander that is
lost, the fallback's authority passing with the next sequence number. R361, R362, R365, Table 11.3: heartbeats of the
hub die renew what the islands it reaches know; each island takes the plan records in their order; a heartbeat that is
missing, a record that fails its check, which no longer counts toward hand-back, and a plan record that is missing 1
ms after the next cycle began are logged; the commanding island's own heartbeat gives the hub die its authority. -/
def Obligations.IslandsSupervise : Prop :=
  (∀ (i : Fin 2) (s : State),
     let x := s.island i
     let o := 1 - i.val
     let y := s.island o
     let late (a : Nat) : Prop := a + s.crossHbTimeout ≤ x.clock
     let takes (t : State) : Prop := s.commanding = some o → t.commanding = some i.val ∧
       (2 ≤ s.safety.authority → t.safety.authority = fallbackOf i ∧ t.safety.authSeq = (s.safety.authSeq + 1) % 65536)
     (∃ t, exec (.islandSupplyFault i) s = .next t ∧ (t.island i).supplyOk = false ∧ (t.island i).alive = false ∧
       t.whStat i = .highZ ∧ (t.island i).pilot = Pilot.zero ∧ (y.alive = true → recordMade 0x813 2 s t) ∧
       (i = 0 → t.fld .SEC_SCAN_STATUS_CLEARED ≠ 1) ∧ changesOnly (recordParts ++ [.regs, .boot]) s t) ∧
     (x.supplyOk = false → (y.alive = true ∨ s.boot.hub = true) → ∃ t, exec (.islandSupplyRestored i) s = .next t ∧
       (t.island i).supplyOk = true ∧ (t.island i).alive = true ∧ t.whStat i = .high ∧ (t.island i).clock = x.clock ∧
       changesOnly [.safety, .boot] s t) ∧
     (∃ t, exec (.islandAcceleratorThermalStop i) s = .next t ∧ (t.island i).accelOk = false ∧
       (t.island i).pilot = Pilot.zero ∧
       (s.commanding = some i.val → y.alive = true → y.accelOk = true → t.commanding = some o)) ∧
     (x.alive = true →
       (s.boot.hub = true → s.islandLink i = true → x.hubLost = false → ∃ t, exec (.islandClockAlign i) s = .next t ∧
         t.island i = x.alignTo s.now ∧ t.island o = y ∧ changesOnly [.safety] s t) ∧
       (x.hubLost = true → bit (s.setting 23 1 0) i = true → ∃ t v, exec (.islandClockAlign i) s = .next t ∧
         t.island i = x.alignTo v ∧ (s.timeBase.state = 2 → v = s.now) ∧ t.island o = y ∧
         changesOnly [.safety, .freeCount] s t) ∧
       (x.hubLost = true → bit (s.setting 23 1 0) i = false → ∃ t, exec (.islandClockAlign i) s = .next t ∧
         t.island i = { x with aligned := false, holdover := x.holdover + 1 } ∧ changesOnly [.safety] s t) ∧
       (y.alive = true → ∀ hub, ∃ t, exec (.crossHeartbeat i true hub) s = .next t ∧ (t.island i).lastCross = x.clock ∧
         (t.island i).peerLost = false ∧ t.island o = y ∧ changesOnly [.safety] s t) ∧
       (late x.lastCross → late x.lastHub → x.peerLost = false → ∃ t, exec (.crossHbTimeout i) s = .next t ∧
         (t.island i).peerLost = true ∧ recordAmong 0x811 2 s t ∧ takes t) ∧
       (late x.lastCross → ¬ late x.lastHub → x.pathLost = false → ∃ t, exec (.crossHbTimeout i) s = .next t ∧
         (t.island i).pathLost = true ∧ recordMade 0x812 1 s t ∧ t.commanding = s.commanding ∧
         changesOnly recordParts s t) ∧
       (x.peerLost = false → y.failSignal = true → ∃ t, exec (.peerFailSignal i) s = .next t ∧
         (t.island i).peerLost = true ∧ recordAmong 0x810 2 s t ∧ takes t) ∧
       (∃ t, exec (.lockstepMismatch i) s = .next t ∧ (t.island i).failSignal = true ∧ (t.island i).alive = false ∧
         t.whStat i = .highZ ∧ (t.island i).pilot = Pilot.zero ∧ (i = 0 → t.fld .SEC_SCAN_STATUS_CLEARED ≠ 1) ∧
         changesOnly [.safety, .regs, .boot] s t))) ∧
  (∀ s : State,
     (s.boot.hub = true → s.domainOn 30 = true → ∃ t, exec .hubHeartbeat s = .next t ∧
       (∀ i : Fin 2, (s.island i).alive = true → s.islandLink i = true → (t.island i).lastHubHb = (s.island i).clock ∧
         (t.island i).hubLost = false) ∧
       (∀ i : Fin 2, s.islandLink i = false → t.island i = s.island i) ∧ changesOnly [.safety] s t) ∧
     (∀ i : Nat, s.commanding = some i → (s.island i).alive = true → s.boot.hub = true → s.islandLink i = true →
       ∃ t, exec .authorityHeartbeat s = .next t ∧
         t.safety.hubView = some (s.safety.authority, s.safety.authSeq, s.now) ∧ changesOnly [.safety] s t) ∧
     (∀ i : Fin 2, (s.island i).alive = true →
       ((s.island i).hubLost = false → ((s.island i).lastHubHb + s.hubHbTimeout ≤ (s.island i).clock) ∨
           s.islandLink i = false →
         ∃ t, exec (.hubHeartbeatLost i) s = .next t ∧ (t.island i).hubLost = true ∧ recordMade 0x820 3 s t ∧
           changesOnly recordParts s t) ∧
       (∀ r l, (s.island i).relay = r :: l → s.boot.hub = true → s.islandLink i = true →
         (∃ t, exec (.planRecordRelay i) s = .next t ∧ (t.island i).lastRecord = some (r.seq, r.cycle) ∧
           (t.island i).relay = l ∧
           changesOnly recordParts s t) ∧
         (s.inDrive = true → s.safety.restart.state ≠ 1 → r.outcome ≠ 3 →
           s.dynamicsPass (s.island i).vehicle r.poses = false → s.safety.disagreed ≠ some r.seq →
           ∃ t, exec (.planRecordRelay i) s = .next t ∧ recordAmong 0x822 3 s t ∧ t.safety.disagreed = some r.seq ∧
             r.seq ∉ t.safety.handback)) ∧
       (let n := (((s.now : Int) - 1000000 - (s.fld .PLAN_CYCLE_PHASE_PHASE : Nat)) / (s.planPeriod : Int) - 1).toNat
        s.planning = true → s.safety.restart.state ≠ 1 → s.safety.planFrom ≤ n → (s.island i).lastRecord = none →
         s.safety.missed = none → s.cycleStart (n + 1) + 1000000 ≤ s.now →
         ∃ t, exec (.mainPlanMissing i) s = .next t ∧ t.safety.missed = some n ∧ t.safety.handback = [] ∧
           recordMade 0x821 (if s.safety.authority = 1 then 3 else 2) s t ∧ changesOnly recordParts s t)))

/-- Of R358, R359: the pilot of an island. A frame is the input of its edge; with all three inputs of the next edge a
cycle starts; when an input has been missing for the third cycle, PILOT_INPUT_LOST is logged; a cycle publishes by its
deadline, or is discarded and logged. -/
def Obligations.PilotCyclesRun : Prop :=
  ∀ (i : Fin 2) (s : State),
    let x := s.island i
    let p := x.pilot
    (∀ (k : Fin 3) edge, p.running = true → p.inputs.length = 3 → p.next ≤ edge →
      ∃ t, exec (.islandSensorFrame i k edge) s = .next t ∧ edge ∈ (t.island i).pilot.inputs.getD k [] ∧
        (∀ j : Fin 3, j ≠ k → (t.island i).pilot.inputs.getD j [] = p.inputs.getD j []) ∧ changesOnly [.safety] s t) ∧
    (p.running = true → (∀ k : Fin 3, p.next ∈ p.inputs.getD k []) → s.vehicleLate x = false → p.missing.length = 3 →
      ∃ t, exec (.pilotCycleStart i) s = .next t ∧ (t.island i).pilot.next = p.next + 1 ∧
        (t.island i).pilot.work = p.work ++ [⟨p.next, false, true⟩] ∧ (t.island i).pilot.missing = [0, 0, 0] ∧
        changesOnly [.safety] s t) ∧
    (p.running = true → p.inputs = [[], [], []] → (p.next + 1) * s.pilotPeriod ≤ x.clock → p.missing = [2, 2, 2] →
      p.inputLost = false → ∃ t, exec (.pilotCycleStart i) s = .next t ∧
        (t.island i).pilot.work = p.work ++ [⟨p.next, true, false⟩] ∧ (t.island i).pilot.inputLost = true ∧
        recordMade 0x850 2 s t ∧ changesOnly recordParts s t) ∧
    (∀ c l, p.work = c :: l →
      (∀ cont stop grid, x.clock ≤ (c.edge + 2) * s.pilotPeriod →
        ∃ t, exec (.pilotPublish i cont stop grid) s = .next t ∧ (t.island i).pilot.work = l ∧
          (t.island i).pilot.published = p.published + 1 ∧
          (t.island i).pilot.out = some ⟨c.edge, c.edge * s.pilotPeriod, cont, stop, grid, c.degraded⟩) ∧
      ((c.edge + 2) * s.pilotPeriod ≤ x.clock → ∃ t, exec (.pilotDeadline i) s = .next t ∧
        (t.island i).pilot.work = l ∧ (t.island i).pilot.overruns = p.overruns + 1 ∧ recordAmong 0x851 2 s t ∧
        changesOnly recordParts s t))

/-- Of R365, R380, Tables 11.9 to 11.11: the hub die sends TRAJ once for each plan record, AUTHORITATIVE by the
heartbeat it holds, and every sender its STATUS each STATUS_PERIOD outside Park: each takes the place of one of the
same sender that waits on its CAN controllers, under the identifier of its type there. TRAJ is INVALID in the fallback
safe state; that it is at D3 and D4 is DEDUCED (log 32). R370, R381: an intact message with a new counter is taken, a
bad one is logged. VEHICLE_STATE is held with its time; YIELD and TAKE, for this role and on the commanding island,
end and begin command. A controller in bus-off is logged and recovers. -/
def Obligations.MessagesAreExchanged : Prop :=
  (∀ s : State,
     (∀ r, s.safety.lastPlan = some r → s.boot.hub = true → s.inDrive = true → s.safety.trajSent ≠ some r.seq →
       ∃ t m f, exec .hubTrajSend s = .next t ∧ t.safety.trajSent = some r.seq ∧ m.sender = 0 ∧
         m.body = .traj (if r.outcome = 3 then 3 else 0) f r.outcome r.epochPublish r.cycle r.base r.seq r.poses ∧
         (bit f 0 = true ↔ ∃ q, s.freshView = some (1, q)) ∧ (bit f 1 = true ↔ 3 ≤ s.degrade.step ∨ s.safety.restart.requested = true ∨ s.safety.restart.state = 1) ∧
         (∀ c, c < 2 → ∀ q, s.safety.canTx[c]? = some q → t.safety.canTx[c]? = some (queueOn q (s.addressed m c))) ∧
         (∀ c, 2 ≤ c → t.safety.canTx[c]? = s.safety.canTx[c]?) ∧ changesOnly [.safety] s t) ∧
     (∀ k : Fin 3, s.statusDue k = false → exec (.statusSend k) s = .next s) ∧
     (∀ k : Fin 3, s.mode ≠ .park → (if k.val = 0 then s.boot.hub else (s.island (k.val - 1)).alive) = true → s.statusDue k = true →
       ∃ t m, exec (.statusSend k) s = .next t ∧ m.sender = k.val ∧ m.kind = 2 ∧ m.step = s.degrade.step ∧
         (∀ c ∈ controllersOf k, ∀ q, s.safety.canTx[c]? = some q → t.safety.canTx[c]? = some (queueOn q (s.addressed m c))) ∧
         (∀ c, c ∉ controllersOf k → t.safety.canTx[c]? = s.safety.canTx[c]?) ∧ changesOnly [.safety] s t)) ∧
  ((∀ (m : CanRx) (s : State),
     let i := m.island.val
     let fresh (kind : Nat) : Prop := (s.island i).alive = true ∧ s.safety.canOff.getD (4 + 2 * i + m.bus.val) false = false ∧
       m.crcOk = true ∧ m.lengthOk = true ∧ (s.island i).rxTaken.getD kind [] = []
     (∀ v y a g b, fresh 0 → s.mode ≠ .nightMarket → s.transition = .none →
       ∃ t, exec (.vehicleState m v y a g b) s = .next t ∧ (t.island i).vehicle =
         some ⟨v % 2 ^ 32, y % 2 ^ 32, a % 2 ^ 32, g % 4, b, (s.island i).clock⟩ ∧ changesOnly [.safety] s t) ∧
     (∀ v y a g b, (s.island i).alive = true → s.safety.canOff.getD (4 + 2 * i + m.bus.val) false = false →
       (m.crcOk = false ∨ m.lengthOk = false) → (s.island i).lastRxBad = none →
       ∃ t, exec (.vehicleState m v y a g b) s = .next t ∧ (t.island i).vehicle = (s.island i).vehicle ∧
         recordMade 0x861 1 s t ∧ changesOnly recordParts s t) ∧
     (∀ role, fresh 1 → s.heeds m role = true →
       (s.safety.inCommand = true → ∃ t, exec (.yield m role) s = .next t ∧ t.safety.inCommand = false ∧
         t.pair.advisory = true ∧ recordMade 0x831 0 s t ∧ changesOnly (.pair :: recordParts) s t) ∧
       (s.safety.inCommand = false → ∀ idle,
         (s.pilotReady = true → s.peerIdle idle = true → ∃ t, exec (.commandTake m role idle) s = .next t ∧
           t.safety.inCommand = true ∧ t.pair.advisory = false ∧ recordMade 0x831 0 s t ∧
           changesOnly (.pair :: recordParts) s t) ∧
         (s.pilotReady = false ∨ s.peerIdle idle = false → ∃ t, exec (.commandTake m role idle) s = .next t ∧
           t.safety.inCommand = false ∧ recordMade 0x831 0 s t ∧ changesOnly recordParts s t)))) ∧
   (∀ (c : Fin 8) (s : State), s.safety.canOff.length = 8 →
     (s.safety.canOff.getD c false = false → ∃ t, exec (.canBusOff c) s = .next t ∧ t.safety.canOff.getD c false = true ∧
       recordMade 0x860 2 s t ∧ changesOnly recordParts s t) ∧
     (∃ t, exec (.canBusOffRecovery c) s = .next t ∧ t.safety.canOff.getD c false = false ∧
       (∀ k, k ≠ c.val → t.safety.canOff.getD k false = s.safety.canOff.getD k false) ∧ changesOnly [.safety] s t)))

/-- Of R372 to R374, Table 11.6: a requested restart starts in Drive: every program of the PF leaves its slot and the
injections, which come before the full pass, begin; it is done once retained programs are reloaded, a plan record is
out and the safety programs agree; one not done 1,500 ms after its start has failed and asks for D4. -/
def Obligations.MainPathRestarts : Prop :=
  ∀ s : State, let r := s.safety.restart
    (r.requested = true → s.inDrive = true → s.mainStarting = false → ∃ t, exec .mainRestartStart s = .next t ∧
      t.safety.restart.state = 1 ∧ t.safety.restart.startedAt = s.now ∧ t.safety.restart.requested = false ∧
      t.safety.restart.window = s.restartWindow ++ [s.now] ∧ (∀ k, k < 16 → t.program 0 k = none) ∧
      t.swatch.injecting = some s.now ∧ t.swatch.fullPass = false ∧ t.swatch.running = [] ∧ recordAmong 0x840 0 s t) ∧
    (r.state = 1 → r.reloaded = true → r.planned = true → s.safetyAgreed = true →
      ∃ t, exec .mainRestartDone s = .next t ∧ t.safety.restart.state = 0 ∧
        t.safety.restart.lastDuration = min 4294967295 ((s.now - r.startedAt) / 1000) ∧ recordAmong 0x841 0 s t ∧
        (s.gaugeState = 3 → t.gaugeState = 0)) ∧
    (r.state = 1 → r.startedAt + 1500000000 ≤ s.now → ∃ t q, exec .mainRestartFail s = .next t ∧
      t.safety.restart = { r with state := 2 } ∧ t.safety.errq.inFlight = s.safety.errq.inFlight ++ [q] ∧ q.code = 0x842 ∧
      q.sev = 3 ∧ q.request = some (9, 4) ∧ changesOnly recordParts s t)

/-- Of R371, R375 to R379, R400: records. The oldest on its way, but an UNSEQUENCED one first, reaches the queue, and
is handled when nothing of its severity or above is in work, pre-empting what is; with 48 entries held, severities 0
and 1 bypass the queue, and with 64 it overflows; an injected one bypasses nothing. A record whose handling ends is
written to the host log; one of severity 3 in Drive takes authority from MAIN to the fallback, when its handling
starts. -/
def Obligations.RecordsAreHandled : Prop :=
  ∀ s : State, let q := s.safety.errq
    (∀ r, (q.inFlight.find? (·.unsequenced)).or q.inFlight.head? = some r →
      let closes : Prop := s.inDrive = true ∧ r.sev = 3 ∧ r.injected = false
      let single : Prop := r.counts = false ∨ q.lastCounting = none
      (single → q.queue = [] →
        (q.handling = [] → ∃ t, exec .errorRecordEnqueue s = .next t ∧
          t.safety.errq.handling = [r] ∧ t.safety.errq.queue = [] ∧
          (¬closes → t.safety.errq.inFlight = q.inFlight.erase r ∧ changesOnly [.safety] s t) ∧
          (closes → s.safety.authority = 1 → t.safety.authority = s.fallbackAuthority ∧
            ∃ n a, t.safety.hubView = some (s.fallbackAuthority, n, a)) ∧ changesOnly recordParts s t) ∧
        (∀ h, q.handling = [h] → h.sev < r.sev → q.preemptions < 65535 →
          ∃ t, exec .errorRecordEnqueue s = .next t ∧ t.safety.errq.handling = [r, { h with handling := 1 }] ∧
            t.safety.errq.preemptions = q.preemptions + 1) ∧
        (∀ h, q.handling = [h] → r.sev ≤ h.sev → ∃ t, exec .errorRecordEnqueue s = .next t ∧
          t.safety.errq.handling = [h] ∧ t.safety.errq.queue = [r])) ∧
      (r.sev ≤ 1 → 48 ≤ q.depth → r.injected = false → q.notesBypassed < 65535 → ∃ t, exec .errorRecordEnqueue s = .next t ∧
        t.safety.errq.inFlight = q.inFlight.erase r ∧ t.safety.errq.queue = q.queue ∧ t.safety.errq.notesBypassed = q.notesBypassed + 1 ∧
        t.safety.errq.lastCode = r.code) ∧
      (r.injected = true → q.depth < 64 → ∃ t, exec .errorRecordEnqueue s = .next t ∧
        t.safety.errq.notesBypassed = q.notesBypassed ∧ t.safety.errq.maxDepth = q.maxDepth) ∧
      (2 ≤ r.sev → 64 ≤ q.depth → r.injected = false → ∃ t, exec .errorRecordEnqueue s = .next t ∧ t.safety.errq.queue = q.queue ∧
        t.safety.errq.lastSev = 3 ∧ (single → t.safety.errq.lastCode = 0x801))) ∧
    (∀ r l, q.handling = r :: l → s.safety.commander ≠ 0 → q.queue = [] →
      (s.inDrive = false →
        (∃ t, exec .errorHandlingDone s = .next t ∧ t.safety.errq.handling = l ∧ t.safety.errq.lastCode = r.code ∧
          t.safety.errq.lastSev = r.sev ∧ t.degrade = s.degrade) ∧
        (let k := s.fld .HUB_CFG_ERRLOG_COUNT_COUNT
         s.fld .HUB_CFG_ERRLOG_CFG_ENABLE = 1 → s.host.linkUp = true → k < 2 ^ 31 →
          ∃ t, exec .errorHandlingDone s = .next t ∧ t.fld .HUB_CFG_ERRLOG_COUNT_COUNT = k + 1 ∧
            t.hostRead (s.fld .HUB_CFG_ERRLOG_BASE_BASE * 4096 +
              32 * (k % 2 ^ s.fld .HUB_CFG_ERRLOG_CFG_LOG2_ENTRIES)) 32 = r.encode s.degrade.step r.handling)) ∧
      (s.inDrive = true → r.injected = false → r.sev = 3 → s.safety.authority = 1 →
        ∃ t, exec .errorHandlingDone s = .next t ∧ t.safety.errq.handling = l ∧
          t.safety.authority = s.fallbackAuthority ∧ (∃ n a, t.safety.hubView = some (s.fallbackAuthority, n, a)))) ∧
    (s.fld .HUB_CFG_ERRLOG_CFG_ENABLE = 0 → ∃ t, exec .errlogEnable s = .next t ∧ t.fld .HUB_CFG_ERRLOG_CFG_ENABLE = 1 ∧
      t.fld .HUB_CFG_ERRLOG_COUNT_COUNT = 0 ∧
      fieldsOnly [(.HUB_CFG_ERRLOG_CFG_ENABLE, 0, 0), (.HUB_CFG_ERRLOG_COUNT_COUNT, 0, 0)] s t ∧ changesOnly [.regs] s t)

/-- Of R382 to R397: self-test slices. A slice that may run, and whose turn it is, is booked with its budget and
guard, and leaves the registers of its own tile alone undefined where it is one that does (R384); it returns what it
holds at its end; at the end of its budget its signature is compared, and it passes, or differs for the first time, or
fails at the second difference; the timer ends one that has not ended, at its guard or at its budget, and twice in a
row at its budget is a fail. R395 to R397, R401, Table 12.5: a target in service not covered for 30 s in Drive is
logged once; a full pass is over when no target in service is left to cover, and takes Day-open on; an injection that
is not reported is counted, named and logged. That the injections end with the first booking of a slice is the model's
choice (log 115). -/
def Obligations.SlicesAndCoverage : Prop :=
  (∀ (r : SliceRef) (s : State), let q := s.swatch
     (∀ e, s.boot.hub = true → q.injecting = none → (q.fullPass = true ∨ s.fld .HUB_CFG_SWATCH_CFG_ENABLE = 1) →
       (∀ x ∈ q.running, x.ref ≠ r ∧ (x.returned = false → x.ref.target ≠ r.target)) → sliceNamed r = true → s.sliceFits r e = true → s.sliceBudget r ≤ 500 →
       (kindOnBeats r.kind = true → s.gapFree r e = true) → s.sliceAllowed r e = true → s.sliceOrder r e = true →
       s.sliceTurn r = true →
       let loose : Prop := r.kind = .tileFull ∨ r.kind = .tileLogic ∧ 24 ≤ r.slice
       ∃ t, exec (.swatchSliceStart r e) s = .next t ∧ t.swatch = { q with running := q.running ++
         [⟨r, s.sliceNow r, s.sliceTime r + s.sliceBudget r * 1000, e - s.sliceSpan r 20, false⟩] } ∧
         (¬loose → changesOnly [.swatch] s t) ∧
         (loose → changesOnly [.swatch, .fabric, .freeCount] s t ∧
           t.fabric = { s.fabric with vregs := t.fabric.vregs, accs := t.fabric.accs, sregs := t.fabric.sregs } ∧
           ∀ d i reg lane, i < 64 → (d, i) ≠ (r.target / 40, r.target % 40) → t.vreg d i reg lane = s.vreg d i reg lane)) ∧
     (∀ x, q.running = [x] → x.ref = r →
       let inTime : Prop := s.sliceTime r < x.due ∧ (kindOnBeats r.kind = true → s.sliceNow r < x.guard)
       (inTime → ∃ t, exec (.swatchSliceEnd r) s = .next t ∧ t.swatch = { q with running := [{ x with returned := true }] } ∧
         changesOnly [.swatch] s t) ∧
       (¬inTime → exec (.swatchSliceEnd r) s = .next s) ∧
       let ref := Config.swatchReference s.boot.header (kindCode r.kind) r.slice % 2 ^ 128
       (x.returned = true → x.due ≤ s.sliceTime r →
         (s.fld .HUB_CFG_SWATCH_CNT_COUNT 0 < 65535 → ∃ t, exec (.swatchVerdict r true) s = .next t ∧ t.swatch.running = [] ∧
           t.swatch.signature = ref ∧
           t.fld .HUB_CFG_SWATCH_CNT_COUNT 0 = s.fld .HUB_CFG_SWATCH_CNT_COUNT 0 + 1 ∧
           (coveredBy (if r ∈ q.passed then q.passed else q.passed ++ [r]) r.target = true →
             Tbl.get 0 t.swatch.covered r.target = max 1 s.now)) ∧
         (r ∉ q.differed → ∃ t, exec (.swatchVerdict r false) s = .next t ∧ t.swatch.running = [] ∧
           t.swatch.signature ≠ ref ∧ t.swatch.differed = q.differed ++ [r] ∧ recordMade 0x903 1 s t ∧ changesOnly (.swatch :: recordParts) s t) ∧
         (r ∈ q.differed → s.fld .HUB_CFG_SWATCH_CNT_COUNT 1 < 65535 →
           ∃ t, exec (.swatchVerdict r false) s = .next t ∧ t.swatch.running = [] ∧
             t.fld .HUB_CFG_SWATCH_CNT_COUNT 1 = s.fld .HUB_CFG_SWATCH_CNT_COUNT 1 + 1 ∧ recordAmong 0x901 2 s t)) ∧
       (x.returned = false →
         (s.sliceTime r < x.due → x.guard ≤ s.sliceNow r → ∃ t, exec (.swatchAbort r) s = .next t ∧
           t.swatch = { q with running := [] } ∧ recordMade 0x902 0 s t ∧
           changesOnly (.swatch :: .regs :: recordParts) s t) ∧
         (x.due ≤ s.sliceTime r → r ∉ q.aborted → ∃ t, exec (.swatchAbort r) s = .next t ∧
           t.swatch = { q with running := [], aborted := q.aborted ++ [r] } ∧ recordMade 0x902 1 s t) ∧
         (x.due ≤ s.sliceTime r → r ∈ q.aborted → ∃ t, exec (.swatchAbort r) s = .next t ∧ t.swatch.running = [] ∧
           recordAmong 0x901 2 s t)))) ∧
  ((∀ (n : Nat) (s : State), s.inDrive = true → s.targetUp n = true → n ∉ s.swatch.late →
     s.lastCover n + 30000000000 ≤ s.now → s.fld .HUB_CFG_SWATCH_CNT_COUNT 3 < 65535 →
     ∃ t, exec (.swatchCoverageLate n) s = .next t ∧ t.swatch = { s.swatch with late := s.swatch.late ++ [n] } ∧
       t.fld .HUB_CFG_SWATCH_CNT_COUNT 3 = s.fld .HUB_CFG_SWATCH_CNT_COUNT 3 + 1 ∧ recordMade 0x904 1 s t ∧
       changesOnly ([.swatch, .regs] ++ recordParts) s t) ∧
   (∀ s : State, (s.passComplete = false → exec .swatchPassDone s = .next s) ∧
     (s.swatch.fullPass = true → s.swatch.running = [] → (∀ n ∈ s.swatch.toCover, s.targetUp n = false) →
       ∀ p l, s.transition = .dayOpen 2 p l →
       ∃ t, exec .swatchPassDone s = .next t ∧ t.transition = .dayOpen 3 p l ∧
         t.swatch = { s.swatch with fullPass := false, toCover := [] } ∧ recordMade 0x906 0 s t ∧
         changesOnly ([.swatch, .transition] ++ recordParts) s t)) ∧
   (∀ (row : Fin 16) (n : Nat) (s : State), row ≠ 0 →
     s.injectLate row n = true →
     s.fld .HUB_CFG_INJECT_STATUS_FAILED < 255 →
     ∃ t, exec (.injectReportTimeout row n) s = .next t ∧
       t.fld .HUB_CFG_INJECT_STATUS_LAST_CHECKER = row.val * 256 + n % 256 ∧
       t.fld .HUB_CFG_INJECT_STATUS_FAILED = s.fld .HUB_CFG_INJECT_STATUS_FAILED + 1 ∧ recordAmong 0x910 2 s t) ∧
   (∀ (r : SliceRef) (e : Nat) (s : State), s.swatch.injecting.isSome → ∃ t, exec (.swatchSliceStart r e) s = .next t ∧
     t.swatch.injecting = none ∧ t.swatch.fullPass = true ∧ t.fld .HUB_CFG_INJECT_STATUS_DONE = 1))

/-- Of R405, R407 to R417: power. Each 250 µs the budget B, at most the mode cap and PWR_PKG_LIMIT, goes to the eight
dies under the next sequence number; replies are taken by that number; a die takes its message, or keeps what it holds
where none comes, and one marked OFF switches off; shed actions are undone the last one first; a raise of the beat
step is decided once the voltage stands; the readings of regulators and the rail limit are kept; an IVR fault switches
its domain off, and without the hub fabric's domain no period begins. -/
def Obligations.PowerIsBudgeted : Prop :=
  (∀ s : State, s.boot.hub = true →
    (s.domainOn 37 = false → exec .budgetTick s = .next s) ∧
    (s.domainOn 37 = true → ∃ t, exec .budgetTick s = .next t ∧ t.power.seq = (s.power.seq + 1) % 256 ∧ t.power.messages.length = 8 ∧
      t.power.budget ≤ s.modeCap ∧ t.power.budget ≤ s.fld .PWR_PKG_LIMIT_LIMIT * 10) ∧
    (∀ (d : Fin 8) n a b c h f, s.answers d = true → s.power.replies.length = 8 →
      (n % 256 = s.power.seq → ∃ t, exec (.budgetReply d n a b c h f) s = .next t ∧
        t.replyOf d = ⟨a % 65536, b % 65536, c % 65536, h, f % 256, 0, 0, true, false⟩ ∧
        (∀ e, e ≠ d.val → t.replyOf e = s.replyOf e) ∧ changesOnly [.power] s t) ∧
      (n % 256 ≠ s.power.seq → ∃ t, exec (.budgetReply d n a b c h f) s = .next t ∧
        t.replyOf d = { s.replyOf d with bad := true } ∧ changesOnly [.power] s t)) ∧
    (∀ (d : Fin 8) m, s.power.messages[d.val]? = some m → s.answers d = true → s.power.taken.length = 8 →
      s.power.volts.length = 6 → ∃ t, exec (.budgetMessage d) s = .next t ∧ t.power.taken[d.val]? = some (some m) ∧
        (d.val < 6 → bit m.flags 2 = true → s.fabric.dieOn.length = 6 → t.fabric.dieOn.getD d true = false) ∧
        (d.val < 6 → bit m.flags 2 = false → bit m.flags 1 = false →
          t.power.volts.getD d 0 = stepVolts (max s.fabric.step s.stepGoal)) ∧
        (d.val < 6 → bit m.flags 2 = false → t.power.volts.getD d 0 ≤ max 450 (stepVolts (max s.fabric.step s.stepGoal)) ∧
          min 450 (stepVolts (max s.fabric.step s.stepGoal)) ≤ t.power.volts.getD d 0)) ∧
    (∃ t, exec .pwrRailLimit s = .next t ∧ t.power.rail = some (divEven (s.measured * 95 : Nat) 100).toNat ∧ recordMade 0xA23 1 s t ∧
      (1 < s.stepFloor → s.stepFloor ≤ s.stepGoal → ∃ b, t.fabric.pendingStep = some (s.stepFloor - 1, b))) ∧
    (∀ r, r.answered = true → (s.regulatorRail r.entry).isSome = true → s.power.answeredAt.length = 8 →
      ∃ t, exec (.pmbusTelemetryRead [r]) s = .next t ∧ r ∈ t.power.readings ∧
        t.power.answeredAt.getD r.entry none = some s.now ∧
        (∀ x ∈ s.power.readings, x.entry ≠ r.entry → x ∈ t.power.readings) ∧ changesOnly [.power] s t)) ∧
  (∀ (d : Fin 8) (s : State), exec (.budgetMessageTimeout d) s = .next s) ∧
  (∀ (s : State) (x : Shed) (l : List Shed), s.power.sheds = x :: l → s.undoDue = true → s.undoWaits x = false →
    s.stepGoal = s.stepFloor →
    ∃ t, exec .shedUndo s = .next t ∧ t.power.sheds = l ∧ recordMade 0xA21 0 s t ∧
      (∀ v, x = .cluster v → t.power.clusterLow = false) ∧ (∀ n v, x = .step n v → t.power.ramp = some n) ∧
      (∀ k v, x = .stall k v → (t.stallOf k).powerShed = false) ∧
      (∀ f k v p, x = .program f k v → s.program f k = some p → t.program f k = some { p with powerShed := false })) ∧
  (∀ (s : State) (n : Nat), s.power.ramp = some n → ∃ t, exec .voltageRampDone s = .next t ∧ t.power.ramp = none ∧
    t.power.volts = List.replicate 6 (stepVolts n) ∧
    t.fabric.pendingStep = some (n, (s.fabric.beat / 4096 + 1) * 4096) ∧ changesOnly [.fabric, .power] s t) ∧
  (∀ (d : Fin 44) (s : State), d.val ≠ 38 →
    (d.val < 30 → s.fabric.dieOn.length = 6 → ∃ t, exec (.ivrFault d) s = .next t ∧
      t.fabric.dieOn.getD (d / 5) true = false ∧ d.val / 5 ∈ t.power.absent ∧
      recordAmong 0xA24 (if s.inDrive then 3 else 2) s t) ∧
    (30 ≤ d.val → (d.val < 39 ∨ d.val = 43) → ∃ t, exec (.ivrFault d) s = .next t ∧ t.domainOn d = false ∧
      recordAmong 0xA24 (if s.inDrive then 3 else 2) s t) ∧
    (d.val = 39 ∨ d.val = 40 → ∃ t, exec (.ivrFault d) s = .next t ∧ (t.island 0).alive = false ∧
      (t.island 0).supplyOk = false) ∧
    (d.val = 41 ∨ d.val = 42 → ∃ t, exec (.ivrFault d) s = .next t ∧ (t.island 1).alive = false ∧
      (t.island 1).supplyOk = false))

/-- Of R419 to R427: temperature and coolant. A hot spot at 120 °C trips, and the trip ends once all is cool and B
covers the Drive demand; a pair apart for more than 10 ms is suspect, one together for 100 ms is not, one suspect for
more than 1 s keeps its guard band; a flow below 0.3 L/min is a stop, which shuts the dies down after 2 s and ends
after 10 s of flow; a lost input and a forecast below demand degrade cooling. -/
def Obligations.HeatAndCoolantAreWatched : Prop :=
  ∀ s : State, let h := s.thermal
    (∀ (l : List Int) (p : Nat), s.boot.hub = true → p < 60 → h.excluded = [] → 1920 ≤ l.getD (2 * p) 0 → h.trip = false →
      ∃ t, exec (.diodeRead l) s = .next t ∧ t.thermal.trip = true ∧
        t.thermal.readings = (List.range 120).map (fun k => l.getD k 0) ∧
        recordAmong 0xA32 (if s.inDrive then 3 else 2) s t) ∧
    (∀ c, h.trip = true → h.coolSince = some c → c + 10000000000 ≤ s.now → s.covers400 = true →
      ∃ t, exec .thermTripClear s = .next t ∧ t.thermal = { h with trip := false }) ∧
    (∀ p : Fin 60, h.pairs.length = 60 → let x := h.pair p
      (∀ a, x.suspect = none → x.apart = some a → a + 10000001 ≤ s.now → ∃ t, exec (.thermPairSuspect p) s = .next t ∧
        t.thermal.pair p = { x with suspect := some s.now } ∧ recordMade 0xA30 0 s t ∧
        changesOnly (.thermal :: recordParts) s t) ∧
      (∀ a, x.suspect.isSome = true → x.held = false → x.together = some a → a + 100000000 ≤ s.now →
        ∃ t, exec (.thermPairClear p) s = .next t ∧ t.thermal.pair p = { x with suspect := none } ∧
          changesOnly [.thermal] s t) ∧
      (∀ a, x.held = false → x.suspect = some a → a + 1000000001 ≤ s.now → ∃ t, exec (.thermSensorFault p) s = .next t ∧
        t.thermal.pair p = { x with held := true } ∧
        t.swatch.booked = s.swatch.booked ++ [⟨.thermal, 320 + 2 * p.val, 0⟩, ⟨.thermal, 321 + 2 * p.val, 0⟩] ∧
        recordMade 0xA31 1 s t ∧ changesOnly ([.thermal, .swatch] ++ recordParts) s t)) ∧
    (s.boot.hub = true → h.sent.length = 3 → ∀ (k : Fin 3) (raw : Nat),
      (0 < raw → raw < 4089 → ∃ t, exec (.sentFrameRx k raw true) s = .next t ∧
        t.thermal.sent[k.val]? = some ⟨some raw, s.now, false⟩ ∧
        (∀ v : Int, k = 2 → s.sentScaled 2 1000 raw = some v → 0 ≤ v → v < 300 →
          t.thermal.stop = true ∧ t.thermal.returned = false)) ∧
      (exec (.sentFrameRx k raw false) s = .next s) ∧
      ((h.input k).lost = false → (h.input k).last + 10000000 ≤ s.now → ∃ t, exec (.sentInputLost k) s = .next t ∧
        (t.thermal.input k).lost = true ∧ t.thermal.degraded = true ∧ recordAmong 0xA14 2 s t)) ∧
    (h.stop = true → h.returned = false →
      (h.shutdown = false → h.noFlow + 2000000000 ≤ s.now → s.fabric.dieOn.length = 6 → s.degrade.req.length = 11 →
        ∃ t, exec .coolantStopShutdown s = .next t ∧ t.thermal.shutdown = true ∧
          (∀ d, d < 6 → t.fabric.dieOn.getD d true = false) ∧ (∀ d ∈ [31, 32, 33, 37], t.domainOn d = false) ∧
          (s.inDrive = true → t.degrade.req.getD 3 0 = 4)) ∧
      (∀ f, s.boot.hub = true → h.flowSince = some f → f + 10000000000 ≤ s.now → ∃ t, exec .coolantFlowReturned s = .next t ∧
        t.thermal.returned = true ∧ t.fld .PWR_STATUS_FLOW_STOP = 0 ∧ recordAmong 0xA15 0 s t)) ∧
    (s.boot.hub = true →
      (h.degraded = false → ∃ t, exec .coolingProjection s = .next t ∧
        (t.thermal.degraded = true ↔ s.forecast 10000 < s.demand) ∧
        (s.forecast 10000 < s.demand → recordMade 0xA11 1 s t) ∧ changesOnly (.thermal :: recordParts) s t) ∧
      (∀ a, h.degraded = true → h.projSince = some a → a + 10000000000 ≤ s.now → s.power.sheds = [] →
        ∃ t, exec .coolingProjection s = .next t ∧
          (t.thermal.degraded = false ↔ s.demand * 11 ≤ s.forecast 10000 * 10)))

/-- Of R430 to R433, R482: in Park with PARK_ACK asserted, an enabled edge, PCIE_WAKE_N pulled low by another agent
and the alarm wake: the cause is recorded, PARK_ACK released, and the boot to the mode of PWR_WAKE_TARGET begins; a
device that wakes by its own pins drives PCIE_WAKE_N low. THERM_IN and the VAON monitor are recorded and wake nothing;
the VAON monitor resets the always-on domain, whose time base starts at 0. In Night Market an edge starts Day-open.
R434 to R436: each minute the ledger takes the highest consumed life over all monitors (a ring oscillator's loss over
5 %, a count over its end-of-life count), which never falls, and the minute of its mode; each hour a signed record,
with the elapsed life up to now, goes to the next slot of the ledger, and one that cannot be written is logged. -/
def Obligations.WakesAndWear : Prop :=
  (∀ s : State,
     (∀ (p : Fin 4) (rising : Bool), bit (s.fld .PWR_WAKE_CFG_ENABLE) p = true →
       bit (s.fld .PWR_WAKE_CFG_POLARITY) p = !rising →
       (s.mode = .park → s.wake.ack = true → s.transition = .none → ∃ t, exec (.wakeInEdge p rising) s = .next t ∧
         t.transition = .boot (bit (s.fld .PWR_WAKE_TARGET_PIN_NM) p) ∧ t.wake.ack = false ∧
         t.wake.wakeN = some (s.now + 1000000000) ∧ bit (t.fld .PWR_WAKE_CAUSE_PIN) p = true ∧ t.since = s.now ∧
         recordMade 0xA41 0 s t ∧ t.mode = .park) ∧
       (s.mode = .nightMarket → s.transition = .none → ∃ t, exec (.wakeInEdge p rising) s = .next t ∧
         t.transition = .dayOpen 0 false false ∧ t.mode = .nightMarket)) ∧
     (s.mode = .park → s.wake.ack = true → s.transition = .none →
       (s.wake.wakeN = none → ∃ t, exec .pcieWakeIn s = .next t ∧
         t.transition = .boot (s.fld .PWR_WAKE_TARGET_PCIE_NM == 1) ∧ t.wake.ack = false ∧ t.wake.wakeN = none ∧
         t.fld .PWR_WAKE_CAUSE_PCIE = 1 ∧ recordMade 0xA41 0 s t) ∧
       (let a := s.fld .PWR_WAKE_CFG_ALARM * 256
        0 < a → a ≤ s.now → s.since ≤ a → ∃ t, exec .wakeAlarm s = .next t ∧
         t.transition = .boot (s.fld .PWR_WAKE_TARGET_ALARM_NM == 1) ∧ t.wake.ack = false ∧
         t.fld .PWR_WAKE_CAUSE_ALARM = 1 ∧ recordMade 0xA41 0 s t)) ∧
     (s.mode = .park → s.wake.ack = true →
       (∃ t, exec .thermInTrip s = .next t ∧ t.fld .PWR_WAKE_CAUSE_THERM = 1 ∧ t.wake.ack = true ∧
         t.wake.wakeN = some (s.now + 1000000000) ∧ fieldsOnly [(.PWR_WAKE_CAUSE_THERM, 0, 0)] s t ∧
         changesOnly [.regs, .wake] s t) ∧
       (∃ t, exec .vaonMonitorTrip s = .next t ∧ t.fld .PWR_WAKE_CAUSE_VAON = 1 ∧ t.fld .PWR_WAKE_CAUSE_THERM = 0 ∧
         t.fld .PWR_WAKE_CFG_ENABLE = 0 ∧ t.now = 0 ∧ t.timeBase = TimeBase.zero ∧ t.wake.ack = true ∧
         t.wake.wakeN = some 1000000000 ∧ changesOnly [.now, .regs, .sensing, .macTx, .timeBase, .wake, .wear] s t)) ∧
     (∀ a, s.wake.wakeN = some a → a ≤ s.now →
       exec .pcieWakeNRelease s = .next { s with wake := { s.wake with wakeN := none, untilLink := false } })) ∧
  ((∀ (l : List WearReading) (s : State), s.boot.hub = true → ∃ t, exec (.wearLedgerMinute l) s = .next t ∧
     s.wear.consumed ≤ t.wear.consumed ∧ (∀ m ∈ l, (lifeOf m).2 ≤ t.wear.consumed) ∧
     (s.timeBase.state ≠ 2 → (∀ m ∈ l, (lifeOf m).2 ≤ s.wear.consumed) → t.wear.consumed = s.wear.consumed) ∧
     t.wear.driveS = s.wear.driveS + (if s.mode = .drive then 60 else 0) ∧
     t.wear.nightS = s.wear.nightS + (if s.mode = .nightMarket then 60 else 0) ∧
     t.fld .PWR_WEAR_STATUS_CONSUMED = min t.wear.consumed 1048575 ∧
     t.fld .PWR_WEAR_STATUS_END_OF_LIFE = (if 1000000 ≤ t.wear.consumed then 1 else 0) ∧
     changesOnly ([.regs, .wear] ++ recordParts) s t) ∧
   (∀ s : State, (s.mode = .drive ∨ s.mode = .nightMarket) →
     (∃ t, exec (.wearRecordHourly false) s = .next t ∧ recordMade 0xA52 1 s t ∧ changesOnly recordParts s t) ∧
     (∀ seed, s.boot.seed = some seed → s.fld .SEC_BOOT_STATUS_IDENTITY_OK = 1 → let n := s.wear.sequence + 1
       let w := s.countLife.wear
       let r := w.body false n ++ Config.falconSign seed (w.body false n)
       ∃ t, exec (.wearRecordHourly true) s = .next t ∧ t.wear = { w with sequence := n, recorded := w.upTo } ∧
         w = { s.wear with elapsed := w.elapsed, upTo := w.upTo, consumed := w.consumed, covered := w.covered } ∧
         t.flashRead (wearSlot n) r.length = r ∧
         (∀ x, x < wearSlot n ∨ (wearSlot n + 2048 ≤ x ∧ wearSlot n + r.length ≤ x) → t.flashRead x 1 = s.flashRead x 1) ∧
         changesOnly [.flash, .wear] s t)))

/-- Of R354, R404, R440 to R448, R454, R459, R504 to R512: resets, rails and the boot. WHA_RST_N released boots from
the flash: a root key or a factory part that is not valid stops with BOOT_ROOT_BAD's record, a configuration record
counts if it is valid; WHB starts again from one that runs; the always-on reset puts the time base back to 0; PERST_N
takes the link down; a rail that is lost takes what it supplies with it; WHA's closes scan and debug (R404); the debug
window closes for good, and a boot goes on to its main-path start and to Drive. -/
def Obligations.ResetsAndBoot : Prop :=
  ∀ s : State,
    ((s.island 0).supplyOk = true → s.boot.released.length = 3 → ∃ t, exec .whaResetRelease s = .next t ∧
      t.boot.released.getD 0 false = true ∧ t.mode = .park ∧
      (let root := s.rootKey
       let f := s.flashRead 0x10000 14448
       let c := s.flashRead 0x80000 5376
       if fieldAt f 0 4 ≠ 0x43455244 ∨ rootOk root = false ∨ factoryOk root f = false then
        t.boot.stopped = true ∧ t.fld .SEC_BOOT_STATUS_LAST_CODE = 0xB02 ∧ t.transition = .none
       else t.boot.factory = f ∧ t.boot.config = if confOk root f c then c else [])) ∧
    ((s.island 1).supplyOk = true → ((s.island 0).alive = true ∨ (s.boot.hub = true ∧ s.islandLink 1 = true ∧ s.domainOn 37 = true)) →
      s.boot.released.length = 3 →
      ∃ t, exec .whbResetRelease s = .next t ∧ (t.island 1).alive = true ∧ t.boot.released.getD 1 false = true) ∧
    (∃ t, exec .aonReset s = .next t ∧ t.now = 0 ∧ t.timeBase = TimeBase.zero ∧ t.wake = Wake.zero ∧
      (∀ f ∈ aonFields, t.fld f = f.resetAt 0 0) ∧ t.domainOn 38 = true ∧
      fieldsOnly ((.PWR_DOMAINS_ON, 0, 0) :: aonFields.map fun f => (f, 0, 0)) s t ∧
      (s.boot.hub = true → s.inDrive = true → recordMade 0x342 1 s t)) ∧
    (s.boot.released.length = 3 → (∃ t, exec .perstAssert s = .next t ∧ t.host.linkUp = false ∧
        t.boot.released.getD 2 true = false ∧ changesOnly ([.host, .boot] ++ recordParts) s t) ∧
      (∃ t, exec .perstRelease s = .next t ∧ t.boot = { s.boot with released := setAt s.boot.released 2 true } ∧
        changesOnly [.boot] s t)) ∧
    (∃ t, exec (.railLoss .vaon) s = .next t ∧ t.now = 0 ∧ t.timeBase = TimeBase.zero) ∧
    (s.wake.ack = false → (∃ t, exec (.railLoss .vinWha) s = .next t ∧ (t.island 0).supplyOk = false ∧
        (t.island 0).alive = false ∧ t.boot.whaCycled = true ∧ t.fld .SEC_SCAN_STATUS_CLEARED ≠ 1 ∧
        changesOnly (recordParts ++ [.regs, .flash, .boot]) s t) ∧
      (∃ t, exec (.railLoss .vinWhb) s = .next t ∧ (t.island 1).supplyOk = false ∧ (t.island 1).alive = false ∧
        changesOnly recordParts s t)) ∧
    (∀ r ∈ [Rail.vinCore, .vinHbm, .vinIo], s.boot.rails.length = 4 → ∃ t, exec (.railLoss r) s = .next t ∧
      t.boot.rails.getD (hubRail r) true = false ∧
      (s.boot.hub = true → t.boot.hub = false ∧ t.fabric = Fabric.zero ∧ t.mem = [] ∧ t.mode = s.mode ∧ t.now = s.now ∧
        t.wake = s.wake)) ∧
    (s.boot.stage = 2 → s.since + 1000000000 ≤ s.now → ∃ t, exec .pwrSeqFail s = .next t ∧ t.boot.stopped = true ∧
      t.transition = .none ∧ t.fld .SEC_BOOT_STATUS_LAST_CODE = 0xA60 ∧ recordMade 0xA60 2 s t) ∧
    (∀ e, s.boot.stage = 3 → s.boot.evfin = some e → e + s.debugWindow ≤ s.now →
      (s.transition = .none → ∃ t, exec .debugWindowClose s = .next t ∧ t.boot = { s.boot with stage := 0 } ∧
        t.fld .SEC_DEBUG_CTRL_WINDOW = 0 ∧ (∀ w, w < 2048 → t.fld .SEC_DEBUG_MAILBOX_WORD w = 0) ∧
        (∀ k, k < 4 → t.fld .SEC_DEBUG_CHALLENGE_CHALLENGE k = 0) ∧ changesOnly [.regs, .boot] s t) ∧
      (s.transition = .boot false → ∃ t, exec .debugWindowClose s = .next t ∧ t.boot.stage = 4 ∧
        t.swatch.injecting = some s.now ∧ t.swatch.fullPass = false ∧ t.transition = .boot false ∧ t.fld .SEC_DEBUG_CTRL_WINDOW = 0)) ∧
    (∀ b, s.transition = .boot b → s.boot.stage = 4 → s.swatch.fullPass = false →
      s.fld .HUB_CFG_INJECT_STATUS_DONE = 1 → s.boot.config ≠ [] → s.pilotsReady = true → s.deferred = [] →
      ∃ t, exec .driveReady s = .next t ∧ t.mode = .drive ∧ t.transition = .none ∧ t.since = s.now ∧ t.boot.stage = 0)

/-- Of R455, R456: images and records from the host. A recovery image goes to hub SRAM (from its first address on, log
119). What verifies is written and shown as in progress, what does not keeps the flash as it is and shows its code; a
write that is not open is refused with XFER_REFUSED; a write that is done has put its bytes in their partition, and no
other byte of the flash has changed. R402 to R404, R453, R457 to R460: attestation and debug. A quote is begun where
the device has an identity and the host gave the space, and ends as 160 bytes of what was asked for then, with their
signature, in host memory; a token that verifies starts the clearing of secrets, one that does not is logged, and its
scope opens nothing; clearing destroys the identity secret and every stall key and ends in Service, or stays where a
read-back is not zero; an access to the scan chains works only within the scope of a token once CLEARED is 1. -/
def Obligations.FlashAndSecrets : Prop :=
  (∀ s : State, let b := s.xferBytes
     (s.boot.stage = 1 → s.host.linkUp = true → ∃ t, exec .recoverImage s = .next t ∧ match s.offered b with
       | some code => t.fld .SEC_XFER_STATUS_CODE = code ∧ t.fld .SEC_XFER_STATUS_STATE = 1 ∧ changesOnly [.regs, .mem] s t ∧
           t.devRead hubBase (b.take 0x04000000).length = b.take 0x04000000 ∧ memOnly hubBase 0x04000000 s t
       | none => t.fld .SEC_BOOT_STATUS_RECOVERED = 1 ∧ t.boot.writing = some (0x100000, b) ∧ recordAmong 0xB08 1 s t) ∧
     (s.writeOpen false = true → ∃ t, exec .writeImage s = .next t ∧ match s.offered b with
       | some _ => t.fld .SEC_XFER_STATUS_STATE = 4 ∧ t.boot = s.boot ∧ changesOnly (.regs :: recordParts) s t
       | none => t.fld .SEC_XFER_STATUS_STATE = 2 ∧ t.boot = { s.boot with writing := some (0x100000, b) } ∧
           changesOnly [.regs, .boot] s t) ∧
     (s.writeOpen true = true → let c := b.take 5376
       let good := decide (c.length = 5376) && confOk s.rootKey s.boot.factory c &&
         decide (fieldAt c 12 4 ≤ s.fld .SEC_VERSION_SECURITY_VERSION)
       ∃ t, exec .writeConfig s = .next t ∧ if good then
           t.fld .SEC_XFER_STATUS_STATE = 2 ∧ t.boot = { s.boot with writing := some (0x80000, c) } ∧
           changesOnly [.regs, .boot] s t
         else t.fld .SEC_XFER_STATUS_STATE = 4 ∧ t.boot = s.boot ∧ changesOnly (.regs :: recordParts) s t) ∧
     (s.writeOpen false = false → ∃ t, exec .writeImage s = .next t ∧ t.fld .HUB_CFG_CFG_ERROR_CODE = 0xB10 ∧
       t.boot = s.boot ∧ changesOnly (.regs :: recordParts) s t) ∧
     (s.writeOpen true = false → ∃ t, exec .writeConfig s = .next t ∧ t.fld .HUB_CFG_CFG_ERROR_CODE = 0xB10 ∧
       t.boot = s.boot ∧ changesOnly (.regs :: recordParts) s t) ∧
     (∀ a l, s.boot.writing = some (a, l) → l.length ≤ partitionSize a →
       (∃ t, exec (.flashWriteDone true) s = .next t ∧ t.flashRead a l.length = l ∧
         (∀ x, x < a ∨ a + partitionSize a ≤ x → t.flashRead x 1 = s.flashRead x 1) ∧
         t.fld .SEC_XFER_STATUS_STATE = 3 ∧ t.boot = { s.boot with writing := none } ∧
         changesOnly [.regs, .flash, .boot] s t) ∧
       (∃ t, exec (.flashWriteDone false) s = .next t ∧
         (∀ x, x < a ∨ a + partitionSize a ≤ x → t.flashRead x 1 = s.flashRead x 1) ∧
         t.fld .SEC_XFER_STATUS_STATE = 4 ∧ t.fld .SEC_XFER_STATUS_CODE = 0xB09 ∧ recordMade 0xB09 2 s t ∧
         changesOnly ([.regs, .flash, .boot] ++ recordParts) s t))) ∧
  (∀ s : State,
     (s.boot.hub = true → s.boot.quoting = none →
       (s.fld .SEC_BOOT_STATUS_IDENTITY_OK = 0 → ∃ t, exec .quoteGo s = .next t ∧ recordMade 0xB06 2 s t ∧
         changesOnly recordParts s t) ∧
       (s.fld .SEC_BOOT_STATUS_IDENTITY_OK = 1 → s.boot.seed.isSome = true →
         (s.fld .SEC_QUOTE_CTRL_SPACE * 1024 < s.quoteEnd → ∃ t, exec .quoteGo s = .next t ∧ recordMade 0xB31 0 s t ∧
           changesOnly recordParts s t) ∧
         (s.quoteEnd ≤ s.fld .SEC_QUOTE_CTRL_SPACE * 1024 → ∃ t, exec .quoteGo s = .next t ∧
           t.boot = { s.boot with quoting := some s.quoteAsked } ∧ changesOnly [.boot] s t))) ∧
     (∀ x seed, s.boot.quoting = some x → s.boot.seed = some seed →
       let q := s.quoteBody x s.arbSeq
       let m := q ++ Config.falconSign seed q
       ∃ t, exec .quoteDone s = .next t ∧
         (x.devrec = false → x.withLog = false → t.hostRead x.dest m.length = m) ∧
         (x.devrec = true → x.withLog = false → t.hostRead (x.dest + 0x1000) s.boot.factory.length = s.boot.factory) ∧
         (x.withLog = true → t.hostRead (x.dest + 0x5000) (x.log.stored.flatMap id).length = x.log.stored.flatMap id) ∧
         t.boot.quoting = none ∧ recordMade 0xB30 0 s t ∧ changesOnly ([.hostMem, .boot] ++ recordParts) s t) ∧
     (s.fld .SEC_DEBUG_CTRL_WINDOW = 1 → s.transition ≠ .clearing → ∃ t, exec .submit s = .next t ∧
       (if s.tokenOk s.token then t.transition = .clearing ∧ t.boot.scope = fieldAt s.token 4 4 ∧ recordMade 0xB21 0 s t
        else t.transition = s.transition ∧ t.boot = s.boot ∧ recordAmong 0xB20 1 s t)) ∧
     (s.transition = .clearing → s.deferred = [] →
       (∃ t, exec (.scanCleared true) s = .next t ∧ t.mode = .service ∧ t.transition = .none ∧ t.boot.seed = none ∧
         t.boot.puf = false ∧ (∀ k, (t.stallOf k).key = none) ∧ t.boot.quoting = none ∧ t.boot.stores = 0 ∧
         t.fld .SEC_SCAN_STATUS_CLEARED = 1 ∧ t.fld .SEC_SCAN_STATUS_SERVICE = 1 ∧ recordMade 0x920 0 s t) ∧
       (∃ t, exec (.scanCleared false) s = .next t ∧ t.mode = s.mode ∧ t.transition = .none ∧ t.boot.seed = none ∧
         t.boot.stores ≠ 0 ∧ t.fld .SEC_SCAN_STATUS_CLEARED = s.fld .SEC_SCAN_STATUS_CLEARED ∧ recordMade 0x921 2 s t)) ∧
     (∀ x ∈ [(Instr.bypass, 1), (.idcode, 2), (.samplePreload, 3)],
       exec x.1 s = .next { s with boot := { s.boot with jtag := x.2 } }) ∧
     (∀ x ∈ [(Instr.debugAccess, 0, 6), (.internalScan, 1, 5), (.extest, 2, 4)],
       (s.fld .SEC_SCAN_STATUS_CLEARED = 1 → bit s.boot.scope x.2.1 = true →
         exec x.1 s = .next { s with boot := { s.boot with jtag := x.2.2 } }) ∧
       (s.fld .SEC_SCAN_STATUS_CLEARED = 0 ∨ bit s.boot.scope x.2.1 = false → exec x.1 s = .next s)))

/-- Of R464, R465, R467: an open with QUARTERS 0 or overlapping, with no region, a region that is not free HBM, no
RATE, or outside Night Market is refused with NM_STALL_BAD; more than 200 W with NM_POWER_OVERCOMMIT; WEAR_AHEAD or no
identity with NM_ADMIT_REFUSED; a failed admission with MEM_OVERCOMMIT; a refusal leaves ENABLE and every stall as
they are. An accepted open makes the stall OPENING with a fresh key; then its region is zero, its log holds one event,
its counters are 0 and it is OPEN. R466, R478: closing. A stall that is OPEN drains within DRAIN_GRACE, keeps what it
owns, whatever its registers then hold, and none of its STARTs goes on after its current iteration; with no program
started it is CLOSING, and once the grace is over its programs are killed and it is CLOSING too. At the end its rings
are STOPPED, its slots empty, its markers 0, its key gone, its region zero and the stall CLOSED, with NM_STALL_CLOSED
logged. -/
def Obligations.StallsOpenAndClose : Prop :=
  (∀ (k : Fin 32) (s : State), k ≠ 0 →
     let refused := fun (code : Nat) => ∃ t, exec (.stallOpen k) s = .next t ∧ t.fld .HUB_CFG_CFG_ERROR_CODE = code ∧
       t.fld .HUB_CFG_STALL_CFG_ENABLE k = s.fld .HUB_CFG_STALL_CFG_ENABLE k ∧ t.stalls = s.stalls ∧ recordMade code 0 s t ∧
       changesOnly (.regs :: recordParts) s t
     let q := s.stallQuarters k
     ((s.mode ≠ .nightMarket ∨ s.transition ≠ .none ∨ q = 0 ∨
         (∃ j : Fin 32, j ≠ 0 ∧ j ≠ k ∧ s.stall j ≠ .closed ∧ s.stallQuarters j &&& q ≠ 0) ∨
         s.stallSize k = 0 ∨ hbmSize < s.stallBase k + s.stallSize k ∨
         touch (s.stallBase k) (s.stallSize k) (s.fld .MEM_SPARE_CFG_BASE * 2 ^ 30) (s.fld .MEM_SPARE_CFG_SLOTS * 2 ^ 30) = true ∨
         touch (s.stallBase k) (s.stallSize k) (s.fld .HUB_CFG_RETAIN_BASE_BASE * 4096)
           (s.fld .HUB_CFG_RETAIN_SIZE_MIB * 2 ^ 20) = true ∨
         (∃ j : Fin 32, j ≠ 0 ∧ s.stall j ≠ .closed ∧
           touch (s.stallBase k) (s.stallSize k) (s.stallBase j) (s.stallSize j) = true) ∨
         s.fld .MEM_STALL_RATE_RATE k = 0) → refused 0xC02) ∧
     (s.stallBad k = false →
       (200 < s.fld .HUB_CFG_STALL_REGION_POWER_W k + s.declaredPower → refused 0xC03) ∧
       (s.fld .HUB_CFG_STALL_REGION_POWER_W k + s.declaredPower ≤ 200 →
         (s.fld .PWR_WEAR_STATUS_WEAR_AHEAD = 1 ∨ s.fld .SEC_BOOT_STATUS_IDENTITY_OK = 0 → refused 0xC01) ∧
         (s.fld .PWR_WEAR_STATUS_WEAR_AHEAD = 0 → s.fld .SEC_BOOT_STATUS_IDENTITY_OK = 1 →
           (s.admits = false → refused 0x501) ∧
           (s.admits = true → ∃ t key, exec (.stallOpen k) s = .next t ∧ t.fld .HUB_CFG_STALL_CFG_ENABLE k = 1 ∧
             t.stallOf k = { Stall.zero with phase := .opening, key := some key } ∧
             (∀ j, j ≠ k.val → t.stallOf j = s.stallOf j) ∧ fieldsOnly [(.HUB_CFG_STALL_CFG_ENABLE, k, 0)] s t ∧
             changesOnly [.regs, .stalls, .freeCount] s t)))) ∧
     (s.stall k = .opening → ∃ t, exec (.stallOpenDone k) s = .next t ∧ t.stall k = .open_ ∧ (t.stallOf k).log.count = 1 ∧
       (∀ x, s.stallBase k ≤ x → x < s.stallBase k + s.stallSize k → t.devRead x 1 = [0]) ∧
       memOnly (s.stallBase k) (s.stallSize k) s t ∧ (∀ j, j < 4 → t.fld .HUB_CFG_STALL_CNT_COUNT k j = 0) ∧
       t.fld .HUB_CFG_STALL_STATUS_LAST_CODE k = 0xC20 ∧ recordMade 0xC20 0 s t ∧
       fieldsOnly [(.HUB_CFG_STALL_CNT_COUNT, k, 0), (.HUB_CFG_STALL_CNT_COUNT, k, 1), (.HUB_CFG_STALL_CNT_COUNT, k, 2),
         (.HUB_CFG_STALL_CNT_COUNT, k, 3), (.HUB_CFG_STALL_STATUS_LAST_CODE, k, 0)] s t ∧
       changesOnly ([.regs, .mem, .memSys, .stalls] ++ recordParts) s t)) ∧
  (∀ (k : Fin 32) (s : State), k ≠ 0 →
     (s.stall k = .open_ → ∃ t, exec (.stallClose k) s = .next t ∧ t.stall k = .draining ∧
       t.fld .HUB_CFG_STALL_CFG_ENABLE k = 0 ∧ (t.stallOf k).draining = true ∧ (t.stallOf k).held = some (s.areaOf k) ∧
       (t.stallOf k).drainBy = some (s.now + s.fld .HUB_CFG_NM_CFG_DRAIN_GRACE * 1000000) ∧
       (∀ (i : Fin 16) r, t.runningOf k i = some r → r.next = none ∧ r.stopped = true ∧ r.final = some (0xC23, 0))) ∧
     (s.stall k = .draining →
       (s.drained k = true → ∃ t, exec (.stallDrained k) s = .next t ∧
         t.stallOf k = { s.stallOf k with phase := .closing } ∧ changesOnly [.stalls] s t) ∧
       (s.drained k = false → exec (.stallDrained k) s = .next s) ∧
       (∀ e, (s.stallOf k).drainBy = some e → e ≤ s.now → ∃ t, exec (.stallDrainGraceTimeout k) s = .next t ∧
         t.stall k = .closing ∧
         (∀ (i : Fin 16) p r, s.program k i = some p → p.running = some r → killable p s.fabric.beat ≠ [] ∨ r.iters = [] →
           t.runningOf k i = none) ∧
         (∀ (i : Fin 16) r, t.runningOf k i = some r → r.next = none ∧ r.stopped = true))) ∧
     (s.stall k = .closing → ∃ t, exec (.stallCloseDone k) s = .next t ∧ t.stall k = .closed ∧ (t.stallOf k).key = none ∧
       (∀ i : Fin 16, t.slot k i = .empty) ∧
       (∀ x, s.stallBase k ≤ x → x < s.stallBase k + s.stallSize k → t.devRead x 1 = [0]) ∧
       (∀ i : Fin 256, (t.ring k i).phase = .stopped) ∧
       (s.host.waits = [] → ∀ m, m < 8192 → s.fld .HUB_CFG_MARKER_OWNER_FUNCTION (m / 64) = k → t.marker m = 0) ∧
       t.fld .HUB_CFG_STALL_CFG_ENABLE k = 0 ∧ t.fld .HUB_CFG_STALL_STATUS_LAST_CODE k = 0xC21 ∧ recordAmong 0xC21 0 s t))

/-- Of R465, R476 to R478: CHECKPOINT. For a stall that is not OPEN it completes with NM_STALL_BAD; otherwise it waits
for its boundary, the stall draining first if DRAIN is set. There, with no space it completes with NM_CKPT_SPACE and
writes nothing, with max_bytes 0 and DRAIN it completes OK and writes nothing, and else, once the stall's regulation
has the tokens, until which it stays at its boundary (the model's choice, log 117), the header, with its magic, and
the region stand in host memory, every host byte outside the checkpoint's range as before. -/
def Obligations.CheckpointsAreWritten : Prop :=
  (∀ (d : DescRef) (x : Desc) (s : State), startable s d x → x.val 0 1 = 8 →
    let k := if d.fn = 0 then x.val 17 1 else d.fn
    (s.stallOf k).ckpt = none →
    (s.stall k ≠ .open_ → ∃ t, exec (.checkpoint d) s = .next t ∧ completedWith d 0xC02 0 0 t ∧
      t.fld .HUB_CFG_STALL_STATUS_LAST_CODE k = 0xC02 ∧ changesOnly [.regs, .host] s t) ∧
    (s.stall k = .open_ → ∃ t, exec (.checkpoint d) s = .next t ∧
      (t.stallOf k).ckpt = some ⟨ticketOf d x, bit (x.val 16 1) 0, none⟩ ∧ t.stall k = .open_ ∧
      (bit (x.val 16 1) 0 = true → (t.stallOf k).draining = true) ∧
      (bit (x.val 16 1) 0 = false → changesOnly [.regs, .host, .stalls] s t))) ∧
  (∀ (k : Fin 32) (c : Ckpt) (x : Desc) (s : State), (s.stallOf k).ckpt = some c →
    s.ticketDesc c.desc = some x → x.done = none →
    (c.boundary = none → c.drain = true → s.drained k = true) →
    (c.boundary = none → c.drain = false → s.betweenIterations k = true) →
    (c.drain = true → x.val 32 8 = 0 → ∃ t, exec (.checkpointBoundary k) s = .next t ∧ endedWith c.desc 0 0 0 t ∧
      t.hostMem = s.hostMem ∧ changesOnly [.regs, .host, .stalls, .arbSeq] s t) ∧
    ((c.drain = false ∨ x.val 32 8 ≠ 0) → x.val 32 8 < s.ckptBytes k → ∃ t, exec (.checkpointBoundary k) s = .next t ∧
      endedWith c.desc 0xC30 0 0 t ∧ t.fld .HUB_CFG_STALL_STATUS_LAST_CODE k = 0xC30 ∧ t.hostMem = s.hostMem ∧
      changesOnly [.regs, .host, .stalls, .arbSeq] s t) ∧
    (s.ckptBytes k ≤ x.val 32 8 → x.val 32 8 ≠ 0 → s.ckptTokens k = none → ∃ t, exec (.checkpointBoundary k) s = .next t ∧
      t.ckptHolds k = true ∧ (c.boundary = none → (t.stallOf k).ckpt = some { c with boundary := some (s.now, s.arbSeq) }) ∧
      (c.boundary.isSome → t = s) ∧ changesOnly [.stalls, .arbSeq] s t) ∧
    (s.ckptBytes k ≤ x.val 32 8 → x.val 32 8 ≠ 0 → (s.ckptTokens k).isSome → let a := x.val 24 8
      ∃ t, exec (.checkpointBoundary k) s = .next t ∧ endedWith c.desc 0 0 0 t ∧
        t.hostRead a 4 = leBytes 4 0x54504B43 ∧
        t.hostRead (a + s.ckptBytes k - s.stallSize k) (s.stallSize k) = s.devRead (s.stallBase k) (s.stallSize k) ∧
        (∀ y, y < a ∨ a + s.ckptBytes k ≤ y → t.hostRead y 1 = s.hostRead y 1) ∧
        (t.stallOf k).sequence = (s.stallOf k).sequence + 1 ∧ t.mem = s.mem))

/-- Of R491: a MAC comes up with a MAX_FRAME in range, a station address that is not 0 nor a group's, and a rate it
supports; otherwise the write is refused with NET_CFG_BAD. A MAC that an enabled stream context or gPTP uses stays up,
refused with BUSY_CONFIG; one that nothing uses goes down. R492: CHANGE on a list that passes the checks sets PENDING
and fixes the first cycle start at least 10 µs ahead; another is refused with NET_CFG_BAD, and any while PENDING is 1
with BUSY_CONFIG. At the change time the list is operational from its first entry; after each entry the next one sets
the gates, cut at the cycle's end, from where the list starts again. R493, R494: a frame starts if the line is free
and it ends before its class's gate closes, and is counted sent; it waits while it does not, and is counted discarded
once no opening of the operational list is long enough. A class is shaped unless the slopes of the MAC would add up to
more than 75 % of its rate, which is refused with NET_CFG_BAD. -/
def Obligations.EthernetTransmission : Prop :=
  (∀ (n : Fin 6) (s : State),
     let frame := s.fld .NET_MAC_CFG_MAX_FRAME n
     let addr := s.fld .NET_MAC_ADDR_ADDR n
     let speed := s.fld .NET_MAC_CFG_SPEED n
     let good := 1518 ≤ frame ∧ frame ≤ 9216 ∧ addr ≠ 0 ∧ bit addr 40 = false ∧ (if n.val < 4 then speed = 2 else speed < 2)
     let used := (∃ c : Fin 128, s.fld .SENS_STREAM_CTX_ENABLE c = 1 ∧ s.fld .SENS_STREAM_CTX_KIND c = 1 ∧
       s.fld .SENS_STREAM_CTX_PORT c = n) ∨ (s.fld .TIME_CFG_GPTP_EN = 1 ∧ bit (s.fld .TIME_CFG_PORT_MASK) n = true)
     let refused := fun (c : Instr) (code : Nat) => ∃ t, exec c s = .next t ∧ t.fld .HUB_CFG_CFG_ERROR_CODE = code ∧
       t.fld .NET_MAC_CFG_ENABLE n = s.fld .NET_MAC_CFG_ENABLE n ∧ recordMade code 0 s t ∧
       changesOnly (.regs :: recordParts) s t
     (s.fld .NET_MAC_CFG_ENABLE n = 0 → (¬ good → refused (.netMacEnable n) 0x360) ∧
       (good → ∃ t, exec (.netMacEnable n) s = .next t ∧ t.fld .NET_MAC_CFG_ENABLE n = 1 ∧
         fieldsOnly [(.NET_MAC_CFG_ENABLE, n, 0)] s t ∧ changesOnly [.regs] s t)) ∧
     (used → refused (.netMacDisable n) 0x004) ∧
     (¬ used → ∃ t, exec (.netMacDisable n) s = .next t ∧ t.fld .NET_MAC_CFG_ENABLE n = 0 ∧
       fieldsOnly [(.NET_MAC_CFG_ENABLE, n, 0)] s t ∧ changesOnly [.regs] s t)) ∧
  (∀ (n : Fin 6) (s : State), s.macTx.length = 6 →
     let m := s.mac n
     let len := s.fld .NET_QBV_CTRL_ADMIN_LEN n
     let cycle := s.fld .NET_QBV_CYCLE_ADMIN_CYCLE n
     let base := s.fld .NET_QBV_BASE_ADMIN_BASE_TIME n
     let good := 1 ≤ len ∧ len ≤ 256 ∧ 1000 ≤ cycle ∧ cycle ≤ 1000000000 ∧ ∀ e, e < len → 32 ≤ s.fld .NET_QBV_GCL_INTERVAL n e
     let refused := fun (code : Nat) => ∃ t, exec (.change n) s = .next t ∧ t.fld .HUB_CFG_CFG_ERROR_CODE = code ∧
       t.macTx = s.macTx ∧ recordMade code 0 s t ∧ changesOnly (.regs :: recordParts) s t
     (s.fld .NET_QBV_CTRL_PENDING n = 1 → refused 0x004) ∧
     (s.fld .NET_QBV_CTRL_PENDING n = 0 → (¬ good → refused 0x360) ∧
       (good → ∃ t c k, exec (.change n) s = .next t ∧ t.fld .NET_QBV_CTRL_PENDING n = 1 ∧
         t.mac n = { m with change := some c } ∧ c = base + k * cycle ∧ s.now + 10000 ≤ c ∧
         (k = 0 ∨ base + (k - 1) * cycle < s.now + 10000) ∧
         fieldsOnly [(.NET_QBV_CTRL_PENDING, n, 0)] s t ∧ changesOnly [.regs, .macTx] s t)) ∧
     (∀ c, m.change = some c →
       (s.now < c → exec (.qbvChangeTime n) s = .next s) ∧
       (c ≤ s.now → ∃ t, exec (.qbvChangeTime n) s = .next t ∧ t.fld .NET_QBV_CTRL_OPER_VALID n = 1 ∧
         t.fld .NET_QBV_CTRL_PENDING n = 0 ∧ (t.mac n).oper = s.adminList n len ∧ (t.mac n).cycle = cycle ∧
         (t.mac n).change = none ∧ ((t.mac n).running = true ↔ s.fld .NET_QBV_CTRL_GATE_EN n = 1) ∧ (t.mac n).entry = 0 ∧
         (1 ≤ len → (t.mac n).gates = s.fld .NET_QBV_GCL_GATES n 0) ∧
         (t.mac n).entryEnd = (if 1 < len then min (c + cycle) (c + s.fld .NET_QBV_GCL_INTERVAL n 0) else c + cycle) ∧
         fieldsOnly [(.NET_QBV_CTRL_PENDING, n, 0), (.NET_QBV_CTRL_OPER_VALID, n, 0)] s t ∧ changesOnly [.regs, .macTx] s t)) ∧
     (m.oper ≠ [] → m.entryEnd ≤ s.now → ∃ t, exec (.qbvGateEntry n) s = .next t ∧
       (m.entry + 1 < m.oper.length → m.entryEnd < m.cycleEnd → (t.mac n).entry = m.entry + 1 ∧
         (t.mac n).gates = (m.oper.getD (m.entry + 1) (255, 0)).1 ∧ (t.mac n).entryEnd ≤ m.cycleEnd ∧
         (t.mac n).cycleEnd = m.cycleEnd) ∧
       (m.oper.length ≤ m.entry + 1 ∨ m.cycleEnd ≤ m.entryEnd → (t.mac n).entry = 0 ∧
         (t.mac n).gates = (m.oper.getD 0 (255, 0)).1 ∧ (t.mac n).cycleEnd = m.cycleEnd + m.cycle) ∧ changesOnly [.macTx] s t)) ∧
  (∀ (n : Fin 6) (s : State), s.macTx.length = 6 →
     (∀ (tagged : Bool) (pcp : Fin 8) (bytes q : Nat), s.fld .NET_MAC_CFG_ENABLE n = 1 → s.domainOn 33 = true →
       bytes ≤ s.fld .NET_MAC_CFG_MAX_FRAME n → q ≤ s.now →
       let c := if tagged = true then bits (s.fld .NET_TC_MAP_PCP_TC n) (3 * pcp.val + 2) (3 * pcp.val) else 0
       let speed := s.fld .NET_MAC_CFG_SPEED n
       let line := (bytes + 20) * (if speed = 2 then 8 else if speed = 1 then 32 else 80)
       let tx := Instr.ethFrameTx n tagged pcp bytes q
       ((s.mac n).hopeless c q s.now line = true → s.fld .NET_MAC_CNT_COUNT n 4 < 2 ^ 48 - 1 → ∃ t, exec tx s = .next t ∧
         t.fld .NET_MAC_CNT_COUNT n 4 = s.fld .NET_MAC_CNT_COUNT n 4 + 1 ∧ fieldsOnly [(.NET_MAC_CNT_COUNT, n, 4)] s t ∧
         changesOnly [.regs] s t) ∧
       ((s.mac n).hopeless c q s.now line = false →
         (s.now < (s.mac n).busy ∨ (s.mac n).fits c s.now line = false → exec tx s = .next s) ∧
         ((s.mac n).busy ≤ s.now → (s.mac n).fits c s.now line = true → s.fld .NET_QAV_EN n c = 0 →
           s.fld .NET_MAC_CNT_COUNT n 3 < 2 ^ 48 - 1 → ∃ t, exec tx s = .next t ∧
           t.fld .NET_MAC_CNT_COUNT n 3 = s.fld .NET_MAC_CNT_COUNT n 3 + 1 ∧
           t.mac n = { s.mac n with busy := s.now + ceilDiv line 10 } ∧ fieldsOnly [(.NET_MAC_CNT_COUNT, n, 3)] s t ∧
           changesOnly [.regs, .macTx] s t))) ∧
     (∀ c : Fin 8, let rate := rateOf (s.fld .NET_MAC_CFG_SPEED n)
       let slopes := s.slopesBut n c + s.fld .NET_QAV_IDLE_SLOPE n c
       (rate * 3 < 4 * slopes → ∃ t, exec (.qavEnable n c) s = .next t ∧ t.fld .HUB_CFG_CFG_ERROR_CODE = 0x360 ∧
         t.fld .NET_QAV_EN n c = s.fld .NET_QAV_EN n c ∧ t.macTx = s.macTx ∧ recordMade 0x360 0 s t ∧
         changesOnly (.regs :: recordParts) s t) ∧
       (4 * slopes ≤ rate * 3 → ∃ t, exec (.qavEnable n c) s = .next t ∧ t.fld .NET_QAV_EN n c = 1 ∧
         fieldsOnly [(.NET_QAV_EN, n, c)] s t ∧ changesOnly [.regs, .macTx] s t)))
end

