-- ==== Sys2Proof/Laws/Tables.lean ====
section
/-!
SUPPORT. Laws/Tables.lean: the sparse tables: what a table holds after an update, and that every operation on the byte
memories keeps the canonical form.
-/

namespace Sys2Proof.Machine

theorem get_erase {α : Type} (d : α) (t : Tbl α) (k j : Nat) :
    Tbl.get d (Tbl.erase t k) j = if j = k then d else Tbl.get d t j := by
  induction t with
  | nil => simp [Tbl.erase, Tbl.get]
  | cons e t ih =>
    obtain ⟨a, v⟩ := e
    unfold Tbl.erase
    by_cases hk : k = a
    · simp only [hk, if_true]
      rw [hk] at ih
      rw [ih]
      by_cases hj : j = a <;> simp [hj, Tbl.get]
    · simp only [hk, if_false, Tbl.get]
      rw [ih]
      by_cases hj : j = k <;> simp [hj, hk]

theorem above_erase {α : Type} (j k : Nat) (t : Tbl α) (h : Tbl.above j t = true) : Tbl.above j (Tbl.erase t k) = true := by
  induction t with
  | nil => rfl
  | cons e t ih =>
    simp only [Tbl.above, Bool.and_eq_true, decide_eq_true_eq] at h
    unfold Tbl.erase
    split
    · exact ih h.2
    · simp [Tbl.above, h.1, ih h.2]

theorem wf_erase {α : Type} [DecidableEq α] (d : α) (t : Tbl α) (k : Nat) (h : Tbl.wf d t = true) :
    Tbl.wf d (Tbl.erase t k) = true := by
  induction t with
  | nil => rfl
  | cons e t ih =>
    simp only [Tbl.wf, Bool.and_eq_true] at h
    unfold Tbl.erase
    split
    · exact ih h.2
    · simp only [Tbl.wf, Bool.and_eq_true]
      exact ⟨⟨above_erase _ _ _ h.1.1, h.1.2⟩, ih h.2⟩

theorem above_insert {α : Type} (j k : Nat) (v : α) (t : Tbl α) (hj : j < k) (h : Tbl.above j t = true) :
    Tbl.above j (Tbl.insert k v t) = true := by
  induction t with
  | nil => simp [Tbl.insert, Tbl.above, hj]
  | cons e t ih =>
    simp only [Tbl.above, Bool.and_eq_true, decide_eq_true_eq] at h
    unfold Tbl.insert
    split
    · simp [Tbl.above, hj, h.1, h.2]
    · simp [Tbl.above, h.1, ih h.2]

theorem above_trans {α : Type} (j k : Nat) (t : Tbl α) (hj : j < k) (h : Tbl.above k t = true) : Tbl.above j t = true := by
  induction t with
  | nil => rfl
  | cons e t ih =>
    simp only [Tbl.above, Bool.and_eq_true, decide_eq_true_eq] at h ⊢
    exact ⟨by omega, ih h.2⟩

/-- No entry of a table stands at key `k`. -/
def lacks {α : Type} (k : Nat) (t : Tbl α) : Prop := ∀ e ∈ t, e.1 ≠ k

theorem lacks_erase {α : Type} (t : Tbl α) (k : Nat) : lacks k (Tbl.erase t k) := by
  induction t with
  | nil => intro e h; exact absurd h (by simp [Tbl.erase])
  | cons e t ih =>
    intro x hx
    unfold Tbl.erase at hx
    split at hx
    · exact ih x hx
    · rename_i hne
      rcases List.mem_cons.1 hx with rfl | hx
      · exact fun h => hne h.symm
      · exact ih x hx

theorem wf_insert {α : Type} [DecidableEq α] (d : α) (t : Tbl α) (k : Nat) (v : α) (h : Tbl.wf d t = true) (hv : v ≠ d)
    (hk : lacks k t) : Tbl.wf d (Tbl.insert k v t) = true := by
  induction t with
  | nil => simp [Tbl.insert, Tbl.wf, Tbl.above, hv]
  | cons e t ih =>
    simp only [Tbl.wf, Bool.and_eq_true] at h
    have he : e.1 ≠ k := hk e (List.mem_cons_self ..)
    unfold Tbl.insert
    split
    · rename_i hlt
      simp only [Tbl.wf, Tbl.above, Bool.and_eq_true, Bool.not_eq_true', decide_eq_true_eq, decide_eq_false_iff_not]
      exact ⟨⟨⟨hlt, above_trans _ _ _ hlt h.1.1⟩, hv⟩, ⟨h.1.1, by simpa using h.1.2⟩, h.2⟩
    · simp only [Tbl.wf, Bool.and_eq_true]
      exact ⟨⟨above_insert _ _ _ _ (by omega) h.1.1, h.1.2⟩,
        ih h.2 fun x hx => hk x (List.mem_cons_of_mem _ hx)⟩

theorem wf_set {α : Type} [DecidableEq α] (d : α) (t : Tbl α) (k : Nat) (v : α) (h : Tbl.wf d t = true) :
    Tbl.wf d (Tbl.set d t k v) = true := by
  unfold Tbl.set
  split
  · exact wf_erase _ _ _ h
  · rename_i hv
    exact wf_insert _ _ _ _ (wf_erase _ _ _ h) hv (lacks_erase _ _)

theorem above_filter {α : Type} (j : Nat) (t : Tbl α) (q : Nat × α → Bool) (h : Tbl.above j t = true) :
    Tbl.above j (t.filter q) = true := by
  induction t with
  | nil => rfl
  | cons e t ih =>
    simp only [Tbl.above, Bool.and_eq_true] at h
    rw [List.filter_cons]
    split
    · simp only [Tbl.above, Bool.and_eq_true]; exact ⟨h.1, ih h.2⟩
    · exact ih h.2

theorem wf_filter {α : Type} [DecidableEq α] (d : α) (t : Tbl α) (q : Nat × α → Bool) (h : Tbl.wf d t = true) :
    Tbl.wf d (t.filter q) = true := by
  induction t with
  | nil => rfl
  | cons e t ih =>
    simp only [Tbl.wf, Bool.and_eq_true] at h
    rw [List.filter_cons]
    split
    · simp only [Tbl.wf, Bool.and_eq_true]; exact ⟨⟨above_filter _ _ _ h.1.1, h.1.2⟩, ih h.2⟩
    · exact ih h.2

theorem wf_writeBytes (t : Tbl Byte) (a : Nat) (l : List Byte) (h : Tbl.wf 0 t = true) :
    Tbl.wf 0 (writeBytes t a l) = true := by
  induction l generalizing t a with
  | nil => exact h
  | cons b l ih => exact ih _ _ (wf_set _ _ _ _ h)

theorem wf_zeroBytes (t : Tbl Byte) (a n : Nat) (h : Tbl.wf 0 t = true) : Tbl.wf 0 (zeroBytes t a n) = true :=
  wf_filter _ _ _ h

theorem wf_foldl_set {α : Type} {l : List α} {f : α → Nat} {g : α → Byte} (t : Tbl Byte) (h : Tbl.wf 0 t = true) :
    Tbl.wf 0 (l.foldl (fun t x => Tbl.set 0 t (f x) (g x)) t) = true := by
  induction l generalizing t with
  | nil => exact h
  | cons x l ih => exact ih _ (wf_set _ _ _ _ h)

theorem wf_copyBytes (src : Tbl Byte) (a : Nat) (dst : Tbl Byte) (b n : Nat) (h : Tbl.wf 0 dst = true) :
    Tbl.wf 0 (copyBytes src a dst b n) = true := wf_foldl_set _ (wf_zeroBytes _ _ _ h)

theorem wf_flashPut (t : Tbl Byte) (a : Nat) (l : List Byte) (h : Tbl.wf 255 t = true) :
    Tbl.wf 255 (flashPut t a l) = true := by
  induction l generalizing t a with
  | nil => exact h
  | cons b l ih => exact ih _ _ (wf_set _ _ _ _ h)

theorem wf_overlay (l : Tbl (Option Byte)) (t : Tbl Byte) (h : Tbl.wf 0 t = true) :
    Tbl.wf 0 (l.foldl (fun m e => match e.2 with | some b => Tbl.set 0 m e.1 b | none => m) t) = true := by
  induction l generalizing t with
  | nil => exact h
  | cons e l ih =>
    refine ih _ ?_
    dsimp only
    split
    · exact wf_set _ _ _ _ h
    · exact h

theorem wf_into (src : Source) (t : Tbl Byte) (a n : Nat) (h : Tbl.wf 0 t = true) : Tbl.wf 0 (src.into t a n) = true := by
  unfold Source.into
  split
  · exact wf_copyBytes _ _ _ _ _ h
  · split
    · exact wf_zeroBytes _ _ _ h
    · exact wf_writeBytes _ _ _ h

theorem get_insert {α : Type} (d : α) (t : Tbl α) (k j : Nat) (v : α) (hn : lacks k t) :
    Tbl.get d (Tbl.insert k v t) j = if j = k then v else Tbl.get d t j := by
  induction t with
  | nil => simp [Tbl.insert, Tbl.get]
  | cons e t ih =>
    obtain ⟨a, u⟩ := e
    have ha : a ≠ k := hn (a, u) (List.mem_cons_self ..)
    have ih := ih fun e he => hn e (List.mem_cons_of_mem _ he)
    unfold Tbl.insert
    split
    · simp [Tbl.get]
    · simp only [Tbl.get, ih]
      by_cases hj : j = a <;> simp [hj, ha]

/-- What a table holds after `v` was put at `k`. -/
theorem get_set {α : Type} [DecidableEq α] (d : α) (t : Tbl α) (k j : Nat) (v : α) :
    Tbl.get d (Tbl.set d t k v) j = if j = k then v else Tbl.get d t j := by
  unfold Tbl.set
  split
  · rename_i h
    rw [get_erase, h]
  · rw [get_insert _ _ _ _ _ (lacks_erase t k), get_erase]
    split <;> rfl

@[simp] theorem get_set_self {α : Type} [DecidableEq α] (d : α) (t : Tbl α) (k : Nat) (v : α) :
    Tbl.get d (Tbl.set d t k v) k = v := by rw [get_set, if_pos rfl]

/-- An update leaves every other key, whatever an unlisted key is taken to hold. -/
theorem get_set_other {α : Type} [DecidableEq α] (d d' : α) (t : Tbl α) (k j : Nat) (v : α) (h : j ≠ k) :
    Tbl.get d' (Tbl.set d t k v) j = Tbl.get d' t j := by
  unfold Tbl.set
  split
  · rw [get_erase, if_neg h]
  · rw [get_insert _ _ _ _ _ (lacks_erase t k), if_neg h, get_erase, if_neg h]

/-- A write changes no byte before its first and none after its last. -/
theorem get_writeBytes_other (t : Tbl Byte) (a x : Nat) (l : List Byte) (h : x < a ∨ a + l.length ≤ x) :
    Tbl.get 0 (writeBytes t a l) x = Tbl.get 0 t x := by
  induction l generalizing t a with
  | nil => rfl
  | cons b l ih =>
    rw [List.length_cons] at h
    unfold writeBytes
    rw [ih _ _ (by omega), get_set_other _ _ _ _ _ _ (by omega)]

/-- A read after a write of the same bytes gives what was written. -/
theorem readBytes_writeBytes (t : Tbl Byte) (a : Nat) (l : List Byte) : readBytes (writeBytes t a l) a l.length = l := by
  induction l generalizing t a with
  | nil => rfl
  | cons b l ih =>
    show Tbl.get 0 (writeBytes (Tbl.set 0 t a b) (a + 1) l) a :: readBytes (writeBytes (Tbl.set 0 t a b) (a + 1) l) (a + 1) l.length = b :: l
    rw [ih, get_writeBytes_other _ _ _ _ (by omega), get_set_self]

end Sys2Proof.Machine
end

