-- ==== Sys2Proof/Laws/Keeps.lean ====
section
/-!
SUPPORT. Laws/Keeps.lean: what every operation and every command leaves alone (the waiting commands) and keeps in bounds
(the time base, the event arbiter, the canonical form of the three byte memories).
-/

namespace Sys2Proof.Machine

/-- The components of `d` are among those of `w`. A component of State is the bit of its place in the structure: 0 pending, 1
now, 2 arbSeq, 3 freeCount, 4 shown, 5 readData, 6 latches, 7 regs, 8 mem, 9 hostMem, 10 mode, 11 transition, 12 deferred, 13
degrade, 14 fabric, 15 sensing, 16 timeBase, 17 memSys, 18 pair, 19 host, 20 safety, 21 stalls, 22 pools, 23 flash, 24 boot,
25 gauge, 26 swatch, 27 devLog, 28 since, 29 planner, 30 power, 31 thermal, 32 wake, 33 wear, 34 macTx. -/
def Sub (d w : Nat) : Prop := d &&& w = d

theorem sub_of {c d w : Nat} (h : Sub d w) (hc : Nat.beq (Nat.land c d) c = true) : Sub c w := by
  have hc : c &&& d = c := Nat.eq_of_beq_eq_true hc
  unfold Sub at h ⊢
  rw [← hc, Nat.and_assoc, h]

theorem sub_bit {d w : Nat} (i : Nat) (h : Sub d w) (hd : d.testBit i = true) : w.testBit i = true := by
  have h1 : (d &&& w).testBit i = true := by rw [h]; exact hd
  rw [Nat.testBit_and] at h1
  exact (Bool.and_eq_true_iff.1 h1).2

variable {w : Nat} {p : State}

/-- Every component of State outside `w` is the same in `p` and `s`. -/
def Same (w : Nat) (p s : State) : Prop :=
  (w.testBit 1 = false → s.now = p.now) ∧
  (w.testBit 2 = false → s.arbSeq = p.arbSeq) ∧
  (w.testBit 3 = false → s.freeCount = p.freeCount) ∧
  (w.testBit 4 = false → s.shown = p.shown) ∧
  (w.testBit 5 = false → s.readData = p.readData) ∧
  (w.testBit 6 = false → s.latches = p.latches) ∧
  (w.testBit 7 = false → s.regs = p.regs) ∧
  (w.testBit 8 = false → s.mem = p.mem) ∧
  (w.testBit 9 = false → s.hostMem = p.hostMem) ∧
  (w.testBit 10 = false → s.mode = p.mode) ∧
  (w.testBit 11 = false → s.transition = p.transition) ∧
  (w.testBit 12 = false → s.deferred = p.deferred) ∧
  (w.testBit 13 = false → s.degrade = p.degrade) ∧
  (w.testBit 14 = false → s.fabric = p.fabric) ∧
  (w.testBit 15 = false → s.sensing = p.sensing) ∧
  (w.testBit 16 = false → s.timeBase = p.timeBase) ∧
  (w.testBit 17 = false → s.memSys = p.memSys) ∧
  (w.testBit 18 = false → s.pair = p.pair) ∧
  (w.testBit 19 = false → s.host = p.host) ∧
  (w.testBit 20 = false → s.safety = p.safety) ∧
  (w.testBit 21 = false → s.stalls = p.stalls) ∧
  (w.testBit 22 = false → s.pools = p.pools) ∧
  (w.testBit 23 = false → s.flash = p.flash) ∧
  (w.testBit 24 = false → s.boot = p.boot) ∧
  (w.testBit 25 = false → s.gauge = p.gauge) ∧
  (w.testBit 26 = false → s.swatch = p.swatch) ∧
  (w.testBit 27 = false → s.devLog = p.devLog) ∧
  (w.testBit 28 = false → s.since = p.since) ∧
  (w.testBit 29 = false → s.planner = p.planner) ∧
  (w.testBit 30 = false → s.power = p.power) ∧
  (w.testBit 31 = false → s.thermal = p.thermal) ∧
  (w.testBit 32 = false → s.wake = p.wake) ∧
  (w.testBit 33 = false → s.wear = p.wear) ∧
  (w.testBit 34 = false → s.macTx = p.macTx)

/-- What every operation leaves alone or keeps from `p` to `s`: the queue of waiting commands, the 64 bits of the time base,
the 48 bits of the event arbiter, the canonical form of the byte memories, the count of free values drawn, which only
grows, and every component outside `w`. -/
def Keeps (w : Nat) (p s : State) : Prop :=
  s.pending = p.pending ∧ (p.now < two64 → s.now < two64) ∧ (p.arbSeq < 2 ^ 48 → s.arbSeq < 2 ^ 48) ∧
    (Tbl.wf 0 p.mem = true → Tbl.wf 0 s.mem = true) ∧ (Tbl.wf 0 p.hostMem = true → Tbl.wf 0 s.hostMem = true) ∧
    (Tbl.wf 255 p.flash = true → Tbl.wf 255 s.flash = true) ∧ p.freeCount ≤ s.freeCount ∧ Same w p s

/-- The outcome is a next state, and keeps the same. -/
def OutKeeps (w : Nat) (p : State) : Out → Prop
  | .next t => Keeps w p t
  | _ => False

/-- The outcome is a next state that keeps the same, or the fault of a pattern that the manual does not describe. -/
def OutKeepsOrFault (w : Nat) (p : State) : Out → Prop
  | .next t => Keeps w p t
  | .fault _ => True
  | .refused _ => False

theorem keeps_refl (w : Nat) (s : State) : Keeps w s s :=
  ⟨rfl, id, id, id, id, id, Nat.le_refl _, by unfold Same; simp⟩

theorem outKeeps_next {t : State} (h : Keeps w p t) : OutKeeps w p (.next t) := h

theorem orFault_next {t : State} (h : Keeps w p t) : OutKeepsOrFault w p (.next t) := h

theorem orFault_fault {f : Fault} : OutKeepsOrFault w p (.fault f) := trivial

theorem orFault_ite {c : Prop} {hc : Decidable c} {a b : Out} (ha : OutKeepsOrFault w p a)
    (hb : OutKeepsOrFault w p b) : OutKeepsOrFault w p (@ite Out c hc a b) := by split <;> assumption

theorem keeps_foldl {α : Type} {f : State → α → State} {l : List α} {s : State} (h : Keeps w p s)
    (hf : ∀ t a, Keeps w p t → Keeps w p (f t a)) : Keeps w p (l.foldl f s) := by
  induction l generalizing s with
  | nil => exact h
  | cons a l ih => exact ih (hf s a h)

theorem keeps_foldl_fst {α β : Type} {f : State × β → α → State × β} {l : List α} {s : State × β}
    (h : Keeps w p s.1) (hf : ∀ t a, Keeps w p t.1 → Keeps w p (f t a).1) : Keeps w p (l.foldl f s).1 := by
  induction l generalizing s with
  | nil => exact h
  | cons a l ih => exact ih (hf s a h)

theorem keeps_foldl_snd {α β : Type} {f : β × State → α → β × State} {l : List α} {s : β × State}
    (h : Keeps w p s.2) (hf : ∀ t a, Keeps w p t.2 → Keeps w p (f t a).2) : Keeps w p (l.foldl f s).2 := by
  induction l generalizing s with
  | nil => exact h
  | cons a l ih => exact ih (hf s a h)

/-- A pair taken apart: its state keeps what the pair's state kept. -/
theorem keeps_of_snd {α : Type} {e : α × State} {a : α} {t : State} (h : Keeps w p e.2)
    (he : e = (a, t)) : Keeps w p t := by subst he; exact h

theorem keeps_of_fst {α : Type} {e : State × α} {a : α} {t : State} (h : Keeps w p e.1)
    (he : e = (t, a)) : Keeps w p t := by subst he; exact h

theorem keeps_cut {v : State} {P : Prop} (h : Keeps w p v) (k : Keeps w p v → P) : P := k h

theorem keeps_snd_mk {α : Type} {a : α} {t : State} (h : Keeps w p t) : Keeps w p (a, t).2 := h

theorem keeps_fst_mk {α : Type} {a : α} {t : State} (h : Keeps w p t) : Keeps w p (t, a).1 := h

theorem keeps_of_22 {α β : Type} {e : α × β × State} {a : α} {b : β} {t : State} (h : Keeps w p e.2.2)
    (he : e = (a, b, t)) : Keeps w p t := by subst he; exact h

theorem keeps_of_222 {α β γ : Type} {e : α × β × γ × State} {a : α} {b : β} {c : γ} {t : State}
    (h : Keeps w p e.2.2.2) (he : e = (a, b, c, t)) : Keeps w p t := by subst he; exact h

theorem keeps_of_11 {α β : Type} {e : State × α × β} {a : α} {b : β} {t : State} (h : Keeps w p e.1)
    (he : e = (t, a, b)) : Keeps w p t := by subst he; exact h

theorem wf_foldlWrite {α : Type} {l : List α} {f : α → Nat} {g : α → List Byte} (t : Tbl Byte) (h : Tbl.wf 0 t = true) :
    Tbl.wf 0 (l.foldl (fun t x => writeBytes t (f x) (g x)) t) = true := by
  induction l generalizing t with
  | nil => exact h
  | cons x l ih => exact ih _ (wf_writeBytes _ _ _ h)

theorem keeps_ite {c : Prop} {hc : Decidable c} {a b : State} (ha : Keeps w p a) (hb : Keeps w p b) :
    Keeps w p (@ite State c hc a b) := by split <;> assumption

theorem outKeeps_ite {c : Prop} {hc : Decidable c} {a b : Out} (ha : OutKeeps w p a) (hb : OutKeeps w p b) :
    OutKeeps w p (@ite Out c hc a b) := by split <;> assumption

theorem no {d : Nat} {P : Prop} (hw : Sub d w) (i : Nat) (hd : d.testBit i = true) (e : w.testBit i = false) : P := by
  rw [sub_bit i hw hd] at e
  cases e

/-! Record updates. -/

theorem keeps_set_boot {x : State} {a0 : _} (h : Keeps w p x)
    (hw : Sub 0x1000000 w) : Keeps w p (State.mk x.pending x.now x.arbSeq x.freeCount x.shown x.readData
      x.latches x.regs x.mem x.hostMem x.mode x.transition x.deferred x.degrade x.fabric x.sensing x.timeBase
      x.memSys x.pair x.host x.safety x.stalls x.pools x.flash a0 x.gauge x.swatch x.devLog x.since x.planner
      x.power x.thermal x.wake x.wear x.macTx) := by
  obtain ⟨e1, e2, e3, e4, e5, e6, e7, e8, e9, e10, e11, e12, e13, e14, e15, e16, e17, e18, e19, e20, e21, e22, e23, _, e25, e26, e27, e28, e29, e30, e31, e32, e33, e34⟩ := h.2.2.2.2.2.2.2
  exact ⟨h.1, h.2.1, h.2.2.1, h.2.2.2.1, h.2.2.2.2.1, h.2.2.2.2.2.1, h.2.2.2.2.2.2.1, e1, e2, e3, e4, e5, e6, e7, e8, e9, e10, e11, e12, e13, e14, e15, e16, e17, e18, e19, e20, e21, e22, e23, no hw 24 rfl, e25, e26, e27, e28, e29, e30, e31, e32, e33, e34⟩

theorem keeps_set_deferred {x : State} {a0 : _} (h : Keeps w p x)
    (hw : Sub 0x1000 w) : Keeps w p (State.mk x.pending x.now x.arbSeq x.freeCount x.shown x.readData x.latches
      x.regs x.mem x.hostMem x.mode x.transition a0 x.degrade x.fabric x.sensing x.timeBase x.memSys x.pair
      x.host x.safety x.stalls x.pools x.flash x.boot x.gauge x.swatch x.devLog x.since x.planner x.power
      x.thermal x.wake x.wear x.macTx) := by
  obtain ⟨e1, e2, e3, e4, e5, e6, e7, e8, e9, e10, e11, _, e13, e14, e15, e16, e17, e18, e19, e20, e21, e22, e23, e24, e25, e26, e27, e28, e29, e30, e31, e32, e33, e34⟩ := h.2.2.2.2.2.2.2
  exact ⟨h.1, h.2.1, h.2.2.1, h.2.2.2.1, h.2.2.2.2.1, h.2.2.2.2.2.1, h.2.2.2.2.2.2.1, e1, e2, e3, e4, e5, e6, e7, e8, e9, e10, e11, no hw 12 rfl, e13, e14, e15, e16, e17, e18, e19, e20, e21, e22, e23, e24, e25, e26, e27, e28, e29, e30, e31, e32, e33, e34⟩

theorem keeps_set_degrade {x : State} {a0 : _} (h : Keeps w p x)
    (hw : Sub 0x2000 w) : Keeps w p (State.mk x.pending x.now x.arbSeq x.freeCount x.shown x.readData x.latches
      x.regs x.mem x.hostMem x.mode x.transition x.deferred a0 x.fabric x.sensing x.timeBase x.memSys x.pair
      x.host x.safety x.stalls x.pools x.flash x.boot x.gauge x.swatch x.devLog x.since x.planner x.power
      x.thermal x.wake x.wear x.macTx) := by
  obtain ⟨e1, e2, e3, e4, e5, e6, e7, e8, e9, e10, e11, e12, _, e14, e15, e16, e17, e18, e19, e20, e21, e22, e23, e24, e25, e26, e27, e28, e29, e30, e31, e32, e33, e34⟩ := h.2.2.2.2.2.2.2
  exact ⟨h.1, h.2.1, h.2.2.1, h.2.2.2.1, h.2.2.2.2.1, h.2.2.2.2.2.1, h.2.2.2.2.2.2.1, e1, e2, e3, e4, e5, e6, e7, e8, e9, e10, e11, e12, no hw 13 rfl, e14, e15, e16, e17, e18, e19, e20, e21, e22, e23, e24, e25, e26, e27, e28, e29, e30, e31, e32, e33, e34⟩

theorem keeps_set_devLog {x : State} {a0 : _} (h : Keeps w p x)
    (hw : Sub 0x8000000 w) : Keeps w p (State.mk x.pending x.now x.arbSeq x.freeCount x.shown x.readData
      x.latches x.regs x.mem x.hostMem x.mode x.transition x.deferred x.degrade x.fabric x.sensing x.timeBase
      x.memSys x.pair x.host x.safety x.stalls x.pools x.flash x.boot x.gauge x.swatch a0 x.since x.planner
      x.power x.thermal x.wake x.wear x.macTx) := by
  obtain ⟨e1, e2, e3, e4, e5, e6, e7, e8, e9, e10, e11, e12, e13, e14, e15, e16, e17, e18, e19, e20, e21, e22, e23, e24, e25, e26, _, e28, e29, e30, e31, e32, e33, e34⟩ := h.2.2.2.2.2.2.2
  exact ⟨h.1, h.2.1, h.2.2.1, h.2.2.2.1, h.2.2.2.2.1, h.2.2.2.2.2.1, h.2.2.2.2.2.2.1, e1, e2, e3, e4, e5, e6, e7, e8, e9, e10, e11, e12, e13, e14, e15, e16, e17, e18, e19, e20, e21, e22, e23, e24, e25, e26, no hw 27 rfl, e28, e29, e30, e31, e32, e33, e34⟩

theorem keeps_set_fabric {x : State} {a0 : _} (h : Keeps w p x)
    (hw : Sub 0x4000 w) : Keeps w p (State.mk x.pending x.now x.arbSeq x.freeCount x.shown x.readData x.latches
      x.regs x.mem x.hostMem x.mode x.transition x.deferred x.degrade a0 x.sensing x.timeBase x.memSys x.pair
      x.host x.safety x.stalls x.pools x.flash x.boot x.gauge x.swatch x.devLog x.since x.planner x.power
      x.thermal x.wake x.wear x.macTx) := by
  obtain ⟨e1, e2, e3, e4, e5, e6, e7, e8, e9, e10, e11, e12, e13, _, e15, e16, e17, e18, e19, e20, e21, e22, e23, e24, e25, e26, e27, e28, e29, e30, e31, e32, e33, e34⟩ := h.2.2.2.2.2.2.2
  exact ⟨h.1, h.2.1, h.2.2.1, h.2.2.2.1, h.2.2.2.2.1, h.2.2.2.2.2.1, h.2.2.2.2.2.2.1, e1, e2, e3, e4, e5, e6, e7, e8, e9, e10, e11, e12, e13, no hw 14 rfl, e15, e16, e17, e18, e19, e20, e21, e22, e23, e24, e25, e26, e27, e28, e29, e30, e31, e32, e33, e34⟩

theorem keeps_set_gauge {x : State} {a0 : _} (h : Keeps w p x)
    (hw : Sub 0x2000000 w) : Keeps w p (State.mk x.pending x.now x.arbSeq x.freeCount x.shown x.readData
      x.latches x.regs x.mem x.hostMem x.mode x.transition x.deferred x.degrade x.fabric x.sensing x.timeBase
      x.memSys x.pair x.host x.safety x.stalls x.pools x.flash x.boot a0 x.swatch x.devLog x.since x.planner
      x.power x.thermal x.wake x.wear x.macTx) := by
  obtain ⟨e1, e2, e3, e4, e5, e6, e7, e8, e9, e10, e11, e12, e13, e14, e15, e16, e17, e18, e19, e20, e21, e22, e23, e24, _, e26, e27, e28, e29, e30, e31, e32, e33, e34⟩ := h.2.2.2.2.2.2.2
  exact ⟨h.1, h.2.1, h.2.2.1, h.2.2.2.1, h.2.2.2.2.1, h.2.2.2.2.2.1, h.2.2.2.2.2.2.1, e1, e2, e3, e4, e5, e6, e7, e8, e9, e10, e11, e12, e13, e14, e15, e16, e17, e18, e19, e20, e21, e22, e23, e24, no hw 25 rfl, e26, e27, e28, e29, e30, e31, e32, e33, e34⟩

theorem keeps_set_host {x : State} {a0 : _} (h : Keeps w p x)
    (hw : Sub 0x80000 w) : Keeps w p (State.mk x.pending x.now x.arbSeq x.freeCount x.shown x.readData x.latches
      x.regs x.mem x.hostMem x.mode x.transition x.deferred x.degrade x.fabric x.sensing x.timeBase x.memSys
      x.pair a0 x.safety x.stalls x.pools x.flash x.boot x.gauge x.swatch x.devLog x.since x.planner x.power
      x.thermal x.wake x.wear x.macTx) := by
  obtain ⟨e1, e2, e3, e4, e5, e6, e7, e8, e9, e10, e11, e12, e13, e14, e15, e16, e17, e18, _, e20, e21, e22, e23, e24, e25, e26, e27, e28, e29, e30, e31, e32, e33, e34⟩ := h.2.2.2.2.2.2.2
  exact ⟨h.1, h.2.1, h.2.2.1, h.2.2.2.1, h.2.2.2.2.1, h.2.2.2.2.2.1, h.2.2.2.2.2.2.1, e1, e2, e3, e4, e5, e6, e7, e8, e9, e10, e11, e12, e13, e14, e15, e16, e17, e18, no hw 19 rfl, e20, e21, e22, e23, e24, e25, e26, e27, e28, e29, e30, e31, e32, e33, e34⟩

theorem keeps_set_latches {x : State} {a0 : _} (h : Keeps w p x)
    (hw : Sub 0x40 w) : Keeps w p (State.mk x.pending x.now x.arbSeq x.freeCount x.shown x.readData a0 x.regs
      x.mem x.hostMem x.mode x.transition x.deferred x.degrade x.fabric x.sensing x.timeBase x.memSys x.pair
      x.host x.safety x.stalls x.pools x.flash x.boot x.gauge x.swatch x.devLog x.since x.planner x.power
      x.thermal x.wake x.wear x.macTx) := by
  obtain ⟨e1, e2, e3, e4, e5, _, e7, e8, e9, e10, e11, e12, e13, e14, e15, e16, e17, e18, e19, e20, e21, e22, e23, e24, e25, e26, e27, e28, e29, e30, e31, e32, e33, e34⟩ := h.2.2.2.2.2.2.2
  exact ⟨h.1, h.2.1, h.2.2.1, h.2.2.2.1, h.2.2.2.2.1, h.2.2.2.2.2.1, h.2.2.2.2.2.2.1, e1, e2, e3, e4, e5, no hw 6 rfl, e7, e8, e9, e10, e11, e12, e13, e14, e15, e16, e17, e18, e19, e20, e21, e22, e23, e24, e25, e26, e27, e28, e29, e30, e31, e32, e33, e34⟩

theorem keeps_set_macTx {x : State} {a0 : _} (h : Keeps w p x)
    (hw : Sub 0x400000000 w) : Keeps w p (State.mk x.pending x.now x.arbSeq x.freeCount x.shown x.readData
      x.latches x.regs x.mem x.hostMem x.mode x.transition x.deferred x.degrade x.fabric x.sensing x.timeBase
      x.memSys x.pair x.host x.safety x.stalls x.pools x.flash x.boot x.gauge x.swatch x.devLog x.since
      x.planner x.power x.thermal x.wake x.wear a0) := by
  obtain ⟨e1, e2, e3, e4, e5, e6, e7, e8, e9, e10, e11, e12, e13, e14, e15, e16, e17, e18, e19, e20, e21, e22, e23, e24, e25, e26, e27, e28, e29, e30, e31, e32, e33, _⟩ := h.2.2.2.2.2.2.2
  exact ⟨h.1, h.2.1, h.2.2.1, h.2.2.2.1, h.2.2.2.2.1, h.2.2.2.2.2.1, h.2.2.2.2.2.2.1, e1, e2, e3, e4, e5, e6, e7, e8, e9, e10, e11, e12, e13, e14, e15, e16, e17, e18, e19, e20, e21, e22, e23, e24, e25, e26, e27, e28, e29, e30, e31, e32, e33, no hw 34 rfl⟩

theorem keeps_set_memSys {x : State} {a0 : _} (h : Keeps w p x)
    (hw : Sub 0x20000 w) : Keeps w p (State.mk x.pending x.now x.arbSeq x.freeCount x.shown x.readData x.latches
      x.regs x.mem x.hostMem x.mode x.transition x.deferred x.degrade x.fabric x.sensing x.timeBase a0 x.pair
      x.host x.safety x.stalls x.pools x.flash x.boot x.gauge x.swatch x.devLog x.since x.planner x.power
      x.thermal x.wake x.wear x.macTx) := by
  obtain ⟨e1, e2, e3, e4, e5, e6, e7, e8, e9, e10, e11, e12, e13, e14, e15, e16, _, e18, e19, e20, e21, e22, e23, e24, e25, e26, e27, e28, e29, e30, e31, e32, e33, e34⟩ := h.2.2.2.2.2.2.2
  exact ⟨h.1, h.2.1, h.2.2.1, h.2.2.2.1, h.2.2.2.2.1, h.2.2.2.2.2.1, h.2.2.2.2.2.2.1, e1, e2, e3, e4, e5, e6, e7, e8, e9, e10, e11, e12, e13, e14, e15, e16, no hw 17 rfl, e18, e19, e20, e21, e22, e23, e24, e25, e26, e27, e28, e29, e30, e31, e32, e33, e34⟩

theorem keeps_set_mode {x : State} {a0 : _} (h : Keeps w p x)
    (hw : Sub 0x400 w) : Keeps w p (State.mk x.pending x.now x.arbSeq x.freeCount x.shown x.readData x.latches
      x.regs x.mem x.hostMem a0 x.transition x.deferred x.degrade x.fabric x.sensing x.timeBase x.memSys x.pair
      x.host x.safety x.stalls x.pools x.flash x.boot x.gauge x.swatch x.devLog x.since x.planner x.power
      x.thermal x.wake x.wear x.macTx) := by
  obtain ⟨e1, e2, e3, e4, e5, e6, e7, e8, e9, _, e11, e12, e13, e14, e15, e16, e17, e18, e19, e20, e21, e22, e23, e24, e25, e26, e27, e28, e29, e30, e31, e32, e33, e34⟩ := h.2.2.2.2.2.2.2
  exact ⟨h.1, h.2.1, h.2.2.1, h.2.2.2.1, h.2.2.2.2.1, h.2.2.2.2.2.1, h.2.2.2.2.2.2.1, e1, e2, e3, e4, e5, e6, e7, e8, e9, no hw 10 rfl, e11, e12, e13, e14, e15, e16, e17, e18, e19, e20, e21, e22, e23, e24, e25, e26, e27, e28, e29, e30, e31, e32, e33, e34⟩

theorem keeps_set_pair {x : State} {a0 : _} (h : Keeps w p x)
    (hw : Sub 0x40000 w) : Keeps w p (State.mk x.pending x.now x.arbSeq x.freeCount x.shown x.readData x.latches
      x.regs x.mem x.hostMem x.mode x.transition x.deferred x.degrade x.fabric x.sensing x.timeBase x.memSys a0
      x.host x.safety x.stalls x.pools x.flash x.boot x.gauge x.swatch x.devLog x.since x.planner x.power
      x.thermal x.wake x.wear x.macTx) := by
  obtain ⟨e1, e2, e3, e4, e5, e6, e7, e8, e9, e10, e11, e12, e13, e14, e15, e16, e17, _, e19, e20, e21, e22, e23, e24, e25, e26, e27, e28, e29, e30, e31, e32, e33, e34⟩ := h.2.2.2.2.2.2.2
  exact ⟨h.1, h.2.1, h.2.2.1, h.2.2.2.1, h.2.2.2.2.1, h.2.2.2.2.2.1, h.2.2.2.2.2.2.1, e1, e2, e3, e4, e5, e6, e7, e8, e9, e10, e11, e12, e13, e14, e15, e16, e17, no hw 18 rfl, e19, e20, e21, e22, e23, e24, e25, e26, e27, e28, e29, e30, e31, e32, e33, e34⟩

theorem keeps_set_planner {x : State} {a0 : _} (h : Keeps w p x)
    (hw : Sub 0x20000000 w) : Keeps w p (State.mk x.pending x.now x.arbSeq x.freeCount x.shown x.readData
      x.latches x.regs x.mem x.hostMem x.mode x.transition x.deferred x.degrade x.fabric x.sensing x.timeBase
      x.memSys x.pair x.host x.safety x.stalls x.pools x.flash x.boot x.gauge x.swatch x.devLog x.since a0
      x.power x.thermal x.wake x.wear x.macTx) := by
  obtain ⟨e1, e2, e3, e4, e5, e6, e7, e8, e9, e10, e11, e12, e13, e14, e15, e16, e17, e18, e19, e20, e21, e22, e23, e24, e25, e26, e27, e28, _, e30, e31, e32, e33, e34⟩ := h.2.2.2.2.2.2.2
  exact ⟨h.1, h.2.1, h.2.2.1, h.2.2.2.1, h.2.2.2.2.1, h.2.2.2.2.2.1, h.2.2.2.2.2.2.1, e1, e2, e3, e4, e5, e6, e7, e8, e9, e10, e11, e12, e13, e14, e15, e16, e17, e18, e19, e20, e21, e22, e23, e24, e25, e26, e27, e28, no hw 29 rfl, e30, e31, e32, e33, e34⟩

theorem keeps_set_pools {x : State} {a0 : _} (h : Keeps w p x)
    (hw : Sub 0x400000 w) : Keeps w p (State.mk x.pending x.now x.arbSeq x.freeCount x.shown x.readData
      x.latches x.regs x.mem x.hostMem x.mode x.transition x.deferred x.degrade x.fabric x.sensing x.timeBase
      x.memSys x.pair x.host x.safety x.stalls a0 x.flash x.boot x.gauge x.swatch x.devLog x.since x.planner
      x.power x.thermal x.wake x.wear x.macTx) := by
  obtain ⟨e1, e2, e3, e4, e5, e6, e7, e8, e9, e10, e11, e12, e13, e14, e15, e16, e17, e18, e19, e20, e21, _, e23, e24, e25, e26, e27, e28, e29, e30, e31, e32, e33, e34⟩ := h.2.2.2.2.2.2.2
  exact ⟨h.1, h.2.1, h.2.2.1, h.2.2.2.1, h.2.2.2.2.1, h.2.2.2.2.2.1, h.2.2.2.2.2.2.1, e1, e2, e3, e4, e5, e6, e7, e8, e9, e10, e11, e12, e13, e14, e15, e16, e17, e18, e19, e20, e21, no hw 22 rfl, e23, e24, e25, e26, e27, e28, e29, e30, e31, e32, e33, e34⟩

theorem keeps_set_power {x : State} {a0 : _} (h : Keeps w p x)
    (hw : Sub 0x40000000 w) : Keeps w p (State.mk x.pending x.now x.arbSeq x.freeCount x.shown x.readData
      x.latches x.regs x.mem x.hostMem x.mode x.transition x.deferred x.degrade x.fabric x.sensing x.timeBase
      x.memSys x.pair x.host x.safety x.stalls x.pools x.flash x.boot x.gauge x.swatch x.devLog x.since
      x.planner a0 x.thermal x.wake x.wear x.macTx) := by
  obtain ⟨e1, e2, e3, e4, e5, e6, e7, e8, e9, e10, e11, e12, e13, e14, e15, e16, e17, e18, e19, e20, e21, e22, e23, e24, e25, e26, e27, e28, e29, _, e31, e32, e33, e34⟩ := h.2.2.2.2.2.2.2
  exact ⟨h.1, h.2.1, h.2.2.1, h.2.2.2.1, h.2.2.2.2.1, h.2.2.2.2.2.1, h.2.2.2.2.2.2.1, e1, e2, e3, e4, e5, e6, e7, e8, e9, e10, e11, e12, e13, e14, e15, e16, e17, e18, e19, e20, e21, e22, e23, e24, e25, e26, e27, e28, e29, no hw 30 rfl, e31, e32, e33, e34⟩

theorem keeps_set_readData {x : State} {a0 : _} (h : Keeps w p x)
    (hw : Sub 0x20 w) : Keeps w p (State.mk x.pending x.now x.arbSeq x.freeCount x.shown a0 x.latches x.regs
      x.mem x.hostMem x.mode x.transition x.deferred x.degrade x.fabric x.sensing x.timeBase x.memSys x.pair
      x.host x.safety x.stalls x.pools x.flash x.boot x.gauge x.swatch x.devLog x.since x.planner x.power
      x.thermal x.wake x.wear x.macTx) := by
  obtain ⟨e1, e2, e3, e4, _, e6, e7, e8, e9, e10, e11, e12, e13, e14, e15, e16, e17, e18, e19, e20, e21, e22, e23, e24, e25, e26, e27, e28, e29, e30, e31, e32, e33, e34⟩ := h.2.2.2.2.2.2.2
  exact ⟨h.1, h.2.1, h.2.2.1, h.2.2.2.1, h.2.2.2.2.1, h.2.2.2.2.2.1, h.2.2.2.2.2.2.1, e1, e2, e3, e4, no hw 5 rfl, e6, e7, e8, e9, e10, e11, e12, e13, e14, e15, e16, e17, e18, e19, e20, e21, e22, e23, e24, e25, e26, e27, e28, e29, e30, e31, e32, e33, e34⟩

theorem keeps_set_regs {x : State} {a0 : _} (h : Keeps w p x)
    (hw : Sub 0x80 w) : Keeps w p (State.mk x.pending x.now x.arbSeq x.freeCount x.shown x.readData x.latches a0
      x.mem x.hostMem x.mode x.transition x.deferred x.degrade x.fabric x.sensing x.timeBase x.memSys x.pair
      x.host x.safety x.stalls x.pools x.flash x.boot x.gauge x.swatch x.devLog x.since x.planner x.power
      x.thermal x.wake x.wear x.macTx) := by
  obtain ⟨e1, e2, e3, e4, e5, e6, _, e8, e9, e10, e11, e12, e13, e14, e15, e16, e17, e18, e19, e20, e21, e22, e23, e24, e25, e26, e27, e28, e29, e30, e31, e32, e33, e34⟩ := h.2.2.2.2.2.2.2
  exact ⟨h.1, h.2.1, h.2.2.1, h.2.2.2.1, h.2.2.2.2.1, h.2.2.2.2.2.1, h.2.2.2.2.2.2.1, e1, e2, e3, e4, e5, e6, no hw 7 rfl, e8, e9, e10, e11, e12, e13, e14, e15, e16, e17, e18, e19, e20, e21, e22, e23, e24, e25, e26, e27, e28, e29, e30, e31, e32, e33, e34⟩

theorem keeps_set_safety {x : State} {a0 : _} (h : Keeps w p x)
    (hw : Sub 0x100000 w) : Keeps w p (State.mk x.pending x.now x.arbSeq x.freeCount x.shown x.readData
      x.latches x.regs x.mem x.hostMem x.mode x.transition x.deferred x.degrade x.fabric x.sensing x.timeBase
      x.memSys x.pair x.host a0 x.stalls x.pools x.flash x.boot x.gauge x.swatch x.devLog x.since x.planner
      x.power x.thermal x.wake x.wear x.macTx) := by
  obtain ⟨e1, e2, e3, e4, e5, e6, e7, e8, e9, e10, e11, e12, e13, e14, e15, e16, e17, e18, e19, _, e21, e22, e23, e24, e25, e26, e27, e28, e29, e30, e31, e32, e33, e34⟩ := h.2.2.2.2.2.2.2
  exact ⟨h.1, h.2.1, h.2.2.1, h.2.2.2.1, h.2.2.2.2.1, h.2.2.2.2.2.1, h.2.2.2.2.2.2.1, e1, e2, e3, e4, e5, e6, e7, e8, e9, e10, e11, e12, e13, e14, e15, e16, e17, e18, e19, no hw 20 rfl, e21, e22, e23, e24, e25, e26, e27, e28, e29, e30, e31, e32, e33, e34⟩

theorem keeps_set_sensing {x : State} {a0 : _} (h : Keeps w p x)
    (hw : Sub 0x8000 w) : Keeps w p (State.mk x.pending x.now x.arbSeq x.freeCount x.shown x.readData x.latches
      x.regs x.mem x.hostMem x.mode x.transition x.deferred x.degrade x.fabric a0 x.timeBase x.memSys x.pair
      x.host x.safety x.stalls x.pools x.flash x.boot x.gauge x.swatch x.devLog x.since x.planner x.power
      x.thermal x.wake x.wear x.macTx) := by
  obtain ⟨e1, e2, e3, e4, e5, e6, e7, e8, e9, e10, e11, e12, e13, e14, _, e16, e17, e18, e19, e20, e21, e22, e23, e24, e25, e26, e27, e28, e29, e30, e31, e32, e33, e34⟩ := h.2.2.2.2.2.2.2
  exact ⟨h.1, h.2.1, h.2.2.1, h.2.2.2.1, h.2.2.2.2.1, h.2.2.2.2.2.1, h.2.2.2.2.2.2.1, e1, e2, e3, e4, e5, e6, e7, e8, e9, e10, e11, e12, e13, e14, no hw 15 rfl, e16, e17, e18, e19, e20, e21, e22, e23, e24, e25, e26, e27, e28, e29, e30, e31, e32, e33, e34⟩

theorem keeps_set_shown {x : State} {a0 : _} (h : Keeps w p x)
    (hw : Sub 0x10 w) : Keeps w p (State.mk x.pending x.now x.arbSeq x.freeCount a0 x.readData x.latches x.regs
      x.mem x.hostMem x.mode x.transition x.deferred x.degrade x.fabric x.sensing x.timeBase x.memSys x.pair
      x.host x.safety x.stalls x.pools x.flash x.boot x.gauge x.swatch x.devLog x.since x.planner x.power
      x.thermal x.wake x.wear x.macTx) := by
  obtain ⟨e1, e2, e3, _, e5, e6, e7, e8, e9, e10, e11, e12, e13, e14, e15, e16, e17, e18, e19, e20, e21, e22, e23, e24, e25, e26, e27, e28, e29, e30, e31, e32, e33, e34⟩ := h.2.2.2.2.2.2.2
  exact ⟨h.1, h.2.1, h.2.2.1, h.2.2.2.1, h.2.2.2.2.1, h.2.2.2.2.2.1, h.2.2.2.2.2.2.1, e1, e2, e3, no hw 4 rfl, e5, e6, e7, e8, e9, e10, e11, e12, e13, e14, e15, e16, e17, e18, e19, e20, e21, e22, e23, e24, e25, e26, e27, e28, e29, e30, e31, e32, e33, e34⟩

theorem keeps_set_since {x : State} {a0 : _} (h : Keeps w p x)
    (hw : Sub 0x10000000 w) : Keeps w p (State.mk x.pending x.now x.arbSeq x.freeCount x.shown x.readData
      x.latches x.regs x.mem x.hostMem x.mode x.transition x.deferred x.degrade x.fabric x.sensing x.timeBase
      x.memSys x.pair x.host x.safety x.stalls x.pools x.flash x.boot x.gauge x.swatch x.devLog a0 x.planner
      x.power x.thermal x.wake x.wear x.macTx) := by
  obtain ⟨e1, e2, e3, e4, e5, e6, e7, e8, e9, e10, e11, e12, e13, e14, e15, e16, e17, e18, e19, e20, e21, e22, e23, e24, e25, e26, e27, _, e29, e30, e31, e32, e33, e34⟩ := h.2.2.2.2.2.2.2
  exact ⟨h.1, h.2.1, h.2.2.1, h.2.2.2.1, h.2.2.2.2.1, h.2.2.2.2.2.1, h.2.2.2.2.2.2.1, e1, e2, e3, e4, e5, e6, e7, e8, e9, e10, e11, e12, e13, e14, e15, e16, e17, e18, e19, e20, e21, e22, e23, e24, e25, e26, e27, no hw 28 rfl, e29, e30, e31, e32, e33, e34⟩

theorem keeps_set_stalls {x : State} {a0 : _} (h : Keeps w p x)
    (hw : Sub 0x200000 w) : Keeps w p (State.mk x.pending x.now x.arbSeq x.freeCount x.shown x.readData
      x.latches x.regs x.mem x.hostMem x.mode x.transition x.deferred x.degrade x.fabric x.sensing x.timeBase
      x.memSys x.pair x.host x.safety a0 x.pools x.flash x.boot x.gauge x.swatch x.devLog x.since x.planner
      x.power x.thermal x.wake x.wear x.macTx) := by
  obtain ⟨e1, e2, e3, e4, e5, e6, e7, e8, e9, e10, e11, e12, e13, e14, e15, e16, e17, e18, e19, e20, _, e22, e23, e24, e25, e26, e27, e28, e29, e30, e31, e32, e33, e34⟩ := h.2.2.2.2.2.2.2
  exact ⟨h.1, h.2.1, h.2.2.1, h.2.2.2.1, h.2.2.2.2.1, h.2.2.2.2.2.1, h.2.2.2.2.2.2.1, e1, e2, e3, e4, e5, e6, e7, e8, e9, e10, e11, e12, e13, e14, e15, e16, e17, e18, e19, e20, no hw 21 rfl, e22, e23, e24, e25, e26, e27, e28, e29, e30, e31, e32, e33, e34⟩

theorem keeps_set_swatch {x : State} {a0 : _} (h : Keeps w p x)
    (hw : Sub 0x4000000 w) : Keeps w p (State.mk x.pending x.now x.arbSeq x.freeCount x.shown x.readData
      x.latches x.regs x.mem x.hostMem x.mode x.transition x.deferred x.degrade x.fabric x.sensing x.timeBase
      x.memSys x.pair x.host x.safety x.stalls x.pools x.flash x.boot x.gauge a0 x.devLog x.since x.planner
      x.power x.thermal x.wake x.wear x.macTx) := by
  obtain ⟨e1, e2, e3, e4, e5, e6, e7, e8, e9, e10, e11, e12, e13, e14, e15, e16, e17, e18, e19, e20, e21, e22, e23, e24, e25, _, e27, e28, e29, e30, e31, e32, e33, e34⟩ := h.2.2.2.2.2.2.2
  exact ⟨h.1, h.2.1, h.2.2.1, h.2.2.2.1, h.2.2.2.2.1, h.2.2.2.2.2.1, h.2.2.2.2.2.2.1, e1, e2, e3, e4, e5, e6, e7, e8, e9, e10, e11, e12, e13, e14, e15, e16, e17, e18, e19, e20, e21, e22, e23, e24, e25, no hw 26 rfl, e27, e28, e29, e30, e31, e32, e33, e34⟩

theorem keeps_set_thermal {x : State} {a0 : _} (h : Keeps w p x)
    (hw : Sub 0x80000000 w) : Keeps w p (State.mk x.pending x.now x.arbSeq x.freeCount x.shown x.readData
      x.latches x.regs x.mem x.hostMem x.mode x.transition x.deferred x.degrade x.fabric x.sensing x.timeBase
      x.memSys x.pair x.host x.safety x.stalls x.pools x.flash x.boot x.gauge x.swatch x.devLog x.since
      x.planner x.power a0 x.wake x.wear x.macTx) := by
  obtain ⟨e1, e2, e3, e4, e5, e6, e7, e8, e9, e10, e11, e12, e13, e14, e15, e16, e17, e18, e19, e20, e21, e22, e23, e24, e25, e26, e27, e28, e29, e30, _, e32, e33, e34⟩ := h.2.2.2.2.2.2.2
  exact ⟨h.1, h.2.1, h.2.2.1, h.2.2.2.1, h.2.2.2.2.1, h.2.2.2.2.2.1, h.2.2.2.2.2.2.1, e1, e2, e3, e4, e5, e6, e7, e8, e9, e10, e11, e12, e13, e14, e15, e16, e17, e18, e19, e20, e21, e22, e23, e24, e25, e26, e27, e28, e29, e30, no hw 31 rfl, e32, e33, e34⟩

theorem keeps_set_timeBase {x : State} {a0 : _} (h : Keeps w p x)
    (hw : Sub 0x10000 w) : Keeps w p (State.mk x.pending x.now x.arbSeq x.freeCount x.shown x.readData x.latches
      x.regs x.mem x.hostMem x.mode x.transition x.deferred x.degrade x.fabric x.sensing a0 x.memSys x.pair
      x.host x.safety x.stalls x.pools x.flash x.boot x.gauge x.swatch x.devLog x.since x.planner x.power
      x.thermal x.wake x.wear x.macTx) := by
  obtain ⟨e1, e2, e3, e4, e5, e6, e7, e8, e9, e10, e11, e12, e13, e14, e15, _, e17, e18, e19, e20, e21, e22, e23, e24, e25, e26, e27, e28, e29, e30, e31, e32, e33, e34⟩ := h.2.2.2.2.2.2.2
  exact ⟨h.1, h.2.1, h.2.2.1, h.2.2.2.1, h.2.2.2.2.1, h.2.2.2.2.2.1, h.2.2.2.2.2.2.1, e1, e2, e3, e4, e5, e6, e7, e8, e9, e10, e11, e12, e13, e14, e15, no hw 16 rfl, e17, e18, e19, e20, e21, e22, e23, e24, e25, e26, e27, e28, e29, e30, e31, e32, e33, e34⟩

theorem keeps_set_transition {x : State} {a0 : _} (h : Keeps w p x)
    (hw : Sub 0x800 w) : Keeps w p (State.mk x.pending x.now x.arbSeq x.freeCount x.shown x.readData x.latches
      x.regs x.mem x.hostMem x.mode a0 x.deferred x.degrade x.fabric x.sensing x.timeBase x.memSys x.pair x.host
      x.safety x.stalls x.pools x.flash x.boot x.gauge x.swatch x.devLog x.since x.planner x.power x.thermal
      x.wake x.wear x.macTx) := by
  obtain ⟨e1, e2, e3, e4, e5, e6, e7, e8, e9, e10, _, e12, e13, e14, e15, e16, e17, e18, e19, e20, e21, e22, e23, e24, e25, e26, e27, e28, e29, e30, e31, e32, e33, e34⟩ := h.2.2.2.2.2.2.2
  exact ⟨h.1, h.2.1, h.2.2.1, h.2.2.2.1, h.2.2.2.2.1, h.2.2.2.2.2.1, h.2.2.2.2.2.2.1, e1, e2, e3, e4, e5, e6, e7, e8, e9, e10, no hw 11 rfl, e12, e13, e14, e15, e16, e17, e18, e19, e20, e21, e22, e23, e24, e25, e26, e27, e28, e29, e30, e31, e32, e33, e34⟩

theorem keeps_set_wake {x : State} {a0 : _} (h : Keeps w p x)
    (hw : Sub 0x100000000 w) : Keeps w p (State.mk x.pending x.now x.arbSeq x.freeCount x.shown x.readData
      x.latches x.regs x.mem x.hostMem x.mode x.transition x.deferred x.degrade x.fabric x.sensing x.timeBase
      x.memSys x.pair x.host x.safety x.stalls x.pools x.flash x.boot x.gauge x.swatch x.devLog x.since
      x.planner x.power x.thermal a0 x.wear x.macTx) := by
  obtain ⟨e1, e2, e3, e4, e5, e6, e7, e8, e9, e10, e11, e12, e13, e14, e15, e16, e17, e18, e19, e20, e21, e22, e23, e24, e25, e26, e27, e28, e29, e30, e31, _, e33, e34⟩ := h.2.2.2.2.2.2.2
  exact ⟨h.1, h.2.1, h.2.2.1, h.2.2.2.1, h.2.2.2.2.1, h.2.2.2.2.2.1, h.2.2.2.2.2.2.1, e1, e2, e3, e4, e5, e6, e7, e8, e9, e10, e11, e12, e13, e14, e15, e16, e17, e18, e19, e20, e21, e22, e23, e24, e25, e26, e27, e28, e29, e30, e31, no hw 32 rfl, e33, e34⟩

theorem keeps_set_wear {x : State} {a0 : _} (h : Keeps w p x)
    (hw : Sub 0x200000000 w) : Keeps w p (State.mk x.pending x.now x.arbSeq x.freeCount x.shown x.readData
      x.latches x.regs x.mem x.hostMem x.mode x.transition x.deferred x.degrade x.fabric x.sensing x.timeBase
      x.memSys x.pair x.host x.safety x.stalls x.pools x.flash x.boot x.gauge x.swatch x.devLog x.since
      x.planner x.power x.thermal x.wake a0 x.macTx) := by
  obtain ⟨e1, e2, e3, e4, e5, e6, e7, e8, e9, e10, e11, e12, e13, e14, e15, e16, e17, e18, e19, e20, e21, e22, e23, e24, e25, e26, e27, e28, e29, e30, e31, e32, _, e34⟩ := h.2.2.2.2.2.2.2
  exact ⟨h.1, h.2.1, h.2.2.1, h.2.2.2.1, h.2.2.2.2.1, h.2.2.2.2.2.1, h.2.2.2.2.2.2.1, e1, e2, e3, e4, e5, e6, e7, e8, e9, e10, e11, e12, e13, e14, e15, e16, e17, e18, e19, e20, e21, e22, e23, e24, e25, e26, e27, e28, e29, e30, e31, e32, no hw 33 rfl, e34⟩

theorem keeps_set_degrade_safety {x : State} {a0 a1 : _} (h : Keeps w p x)
    (hw : Sub 0x102000 w) : Keeps w p (State.mk x.pending x.now x.arbSeq x.freeCount x.shown x.readData
      x.latches x.regs x.mem x.hostMem x.mode x.transition x.deferred a0 x.fabric x.sensing x.timeBase x.memSys
      x.pair x.host a1 x.stalls x.pools x.flash x.boot x.gauge x.swatch x.devLog x.since x.planner x.power
      x.thermal x.wake x.wear x.macTx) := by
  obtain ⟨e1, e2, e3, e4, e5, e6, e7, e8, e9, e10, e11, e12, _, e14, e15, e16, e17, e18, e19, _, e21, e22, e23, e24, e25, e26, e27, e28, e29, e30, e31, e32, e33, e34⟩ := h.2.2.2.2.2.2.2
  exact ⟨h.1, h.2.1, h.2.2.1, h.2.2.2.1, h.2.2.2.2.1, h.2.2.2.2.2.1, h.2.2.2.2.2.2.1, e1, e2, e3, e4, e5, e6, e7, e8, e9, e10, e11, e12, no hw 13 rfl, e14, e15, e16, e17, e18, e19, no hw 20 rfl, e21, e22, e23, e24, e25, e26, e27, e28, e29, e30, e31, e32, e33, e34⟩

theorem keeps_set_fabric_pair {x : State} {a0 a1 : _} (h : Keeps w p x)
    (hw : Sub 0x44000 w) : Keeps w p (State.mk x.pending x.now x.arbSeq x.freeCount x.shown x.readData x.latches
      x.regs x.mem x.hostMem x.mode x.transition x.deferred x.degrade a0 x.sensing x.timeBase x.memSys a1 x.host
      x.safety x.stalls x.pools x.flash x.boot x.gauge x.swatch x.devLog x.since x.planner x.power x.thermal
      x.wake x.wear x.macTx) := by
  obtain ⟨e1, e2, e3, e4, e5, e6, e7, e8, e9, e10, e11, e12, e13, _, e15, e16, e17, _, e19, e20, e21, e22, e23, e24, e25, e26, e27, e28, e29, e30, e31, e32, e33, e34⟩ := h.2.2.2.2.2.2.2
  exact ⟨h.1, h.2.1, h.2.2.1, h.2.2.2.1, h.2.2.2.2.1, h.2.2.2.2.2.1, h.2.2.2.2.2.2.1, e1, e2, e3, e4, e5, e6, e7, e8, e9, e10, e11, e12, e13, no hw 14 rfl, e15, e16, e17, no hw 18 rfl, e19, e20, e21, e22, e23, e24, e25, e26, e27, e28, e29, e30, e31, e32, e33, e34⟩

theorem keeps_set_pair_gauge {x : State} {a0 a1 : _} (h : Keeps w p x)
    (hw : Sub 0x2040000 w) : Keeps w p (State.mk x.pending x.now x.arbSeq x.freeCount x.shown x.readData
      x.latches x.regs x.mem x.hostMem x.mode x.transition x.deferred x.degrade x.fabric x.sensing x.timeBase
      x.memSys a0 x.host x.safety x.stalls x.pools x.flash x.boot a1 x.swatch x.devLog x.since x.planner x.power
      x.thermal x.wake x.wear x.macTx) := by
  obtain ⟨e1, e2, e3, e4, e5, e6, e7, e8, e9, e10, e11, e12, e13, e14, e15, e16, e17, _, e19, e20, e21, e22, e23, e24, _, e26, e27, e28, e29, e30, e31, e32, e33, e34⟩ := h.2.2.2.2.2.2.2
  exact ⟨h.1, h.2.1, h.2.2.1, h.2.2.2.1, h.2.2.2.2.1, h.2.2.2.2.2.1, h.2.2.2.2.2.2.1, e1, e2, e3, e4, e5, e6, e7, e8, e9, e10, e11, e12, e13, e14, e15, e16, e17, no hw 18 rfl, e19, e20, e21, e22, e23, e24, no hw 25 rfl, e26, e27, e28, e29, e30, e31, e32, e33, e34⟩

theorem keeps_set_power_thermal {x : State} {a0 a1 : _} (h : Keeps w p x)
    (hw : Sub 0xc0000000 w) : Keeps w p (State.mk x.pending x.now x.arbSeq x.freeCount x.shown x.readData
      x.latches x.regs x.mem x.hostMem x.mode x.transition x.deferred x.degrade x.fabric x.sensing x.timeBase
      x.memSys x.pair x.host x.safety x.stalls x.pools x.flash x.boot x.gauge x.swatch x.devLog x.since
      x.planner a0 a1 x.wake x.wear x.macTx) := by
  obtain ⟨e1, e2, e3, e4, e5, e6, e7, e8, e9, e10, e11, e12, e13, e14, e15, e16, e17, e18, e19, e20, e21, e22, e23, e24, e25, e26, e27, e28, e29, _, _, e32, e33, e34⟩ := h.2.2.2.2.2.2.2
  exact ⟨h.1, h.2.1, h.2.2.1, h.2.2.2.1, h.2.2.2.2.1, h.2.2.2.2.2.1, h.2.2.2.2.2.2.1, e1, e2, e3, e4, e5, e6, e7, e8, e9, e10, e11, e12, e13, e14, e15, e16, e17, e18, e19, e20, e21, e22, e23, e24, e25, e26, e27, e28, e29, no hw 30 rfl, no hw 31 rfl, e32, e33, e34⟩

theorem keeps_set_safety_thermal {x : State} {a0 a1 : _} (h : Keeps w p x)
    (hw : Sub 0x80100000 w) : Keeps w p (State.mk x.pending x.now x.arbSeq x.freeCount x.shown x.readData
      x.latches x.regs x.mem x.hostMem x.mode x.transition x.deferred x.degrade x.fabric x.sensing x.timeBase
      x.memSys x.pair x.host a0 x.stalls x.pools x.flash x.boot x.gauge x.swatch x.devLog x.since x.planner
      x.power a1 x.wake x.wear x.macTx) := by
  obtain ⟨e1, e2, e3, e4, e5, e6, e7, e8, e9, e10, e11, e12, e13, e14, e15, e16, e17, e18, e19, _, e21, e22, e23, e24, e25, e26, e27, e28, e29, e30, _, e32, e33, e34⟩ := h.2.2.2.2.2.2.2
  exact ⟨h.1, h.2.1, h.2.2.1, h.2.2.2.1, h.2.2.2.2.1, h.2.2.2.2.2.1, h.2.2.2.2.2.2.1, e1, e2, e3, e4, e5, e6, e7, e8, e9, e10, e11, e12, e13, e14, e15, e16, e17, e18, e19, no hw 20 rfl, e21, e22, e23, e24, e25, e26, e27, e28, e29, e30, no hw 31 rfl, e32, e33, e34⟩

theorem keeps_set_stalls_boot {x : State} {a0 a1 : _} (h : Keeps w p x)
    (hw : Sub 0x1200000 w) : Keeps w p (State.mk x.pending x.now x.arbSeq x.freeCount x.shown x.readData
      x.latches x.regs x.mem x.hostMem x.mode x.transition x.deferred x.degrade x.fabric x.sensing x.timeBase
      x.memSys x.pair x.host x.safety a0 x.pools x.flash a1 x.gauge x.swatch x.devLog x.since x.planner x.power
      x.thermal x.wake x.wear x.macTx) := by
  obtain ⟨e1, e2, e3, e4, e5, e6, e7, e8, e9, e10, e11, e12, e13, e14, e15, e16, e17, e18, e19, e20, _, e22, e23, _, e25, e26, e27, e28, e29, e30, e31, e32, e33, e34⟩ := h.2.2.2.2.2.2.2
  exact ⟨h.1, h.2.1, h.2.2.1, h.2.2.2.1, h.2.2.2.2.1, h.2.2.2.2.2.1, h.2.2.2.2.2.2.1, e1, e2, e3, e4, e5, e6, e7, e8, e9, e10, e11, e12, e13, e14, e15, e16, e17, e18, e19, e20, no hw 21 rfl, e22, e23, no hw 24 rfl, e25, e26, e27, e28, e29, e30, e31, e32, e33, e34⟩

theorem keeps_set_swatch_power {x : State} {a0 a1 : _} (h : Keeps w p x)
    (hw : Sub 0x44000000 w) : Keeps w p (State.mk x.pending x.now x.arbSeq x.freeCount x.shown x.readData
      x.latches x.regs x.mem x.hostMem x.mode x.transition x.deferred x.degrade x.fabric x.sensing x.timeBase
      x.memSys x.pair x.host x.safety x.stalls x.pools x.flash x.boot x.gauge a0 x.devLog x.since x.planner a1
      x.thermal x.wake x.wear x.macTx) := by
  obtain ⟨e1, e2, e3, e4, e5, e6, e7, e8, e9, e10, e11, e12, e13, e14, e15, e16, e17, e18, e19, e20, e21, e22, e23, e24, e25, _, e27, e28, e29, _, e31, e32, e33, e34⟩ := h.2.2.2.2.2.2.2
  exact ⟨h.1, h.2.1, h.2.2.1, h.2.2.2.1, h.2.2.2.2.1, h.2.2.2.2.2.1, h.2.2.2.2.2.2.1, e1, e2, e3, e4, e5, e6, e7, e8, e9, e10, e11, e12, e13, e14, e15, e16, e17, e18, e19, e20, e21, e22, e23, e24, e25, no hw 26 rfl, e27, e28, e29, no hw 30 rfl, e31, e32, e33, e34⟩

theorem keeps_set_timeBase_wake {x : State} {a0 a1 : _} (h : Keeps w p x)
    (hw : Sub 0x100010000 w) : Keeps w p (State.mk x.pending x.now x.arbSeq x.freeCount x.shown x.readData
      x.latches x.regs x.mem x.hostMem x.mode x.transition x.deferred x.degrade x.fabric x.sensing a0 x.memSys
      x.pair x.host x.safety x.stalls x.pools x.flash x.boot x.gauge x.swatch x.devLog x.since x.planner x.power
      x.thermal a1 x.wear x.macTx) := by
  obtain ⟨e1, e2, e3, e4, e5, e6, e7, e8, e9, e10, e11, e12, e13, e14, e15, _, e17, e18, e19, e20, e21, e22, e23, e24, e25, e26, e27, e28, e29, e30, e31, _, e33, e34⟩ := h.2.2.2.2.2.2.2
  exact ⟨h.1, h.2.1, h.2.2.1, h.2.2.2.1, h.2.2.2.2.1, h.2.2.2.2.2.1, h.2.2.2.2.2.2.1, e1, e2, e3, e4, e5, e6, e7, e8, e9, e10, e11, e12, e13, e14, e15, no hw 16 rfl, e17, e18, e19, e20, e21, e22, e23, e24, e25, e26, e27, e28, e29, e30, e31, no hw 32 rfl, e33, e34⟩

theorem keeps_set_transition_boot {x : State} {a0 a1 : _} (h : Keeps w p x)
    (hw : Sub 0x1000800 w) : Keeps w p (State.mk x.pending x.now x.arbSeq x.freeCount x.shown x.readData
      x.latches x.regs x.mem x.hostMem x.mode a0 x.deferred x.degrade x.fabric x.sensing x.timeBase x.memSys
      x.pair x.host x.safety x.stalls x.pools x.flash a1 x.gauge x.swatch x.devLog x.since x.planner x.power
      x.thermal x.wake x.wear x.macTx) := by
  obtain ⟨e1, e2, e3, e4, e5, e6, e7, e8, e9, e10, _, e12, e13, e14, e15, e16, e17, e18, e19, e20, e21, e22, e23, _, e25, e26, e27, e28, e29, e30, e31, e32, e33, e34⟩ := h.2.2.2.2.2.2.2
  exact ⟨h.1, h.2.1, h.2.2.1, h.2.2.2.1, h.2.2.2.2.1, h.2.2.2.2.2.1, h.2.2.2.2.2.2.1, e1, e2, e3, e4, e5, e6, e7, e8, e9, e10, no hw 11 rfl, e12, e13, e14, e15, e16, e17, e18, e19, e20, e21, e22, e23, no hw 24 rfl, e25, e26, e27, e28, e29, e30, e31, e32, e33, e34⟩

theorem keeps_set_transition_since {x : State} {a0 a1 : _} (h : Keeps w p x)
    (hw : Sub 0x10000800 w) : Keeps w p (State.mk x.pending x.now x.arbSeq x.freeCount x.shown x.readData
      x.latches x.regs x.mem x.hostMem x.mode a0 x.deferred x.degrade x.fabric x.sensing x.timeBase x.memSys
      x.pair x.host x.safety x.stalls x.pools x.flash x.boot x.gauge x.swatch x.devLog a1 x.planner x.power
      x.thermal x.wake x.wear x.macTx) := by
  obtain ⟨e1, e2, e3, e4, e5, e6, e7, e8, e9, e10, _, e12, e13, e14, e15, e16, e17, e18, e19, e20, e21, e22, e23, e24, e25, e26, e27, _, e29, e30, e31, e32, e33, e34⟩ := h.2.2.2.2.2.2.2
  exact ⟨h.1, h.2.1, h.2.2.1, h.2.2.2.1, h.2.2.2.2.1, h.2.2.2.2.2.1, h.2.2.2.2.2.2.1, e1, e2, e3, e4, e5, e6, e7, e8, e9, e10, no hw 11 rfl, e12, e13, e14, e15, e16, e17, e18, e19, e20, e21, e22, e23, e24, e25, e26, e27, no hw 28 rfl, e29, e30, e31, e32, e33, e34⟩

theorem keeps_set_transition_wake {x : State} {a0 a1 : _} (h : Keeps w p x)
    (hw : Sub 0x100000800 w) : Keeps w p (State.mk x.pending x.now x.arbSeq x.freeCount x.shown x.readData
      x.latches x.regs x.mem x.hostMem x.mode a0 x.deferred x.degrade x.fabric x.sensing x.timeBase x.memSys
      x.pair x.host x.safety x.stalls x.pools x.flash x.boot x.gauge x.swatch x.devLog x.since x.planner x.power
      x.thermal a1 x.wear x.macTx) := by
  obtain ⟨e1, e2, e3, e4, e5, e6, e7, e8, e9, e10, _, e12, e13, e14, e15, e16, e17, e18, e19, e20, e21, e22, e23, e24, e25, e26, e27, e28, e29, e30, e31, _, e33, e34⟩ := h.2.2.2.2.2.2.2
  exact ⟨h.1, h.2.1, h.2.2.1, h.2.2.2.1, h.2.2.2.2.1, h.2.2.2.2.2.1, h.2.2.2.2.2.2.1, e1, e2, e3, e4, e5, e6, e7, e8, e9, e10, no hw 11 rfl, e12, e13, e14, e15, e16, e17, e18, e19, e20, e21, e22, e23, e24, e25, e26, e27, e28, e29, e30, e31, no hw 32 rfl, e33, e34⟩

theorem keeps_set_transition_since_wake {x : State} {a0 a1 a2 : _} (h : Keeps w p x)
    (hw : Sub 0x110000800 w) : Keeps w p (State.mk x.pending x.now x.arbSeq x.freeCount x.shown x.readData
      x.latches x.regs x.mem x.hostMem x.mode a0 x.deferred x.degrade x.fabric x.sensing x.timeBase x.memSys
      x.pair x.host x.safety x.stalls x.pools x.flash x.boot x.gauge x.swatch x.devLog a1 x.planner x.power
      x.thermal a2 x.wear x.macTx) := by
  obtain ⟨e1, e2, e3, e4, e5, e6, e7, e8, e9, e10, _, e12, e13, e14, e15, e16, e17, e18, e19, e20, e21, e22, e23, e24, e25, e26, e27, _, e29, e30, e31, _, e33, e34⟩ := h.2.2.2.2.2.2.2
  exact ⟨h.1, h.2.1, h.2.2.1, h.2.2.2.1, h.2.2.2.2.1, h.2.2.2.2.2.1, h.2.2.2.2.2.2.1, e1, e2, e3, e4, e5, e6, e7, e8, e9, e10, no hw 11 rfl, e12, e13, e14, e15, e16, e17, e18, e19, e20, e21, e22, e23, e24, e25, e26, e27, no hw 28 rfl, e29, e30, e31, no hw 32 rfl, e33, e34⟩

theorem keeps_set_mode_transition_degrade_since {x : State} {a0 a1 a2 a3 : _} (h : Keeps w p x)
    (hw : Sub 0x10002c00 w) : Keeps w p (State.mk x.pending x.now x.arbSeq x.freeCount x.shown x.readData
      x.latches x.regs x.mem x.hostMem a0 a1 x.deferred a2 x.fabric x.sensing x.timeBase x.memSys x.pair x.host
      x.safety x.stalls x.pools x.flash x.boot x.gauge x.swatch x.devLog a3 x.planner x.power x.thermal x.wake
      x.wear x.macTx) := by
  obtain ⟨e1, e2, e3, e4, e5, e6, e7, e8, e9, _, _, e12, _, e14, e15, e16, e17, e18, e19, e20, e21, e22, e23, e24, e25, e26, e27, _, e29, e30, e31, e32, e33, e34⟩ := h.2.2.2.2.2.2.2
  exact ⟨h.1, h.2.1, h.2.2.1, h.2.2.2.1, h.2.2.2.2.1, h.2.2.2.2.2.1, h.2.2.2.2.2.2.1, e1, e2, e3, e4, e5, e6, e7, e8, e9, no hw 10 rfl, no hw 11 rfl, e12, no hw 13 rfl, e14, e15, e16, e17, e18, e19, e20, e21, e22, e23, e24, e25, e26, e27, no hw 28 rfl, e29, e30, e31, e32, e33, e34⟩

theorem keeps_set_mode_transition_since_wake {x : State} {a0 a1 a2 a3 : _} (h : Keeps w p x)
    (hw : Sub 0x110000c00 w) : Keeps w p (State.mk x.pending x.now x.arbSeq x.freeCount x.shown x.readData
      x.latches x.regs x.mem x.hostMem a0 a1 x.deferred x.degrade x.fabric x.sensing x.timeBase x.memSys x.pair
      x.host x.safety x.stalls x.pools x.flash x.boot x.gauge x.swatch x.devLog a2 x.planner x.power x.thermal
      a3 x.wear x.macTx) := by
  obtain ⟨e1, e2, e3, e4, e5, e6, e7, e8, e9, _, _, e12, e13, e14, e15, e16, e17, e18, e19, e20, e21, e22, e23, e24, e25, e26, e27, _, e29, e30, e31, _, e33, e34⟩ := h.2.2.2.2.2.2.2
  exact ⟨h.1, h.2.1, h.2.2.1, h.2.2.2.1, h.2.2.2.2.1, h.2.2.2.2.2.1, h.2.2.2.2.2.2.1, e1, e2, e3, e4, e5, e6, e7, e8, e9, no hw 10 rfl, no hw 11 rfl, e12, e13, e14, e15, e16, e17, e18, e19, e20, e21, e22, e23, e24, e25, e26, e27, no hw 28 rfl, e29, e30, e31, no hw 32 rfl, e33, e34⟩

theorem keeps_set_most {x : State} {a0 a1 a2 a3 a4 a5 a6 a7 a8 a9 a10 a11 a12 a13 a14 a15 a16 a17 a18 : _} (h : Keeps w p x)
    (hw : Sub 0x4ef7ed0c0 w) : Keeps w p (State.mk x.pending x.now x.arbSeq x.freeCount x.shown x.readData a0 a1
      x.mem x.hostMem x.mode x.transition a2 x.degrade a3 a4 x.timeBase a5 a6 a7 a8 a9 a10 x.flash a11 a12 a13
      a14 x.since a15 a16 a17 x.wake x.wear a18) := by
  obtain ⟨e1, e2, e3, e4, e5, _, _, e8, e9, e10, e11, _, e13, _, _, e16, _, _, _, _, _, _, e23, _, _, _, _, e28, _, _, _, e32, e33, _⟩ := h.2.2.2.2.2.2.2
  exact ⟨h.1, h.2.1, h.2.2.1, h.2.2.2.1, h.2.2.2.2.1, h.2.2.2.2.2.1, h.2.2.2.2.2.2.1, e1, e2, e3, e4, e5, no hw 6 rfl, no hw 7 rfl, e8, e9, e10, e11, no hw 12 rfl, e13, no hw 14 rfl, no hw 15 rfl, e16, no hw 17 rfl, no hw 18 rfl, no hw 19 rfl, no hw 20 rfl, no hw 21 rfl, no hw 22 rfl, e23, no hw 24 rfl, no hw 25 rfl, no hw 26 rfl, no hw 27 rfl, e28, no hw 29 rfl, no hw 30 rfl, no hw 31 rfl, e32, e33, no hw 34 rfl⟩

theorem keeps_memFilter {x : State} {q : Nat × Byte → Bool} (h : Keeps w p x)
    (hw : Sub 0x100 w) : Keeps w p (State.mk x.pending x.now x.arbSeq x.freeCount x.shown x.readData x.latches
      x.regs (x.mem.filter q) x.hostMem x.mode x.transition x.deferred x.degrade x.fabric x.sensing x.timeBase
      x.memSys x.pair x.host x.safety x.stalls x.pools x.flash x.boot x.gauge x.swatch x.devLog x.since
      x.planner x.power x.thermal x.wake x.wear x.macTx) := by
  obtain ⟨e1, e2, e3, e4, e5, e6, e7, _, e9, e10, e11, e12, e13, e14, e15, e16, e17, e18, e19, e20, e21, e22, e23, e24, e25, e26, e27, e28, e29, e30, e31, e32, e33, e34⟩ := h.2.2.2.2.2.2.2
  exact ⟨h.1, h.2.1, h.2.2.1, fun v => wf_filter _ _ _ (h.2.2.2.1 v), h.2.2.2.2.1, h.2.2.2.2.2.1, h.2.2.2.2.2.2.1, e1, e2, e3, e4, e5, e6, e7, no hw 8 rfl, e9, e10, e11, e12, e13, e14, e15, e16, e17, e18, e19, e20, e21, e22, e23, e24, e25, e26, e27, e28, e29, e30, e31, e32, e33, e34⟩

theorem keeps_memFilterFabric {x : State} {q : Nat × Byte → Bool} {a0 : _} (h : Keeps w p x)
    (hw : Sub 0x4100 w) : Keeps w p (State.mk x.pending x.now x.arbSeq x.freeCount x.shown x.readData x.latches
      x.regs (x.mem.filter q) x.hostMem x.mode x.transition x.deferred x.degrade a0 x.sensing x.timeBase
      x.memSys x.pair x.host x.safety x.stalls x.pools x.flash x.boot x.gauge x.swatch x.devLog x.since
      x.planner x.power x.thermal x.wake x.wear x.macTx) := by
  obtain ⟨e1, e2, e3, e4, e5, e6, e7, _, e9, e10, e11, e12, e13, _, e15, e16, e17, e18, e19, e20, e21, e22, e23, e24, e25, e26, e27, e28, e29, e30, e31, e32, e33, e34⟩ := h.2.2.2.2.2.2.2
  exact ⟨h.1, h.2.1, h.2.2.1, fun v => wf_filter _ _ _ (h.2.2.2.1 v), h.2.2.2.2.1, h.2.2.2.2.2.1, h.2.2.2.2.2.2.1, e1, e2, e3, e4, e5, e6, e7, no hw 8 rfl, e9, e10, e11, e12, e13, no hw 14 rfl, e15, e16, e17, e18, e19, e20, e21, e22, e23, e24, e25, e26, e27, e28, e29, e30, e31, e32, e33, e34⟩

theorem keeps_memZero {x : State} {b n : Nat} (h : Keeps w p x)
    (hw : Sub 0x100 w) : Keeps w p (State.mk x.pending x.now x.arbSeq x.freeCount x.shown x.readData x.latches
      x.regs (zeroBytes x.mem b n) x.hostMem x.mode x.transition x.deferred x.degrade x.fabric x.sensing
      x.timeBase x.memSys x.pair x.host x.safety x.stalls x.pools x.flash x.boot x.gauge x.swatch x.devLog
      x.since x.planner x.power x.thermal x.wake x.wear x.macTx) := by
  obtain ⟨e1, e2, e3, e4, e5, e6, e7, _, e9, e10, e11, e12, e13, e14, e15, e16, e17, e18, e19, e20, e21, e22, e23, e24, e25, e26, e27, e28, e29, e30, e31, e32, e33, e34⟩ := h.2.2.2.2.2.2.2
  exact ⟨h.1, h.2.1, h.2.2.1, fun v => wf_zeroBytes _ _ _ (h.2.2.2.1 v), h.2.2.2.2.1, h.2.2.2.2.2.1, h.2.2.2.2.2.2.1, e1, e2, e3, e4, e5, e6, e7, no hw 8 rfl, e9, e10, e11, e12, e13, e14, e15, e16, e17, e18, e19, e20, e21, e22, e23, e24, e25, e26, e27, e28, e29, e30, e31, e32, e33, e34⟩

theorem keeps_memNil {x : State} (h : Keeps w p x)
    (hw : Sub 0x100 w) : Keeps w p (State.mk x.pending x.now x.arbSeq x.freeCount x.shown x.readData x.latches
      x.regs [] x.hostMem x.mode x.transition x.deferred x.degrade x.fabric x.sensing x.timeBase x.memSys x.pair
      x.host x.safety x.stalls x.pools x.flash x.boot x.gauge x.swatch x.devLog x.since x.planner x.power
      x.thermal x.wake x.wear x.macTx) := by
  obtain ⟨e1, e2, e3, e4, e5, e6, e7, _, e9, e10, e11, e12, e13, e14, e15, e16, e17, e18, e19, e20, e21, e22, e23, e24, e25, e26, e27, e28, e29, e30, e31, e32, e33, e34⟩ := h.2.2.2.2.2.2.2
  exact ⟨h.1, h.2.1, h.2.2.1, fun _ => rfl, h.2.2.2.2.1, h.2.2.2.2.2.1, h.2.2.2.2.2.2.1, e1, e2, e3, e4, e5, e6, e7, no hw 8 rfl, e9, e10, e11, e12, e13, e14, e15, e16, e17, e18, e19, e20, e21, e22, e23, e24, e25, e26, e27, e28, e29, e30, e31, e32, e33, e34⟩

theorem keeps_memNilBoot {x : State} {a0 a1 : _} (h : Keeps w p x)
    (hw : Sub 0x1100100 w) : Keeps w p (State.mk x.pending x.now x.arbSeq x.freeCount x.shown x.readData
      x.latches x.regs [] x.hostMem x.mode x.transition x.deferred x.degrade x.fabric x.sensing x.timeBase
      x.memSys x.pair x.host a0 x.stalls x.pools x.flash a1 x.gauge x.swatch x.devLog x.since x.planner x.power
      x.thermal x.wake x.wear x.macTx) := by
  obtain ⟨e1, e2, e3, e4, e5, e6, e7, _, e9, e10, e11, e12, e13, e14, e15, e16, e17, e18, e19, _, e21, e22, e23, _, e25, e26, e27, e28, e29, e30, e31, e32, e33, e34⟩ := h.2.2.2.2.2.2.2
  exact ⟨h.1, h.2.1, h.2.2.1, fun _ => rfl, h.2.2.2.2.1, h.2.2.2.2.2.1, h.2.2.2.2.2.2.1, e1, e2, e3, e4, e5, e6, e7, no hw 8 rfl, e9, e10, e11, e12, e13, e14, e15, e16, e17, e18, e19, no hw 20 rfl, e21, e22, e23, no hw 24 rfl, e25, e26, e27, e28, e29, e30, e31, e32, e33, e34⟩

theorem keeps_memInto {x : State} {src : Source} {b n : Nat} (h : Keeps w p x)
    (hw : Sub 0x100 w) : Keeps w p (State.mk x.pending x.now x.arbSeq x.freeCount x.shown x.readData x.latches
      x.regs (src.into x.mem b n) x.hostMem x.mode x.transition x.deferred x.degrade x.fabric x.sensing
      x.timeBase x.memSys x.pair x.host x.safety x.stalls x.pools x.flash x.boot x.gauge x.swatch x.devLog
      x.since x.planner x.power x.thermal x.wake x.wear x.macTx) := by
  obtain ⟨e1, e2, e3, e4, e5, e6, e7, _, e9, e10, e11, e12, e13, e14, e15, e16, e17, e18, e19, e20, e21, e22, e23, e24, e25, e26, e27, e28, e29, e30, e31, e32, e33, e34⟩ := h.2.2.2.2.2.2.2
  exact ⟨h.1, h.2.1, h.2.2.1, fun v => wf_into _ _ _ _ (h.2.2.2.1 v), h.2.2.2.2.1, h.2.2.2.2.2.1, h.2.2.2.2.2.2.1, e1, e2, e3, e4, e5, e6, e7, no hw 8 rfl, e9, e10, e11, e12, e13, e14, e15, e16, e17, e18, e19, e20, e21, e22, e23, e24, e25, e26, e27, e28, e29, e30, e31, e32, e33, e34⟩

theorem keeps_memCopy {x : State} {src : Tbl Byte} {b c n : Nat} (h : Keeps w p x)
    (hw : Sub 0x100 w) : Keeps w p (State.mk x.pending x.now x.arbSeq x.freeCount x.shown x.readData x.latches
      x.regs (copyBytes src b x.mem c n) x.hostMem x.mode x.transition x.deferred x.degrade x.fabric x.sensing
      x.timeBase x.memSys x.pair x.host x.safety x.stalls x.pools x.flash x.boot x.gauge x.swatch x.devLog
      x.since x.planner x.power x.thermal x.wake x.wear x.macTx) := by
  obtain ⟨e1, e2, e3, e4, e5, e6, e7, _, e9, e10, e11, e12, e13, e14, e15, e16, e17, e18, e19, e20, e21, e22, e23, e24, e25, e26, e27, e28, e29, e30, e31, e32, e33, e34⟩ := h.2.2.2.2.2.2.2
  exact ⟨h.1, h.2.1, h.2.2.1, fun v => wf_copyBytes _ _ _ _ _ (h.2.2.2.1 v), h.2.2.2.2.1, h.2.2.2.2.2.1, h.2.2.2.2.2.2.1, e1, e2, e3, e4, e5, e6, e7, no hw 8 rfl, e9, e10, e11, e12, e13, e14, e15, e16, e17, e18, e19, e20, e21, e22, e23, e24, e25, e26, e27, e28, e29, e30, e31, e32, e33, e34⟩

theorem keeps_memWrite {x : State} {b : Nat} {l : List Byte} (h : Keeps w p x)
    (hw : Sub 0x100 w) : Keeps w p (State.mk x.pending x.now x.arbSeq x.freeCount x.shown x.readData x.latches
      x.regs (writeBytes x.mem b l) x.hostMem x.mode x.transition x.deferred x.degrade x.fabric x.sensing
      x.timeBase x.memSys x.pair x.host x.safety x.stalls x.pools x.flash x.boot x.gauge x.swatch x.devLog
      x.since x.planner x.power x.thermal x.wake x.wear x.macTx) := by
  obtain ⟨e1, e2, e3, e4, e5, e6, e7, _, e9, e10, e11, e12, e13, e14, e15, e16, e17, e18, e19, e20, e21, e22, e23, e24, e25, e26, e27, e28, e29, e30, e31, e32, e33, e34⟩ := h.2.2.2.2.2.2.2
  exact ⟨h.1, h.2.1, h.2.2.1, fun v => wf_writeBytes _ _ _ (h.2.2.2.1 v), h.2.2.2.2.1, h.2.2.2.2.2.1, h.2.2.2.2.2.2.1, e1, e2, e3, e4, e5, e6, e7, no hw 8 rfl, e9, e10, e11, e12, e13, e14, e15, e16, e17, e18, e19, e20, e21, e22, e23, e24, e25, e26, e27, e28, e29, e30, e31, e32, e33, e34⟩

theorem keeps_memWrites {x : State} {α : Type} {l : List α} {f : α → Nat} {g : α → List Byte} (h : Keeps w p x)
    (hw : Sub 0x100 w) : Keeps w p (State.mk x.pending x.now x.arbSeq x.freeCount x.shown x.readData x.latches
      x.regs (l.foldl (fun t e => writeBytes t (f e) (g e)) x.mem) x.hostMem x.mode x.transition x.deferred
      x.degrade x.fabric x.sensing x.timeBase x.memSys x.pair x.host x.safety x.stalls x.pools x.flash x.boot
      x.gauge x.swatch x.devLog x.since x.planner x.power x.thermal x.wake x.wear x.macTx) := by
  obtain ⟨e1, e2, e3, e4, e5, e6, e7, _, e9, e10, e11, e12, e13, e14, e15, e16, e17, e18, e19, e20, e21, e22, e23, e24, e25, e26, e27, e28, e29, e30, e31, e32, e33, e34⟩ := h.2.2.2.2.2.2.2
  exact ⟨h.1, h.2.1, h.2.2.1, fun v => wf_foldlWrite _ (h.2.2.2.1 v), h.2.2.2.2.1, h.2.2.2.2.2.1, h.2.2.2.2.2.2.1, e1, e2, e3, e4, e5, e6, e7, no hw 8 rfl, e9, e10, e11, e12, e13, e14, e15, e16, e17, e18, e19, e20, e21, e22, e23, e24, e25, e26, e27, e28, e29, e30, e31, e32, e33, e34⟩

theorem keeps_memOverlay {x : State} {t : Tbl (Option Byte)} (h : Keeps w p x)
    (hw : Sub 0x100 w) : Keeps w p (State.mk x.pending x.now x.arbSeq x.freeCount x.shown x.readData x.latches
      x.regs (t.foldl (fun m e => match e.2 with | some b => Tbl.set 0 m e.1 b | none => m) x.mem) x.hostMem
      x.mode x.transition x.deferred x.degrade x.fabric x.sensing x.timeBase x.memSys x.pair x.host x.safety
      x.stalls x.pools x.flash x.boot x.gauge x.swatch x.devLog x.since x.planner x.power x.thermal x.wake
      x.wear x.macTx) := by
  obtain ⟨e1, e2, e3, e4, e5, e6, e7, _, e9, e10, e11, e12, e13, e14, e15, e16, e17, e18, e19, e20, e21, e22, e23, e24, e25, e26, e27, e28, e29, e30, e31, e32, e33, e34⟩ := h.2.2.2.2.2.2.2
  exact ⟨h.1, h.2.1, h.2.2.1, fun v => wf_overlay _ _ (h.2.2.2.1 v), h.2.2.2.2.1, h.2.2.2.2.2.1, h.2.2.2.2.2.2.1, e1, e2, e3, e4, e5, e6, e7, no hw 8 rfl, e9, e10, e11, e12, e13, e14, e15, e16, e17, e18, e19, e20, e21, e22, e23, e24, e25, e26, e27, e28, e29, e30, e31, e32, e33, e34⟩

theorem keeps_hostInto {x : State} {src : Source} {b n : Nat} (h : Keeps w p x)
    (hw : Sub 0x200 w) : Keeps w p (State.mk x.pending x.now x.arbSeq x.freeCount x.shown x.readData x.latches
      x.regs x.mem (src.into x.hostMem b n) x.mode x.transition x.deferred x.degrade x.fabric x.sensing
      x.timeBase x.memSys x.pair x.host x.safety x.stalls x.pools x.flash x.boot x.gauge x.swatch x.devLog
      x.since x.planner x.power x.thermal x.wake x.wear x.macTx) := by
  obtain ⟨e1, e2, e3, e4, e5, e6, e7, e8, _, e10, e11, e12, e13, e14, e15, e16, e17, e18, e19, e20, e21, e22, e23, e24, e25, e26, e27, e28, e29, e30, e31, e32, e33, e34⟩ := h.2.2.2.2.2.2.2
  exact ⟨h.1, h.2.1, h.2.2.1, h.2.2.2.1, fun v => wf_into _ _ _ _ (h.2.2.2.2.1 v), h.2.2.2.2.2.1, h.2.2.2.2.2.2.1, e1, e2, e3, e4, e5, e6, e7, e8, no hw 9 rfl, e10, e11, e12, e13, e14, e15, e16, e17, e18, e19, e20, e21, e22, e23, e24, e25, e26, e27, e28, e29, e30, e31, e32, e33, e34⟩

theorem keeps_hostCopy {x : State} {src : Tbl Byte} {b c n : Nat} (h : Keeps w p x)
    (hw : Sub 0x200 w) : Keeps w p (State.mk x.pending x.now x.arbSeq x.freeCount x.shown x.readData x.latches
      x.regs x.mem (copyBytes src b x.hostMem c n) x.mode x.transition x.deferred x.degrade x.fabric x.sensing
      x.timeBase x.memSys x.pair x.host x.safety x.stalls x.pools x.flash x.boot x.gauge x.swatch x.devLog
      x.since x.planner x.power x.thermal x.wake x.wear x.macTx) := by
  obtain ⟨e1, e2, e3, e4, e5, e6, e7, e8, _, e10, e11, e12, e13, e14, e15, e16, e17, e18, e19, e20, e21, e22, e23, e24, e25, e26, e27, e28, e29, e30, e31, e32, e33, e34⟩ := h.2.2.2.2.2.2.2
  exact ⟨h.1, h.2.1, h.2.2.1, h.2.2.2.1, fun v => wf_copyBytes _ _ _ _ _ (h.2.2.2.2.1 v), h.2.2.2.2.2.1, h.2.2.2.2.2.2.1, e1, e2, e3, e4, e5, e6, e7, e8, no hw 9 rfl, e10, e11, e12, e13, e14, e15, e16, e17, e18, e19, e20, e21, e22, e23, e24, e25, e26, e27, e28, e29, e30, e31, e32, e33, e34⟩

theorem keeps_hostBytes {x : State} {b : Nat} {l : List Byte} (h : Keeps w p x)
    (hw : Sub 0x200 w) : Keeps w p (State.mk x.pending x.now x.arbSeq x.freeCount x.shown x.readData x.latches
      x.regs x.mem (writeBytes x.hostMem b l) x.mode x.transition x.deferred x.degrade x.fabric x.sensing
      x.timeBase x.memSys x.pair x.host x.safety x.stalls x.pools x.flash x.boot x.gauge x.swatch x.devLog
      x.since x.planner x.power x.thermal x.wake x.wear x.macTx) := by
  obtain ⟨e1, e2, e3, e4, e5, e6, e7, e8, _, e10, e11, e12, e13, e14, e15, e16, e17, e18, e19, e20, e21, e22, e23, e24, e25, e26, e27, e28, e29, e30, e31, e32, e33, e34⟩ := h.2.2.2.2.2.2.2
  exact ⟨h.1, h.2.1, h.2.2.1, h.2.2.2.1, fun v => wf_writeBytes _ _ _ (h.2.2.2.2.1 v), h.2.2.2.2.2.1, h.2.2.2.2.2.2.1, e1, e2, e3, e4, e5, e6, e7, e8, no hw 9 rfl, e10, e11, e12, e13, e14, e15, e16, e17, e18, e19, e20, e21, e22, e23, e24, e25, e26, e27, e28, e29, e30, e31, e32, e33, e34⟩

theorem keeps_flashFilter {x : State} {q : Nat × Byte → Bool} (h : Keeps w p x)
    (hw : Sub 0x800000 w) : Keeps w p (State.mk x.pending x.now x.arbSeq x.freeCount x.shown x.readData
      x.latches x.regs x.mem x.hostMem x.mode x.transition x.deferred x.degrade x.fabric x.sensing x.timeBase
      x.memSys x.pair x.host x.safety x.stalls x.pools (x.flash.filter q) x.boot x.gauge x.swatch x.devLog
      x.since x.planner x.power x.thermal x.wake x.wear x.macTx) := by
  obtain ⟨e1, e2, e3, e4, e5, e6, e7, e8, e9, e10, e11, e12, e13, e14, e15, e16, e17, e18, e19, e20, e21, e22, _, e24, e25, e26, e27, e28, e29, e30, e31, e32, e33, e34⟩ := h.2.2.2.2.2.2.2
  exact ⟨h.1, h.2.1, h.2.2.1, h.2.2.2.1, h.2.2.2.2.1, fun v => wf_filter _ _ _ (h.2.2.2.2.2.1 v), h.2.2.2.2.2.2.1, e1, e2, e3, e4, e5, e6, e7, e8, e9, e10, e11, e12, e13, e14, e15, e16, e17, e18, e19, e20, e21, e22, no hw 23 rfl, e24, e25, e26, e27, e28, e29, e30, e31, e32, e33, e34⟩

theorem keeps_flashPut {x : State} {b : Nat} {l : List Byte} (h : Keeps w p x)
    (hw : Sub 0x800000 w) : Keeps w p (State.mk x.pending x.now x.arbSeq x.freeCount x.shown x.readData
      x.latches x.regs x.mem x.hostMem x.mode x.transition x.deferred x.degrade x.fabric x.sensing x.timeBase
      x.memSys x.pair x.host x.safety x.stalls x.pools (flashPut x.flash b l) x.boot x.gauge x.swatch x.devLog
      x.since x.planner x.power x.thermal x.wake x.wear x.macTx) := by
  obtain ⟨e1, e2, e3, e4, e5, e6, e7, e8, e9, e10, e11, e12, e13, e14, e15, e16, e17, e18, e19, e20, e21, e22, _, e24, e25, e26, e27, e28, e29, e30, e31, e32, e33, e34⟩ := h.2.2.2.2.2.2.2
  exact ⟨h.1, h.2.1, h.2.2.1, h.2.2.2.1, h.2.2.2.2.1, fun v => wf_flashPut _ _ _ (h.2.2.2.2.2.1 v), h.2.2.2.2.2.2.1, e1, e2, e3, e4, e5, e6, e7, e8, e9, e10, e11, e12, e13, e14, e15, e16, e17, e18, e19, e20, e21, e22, no hw 23 rfl, e24, e25, e26, e27, e28, e29, e30, e31, e32, e33, e34⟩

theorem keeps_now {x : State} {n : Nat} (hn : n < two64) (h : Keeps w p x)
    (hw : Sub 0x2 w) : Keeps w p (State.mk x.pending n x.arbSeq x.freeCount x.shown x.readData x.latches x.regs
      x.mem x.hostMem x.mode x.transition x.deferred x.degrade x.fabric x.sensing x.timeBase x.memSys x.pair
      x.host x.safety x.stalls x.pools x.flash x.boot x.gauge x.swatch x.devLog x.since x.planner x.power
      x.thermal x.wake x.wear x.macTx) := by
  obtain ⟨_, e2, e3, e4, e5, e6, e7, e8, e9, e10, e11, e12, e13, e14, e15, e16, e17, e18, e19, e20, e21, e22, e23, e24, e25, e26, e27, e28, e29, e30, e31, e32, e33, e34⟩ := h.2.2.2.2.2.2.2
  exact ⟨h.1, fun _ => hn, h.2.2.1, h.2.2.2.1, h.2.2.2.2.1, h.2.2.2.2.2.1, h.2.2.2.2.2.2.1, no hw 1 rfl, e2, e3, e4, e5, e6, e7, e8, e9, e10, e11, e12, e13, e14, e15, e16, e17, e18, e19, e20, e21, e22, e23, e24, e25, e26, e27, e28, e29, e30, e31, e32, e33, e34⟩

theorem keeps_nowStep {x : State} {n : Nat} {a0 a1 : _} (hn : n < two64) (h : Keeps w p x)
    (hw : Sub 0x400008002 w) : Keeps w p (State.mk x.pending n x.arbSeq x.freeCount x.shown x.readData x.latches
      x.regs x.mem x.hostMem x.mode x.transition x.deferred x.degrade x.fabric a0 x.timeBase x.memSys x.pair
      x.host x.safety x.stalls x.pools x.flash x.boot x.gauge x.swatch x.devLog x.since x.planner x.power
      x.thermal x.wake x.wear a1) := by
  obtain ⟨_, e2, e3, e4, e5, e6, e7, e8, e9, e10, e11, e12, e13, e14, _, e16, e17, e18, e19, e20, e21, e22, e23, e24, e25, e26, e27, e28, e29, e30, e31, e32, e33, _⟩ := h.2.2.2.2.2.2.2
  exact ⟨h.1, fun _ => hn, h.2.2.1, h.2.2.2.1, h.2.2.2.2.1, h.2.2.2.2.2.1, h.2.2.2.2.2.2.1, no hw 1 rfl, e2, e3, e4, e5, e6, e7, e8, e9, e10, e11, e12, e13, e14, no hw 15 rfl, e16, e17, e18, e19, e20, e21, e22, e23, e24, e25, e26, e27, e28, e29, e30, e31, e32, e33, no hw 34 rfl⟩

theorem keeps_freeMany {x : State} {n : Nat} (h : Keeps w p x)
    (hw : Sub 0x8 w) : Keeps w p (State.mk x.pending x.now x.arbSeq (x.freeCount + n) x.shown x.readData
      x.latches x.regs x.mem x.hostMem x.mode x.transition x.deferred x.degrade x.fabric x.sensing x.timeBase
      x.memSys x.pair x.host x.safety x.stalls x.pools x.flash x.boot x.gauge x.swatch x.devLog x.since
      x.planner x.power x.thermal x.wake x.wear x.macTx) := by
  obtain ⟨e1, e2, _, e4, e5, e6, e7, e8, e9, e10, e11, e12, e13, e14, e15, e16, e17, e18, e19, e20, e21, e22, e23, e24, e25, e26, e27, e28, e29, e30, e31, e32, e33, e34⟩ := h.2.2.2.2.2.2.2
  exact ⟨h.1, h.2.1, h.2.2.1, h.2.2.2.1, h.2.2.2.2.1, h.2.2.2.2.2.1, Nat.le_add_right_of_le h.2.2.2.2.2.2.1, e1, e2, no hw 3 rfl, e4, e5, e6, e7, e8, e9, e10, e11, e12, e13, e14, e15, e16, e17, e18, e19, e20, e21, e22, e23, e24, e25, e26, e27, e28, e29, e30, e31, e32, e33, e34⟩

theorem keeps_arbSeq {x : State} (h : Keeps w p x)
    (hw : Sub 0x4 w) : Keeps w p (State.mk x.pending x.now ((x.arbSeq + 1) % 281474976710656) x.freeCount
      x.shown x.readData x.latches x.regs x.mem x.hostMem x.mode x.transition x.deferred x.degrade x.fabric
      x.sensing x.timeBase x.memSys x.pair x.host x.safety x.stalls x.pools x.flash x.boot x.gauge x.swatch
      x.devLog x.since x.planner x.power x.thermal x.wake x.wear x.macTx) := by
  obtain ⟨e1, _, e3, e4, e5, e6, e7, e8, e9, e10, e11, e12, e13, e14, e15, e16, e17, e18, e19, e20, e21, e22, e23, e24, e25, e26, e27, e28, e29, e30, e31, e32, e33, e34⟩ := h.2.2.2.2.2.2.2
  exact ⟨h.1, h.2.1, fun _ => Nat.mod_lt _ (by decide), h.2.2.2.1, h.2.2.2.2.1, h.2.2.2.2.2.1, h.2.2.2.2.2.2.1, e1, no hw 2 rfl, e3, e4, e5, e6, e7, e8, e9, e10, e11, e12, e13, e14, e15, e16, e17, e18, e19, e20, e21, e22, e23, e24, e25, e26, e27, e28, e29, e30, e31, e32, e33, e34⟩

theorem keeps_freeCount {x : State} (h : Keeps w p x)
    (hw : Sub 0x8 w) : Keeps w p (State.mk x.pending x.now x.arbSeq (x.freeCount + 1) x.shown x.readData
      x.latches x.regs x.mem x.hostMem x.mode x.transition x.deferred x.degrade x.fabric x.sensing x.timeBase
      x.memSys x.pair x.host x.safety x.stalls x.pools x.flash x.boot x.gauge x.swatch x.devLog x.since
      x.planner x.power x.thermal x.wake x.wear x.macTx) := by
  obtain ⟨e1, e2, _, e4, e5, e6, e7, e8, e9, e10, e11, e12, e13, e14, e15, e16, e17, e18, e19, e20, e21, e22, e23, e24, e25, e26, e27, e28, e29, e30, e31, e32, e33, e34⟩ := h.2.2.2.2.2.2.2
  exact ⟨h.1, h.2.1, h.2.2.1, h.2.2.2.1, h.2.2.2.2.1, h.2.2.2.2.2.1, Nat.le_succ_of_le h.2.2.2.2.2.2.1, e1, e2, no hw 3 rfl, e4, e5, e6, e7, e8, e9, e10, e11, e12, e13, e14, e15, e16, e17, e18, e19, e20, e21, e22, e23, e24, e25, e26, e27, e28, e29, e30, e31, e32, e33, e34⟩

end Sys2Proof.Machine
end

