-- ==== Sys2Proof/Laws/KeepsOps.lean ====
section
/-!
SUPPORT. Laws/KeepsOps.lean: what each operation and command keeps (the operations that the families share, memory); `keeps_x` is about `x`, whose
components of State are the bits of its `Sub`.
-/

namespace Sys2Proof.Machine

variable {w : Nat} {p : State}

theorem keeps_setFld (s : State) (f : Fld) (v : Nat) (i : Nat) (j : Nat) (h : Keeps w p s) (hw : Sub 0x80 w) : Keeps w
    p (@State.setFld s f v i j) := by
  delta State.setFld
  repeat' first
    | with_reducible assumption | with_reducible refine keeps_set_regs ?_ (sub_of hw rfl)

theorem keeps_count (s : State) (f : Fld) (i : Nat) (j : Nat) (n : Nat) (h : Keeps w p s) (hw : Sub 0x80 w) : Keeps w
    p (@State.count s f i j n) := by
  delta State.count
  repeat' first
    | with_reducible assumption | with_reducible apply keeps_setFld

theorem keeps_resetFld (s : State) (f : Fld) (i : Nat) (j : Nat) (h : Keeps w p s) (hw : Sub 0x80 w) : Keeps w p
    (@State.resetFld s f i j) := by
  delta State.resetFld
  repeat' first
    | with_reducible assumption | with_reducible refine keeps_set_regs ?_ (sub_of hw rfl)

theorem keeps_devWrite (s : State) (a : Nat) (l : List Byte) (h : Keeps w p s) (hw : Sub 0x100 w) : Keeps w p
    (@State.devWrite s a l) := by
  exact keeps_memWrite h (sub_of hw rfl)

theorem keeps_devPut (s : State) (a : Nat) (n : Nat) (v : Nat) (h : Keeps w p s) (hw : Sub 0x100 w) : Keeps w p
    (@State.devPut s a n v) := by
  delta State.devPut
  repeat' first
    | with_reducible assumption | with_reducible apply keeps_devWrite

theorem keeps_hostWrite (s : State) (a : Nat) (l : List Byte) (h : Keeps w p s) (hw : Sub 0x200 w) : Keeps w p
    (@State.hostWrite s a l) := by
  exact keeps_hostBytes h (sub_of hw rfl)

theorem keeps_unpoison (s : State) (a : Nat) (n : Nat) (h : Keeps w p s) (hw : Sub 0x20000 w) : Keeps w p
    (@State.unpoison s a n) := by
  delta State.unpoison
  repeat' first
    | with_reducible assumption | with_reducible refine keeps_set_memSys ?_ (sub_of hw rfl)

theorem keeps_free (s : State) (x1 : Nat) (h : Keeps w p s) (hw : Sub 0x8 w) : Keeps w p (@State.free s x1).2 := by
  exact keeps_freeCount h (sub_of hw rfl)

theorem keeps_orFree (s : State) (x1 : Nat) (x2 : Option Nat) (h : Keeps w p s) (hw : Sub 0x8 w) : Keeps w p
    (@State.orFree s x1 x2).2 := by
  delta State.orFree
  repeat' first
    | with_reducible assumption | with_reducible apply keeps_free | split

theorem keeps_stamp (s : State) (h : Keeps w p s) (hw : Sub 0x4 w) : Keeps w p (@State.stamp s).2 := by
  exact keeps_arbSeq h (sub_of hw rfl)

theorem keeps_reportWith (s : State) (code : Nat) (sev : Nat) (origin : Nat) (d0 : Option Nat) (d1 : Option Nat)
    (request : Option (Nat × Nat)) (injected : Bool) (unsequenced : Bool) (h : Keeps w p s) (hw : Sub 0x10000c w) :
    Keeps w p (@State.reportWith s code sev origin d0 d1 request injected unsequenced) := by
  delta State.reportWith
  repeat' first
    | with_reducible assumption | with_reducible exact sub_of hw rfl | with_reducible apply keeps_stamp
    | with_reducible apply keeps_orFree | (extract_lets +onlyGivenNames x; clear_value x; revert x; intros) | split
    | with_reducible refine keeps_of_snd ?_ (by assumption)
    | with_reducible refine keeps_set_safety ?_ (sub_of hw rfl)

theorem keeps_report (s : State) (code : Nat) (sev : Nat) (d0 : Option Nat) (d1 : Option Nat) (request : optParam
    (Option (Nat × Nat)) none) (origin : Nat) (h : Keeps w p s) (hw : Sub 0x10000c w) : Keeps w p (@State.report s
    code sev d0 d1 request origin) := by
  delta State.report
  repeat' first
    | with_reducible assumption | with_reducible apply keeps_reportWith

theorem keeps_tallyOne (c : Nat) (src : Nat) (s : State) (n : Nat) (h : Keeps w p s) (hw : Sub 0x80 w) : Keeps w p
    (@State.tallyOne c src s n) := by
  delta State.tallyOne
  repeat' first
    | with_reducible assumption | with_reducible apply keeps_count | with_reducible refine keeps_ite ?_ ?_

theorem keeps_tally (s : State) (c : Nat) (src : Nat) (h : Keeps w p s) (hw : Sub 0x80 w) : Keeps w p (@State.tally s
    c src) := by
  delta State.tally
  repeat' first
    | with_reducible assumption | with_reducible apply keeps_tallyOne | with_reducible refine keeps_foldl ?_ ?_
    | intro _ _ _

theorem keeps_sendMsix (s : State) (fn : Nat) (v : Nat) (h : Keeps w p s) (hw : Sub 0x80080 w) : Keeps w p
    (@State.sendMsix s fn v) := by
  delta State.sendMsix
  repeat' first
    | with_reducible assumption | with_reducible exact sub_of hw rfl | with_reducible apply keeps_setFld
    | with_reducible refine keeps_ite ?_ ?_ | with_reducible refine keeps_set_host ?_ (sub_of hw rfl)

theorem keeps_modStall (s : State) (k : Nat) (g : Stall → Stall) (h : Keeps w p s) (hw : Sub 0x200000 w) : Keeps w p
    (@State.modStall s k g) := by
  delta State.modStall
  repeat' first
    | with_reducible assumption | with_reducible refine keeps_set_stalls ?_ (sub_of hw rfl)

theorem keeps_holdArea (s : State) (k : Nat) (h : Keeps w p s) (hw : Sub 0x200000 w) : Keeps w p (@State.holdArea s k)
    := by
  delta State.holdArea
  repeat' first
    | with_reducible assumption | with_reducible exact sub_of hw rfl | with_reducible apply keeps_modStall
    | intro _ _ _ _ | intro _ _ _ | intro _ _ | split | with_reducible refine keeps_of_snd ?_ (by assumption)
    | with_reducible refine keeps_of_fst ?_ (by assumption)

theorem keeps_setStall (s : State) (k : Nat) (x2 : StallPhase) (h : Keeps w p s) (hw : Sub 0x200000 w) : Keeps w p
    (@State.setStall s k x2) := by
  delta State.setStall
  repeat' first
    | with_reducible assumption | with_reducible apply keeps_modStall

theorem keeps_stallCode (s : State) (k : Nat) (code : Nat) (h : Keeps w p s) (hw : Sub 0x80 w) : Keeps w p
    (@State.stallCode s k code) := by
  delta State.stallCode
  repeat' first
    | with_reducible assumption | with_reducible apply keeps_setFld

theorem keeps_stallEvent (s : State) (k : Nat) (b : Nat) (h : Keeps w p s) (hw : Sub 0x80080 w) : Keeps w p
    (@State.stallEvent s k b) := by
  delta State.stallEvent
  repeat' first
    | with_reducible assumption | with_reducible exact sub_of hw rfl | with_reducible apply keeps_sendMsix
    | with_reducible apply keeps_setFld

theorem keeps_refuseAt (s : State) (fn : Nat) (offset : Nat) (code : Nat) (d0 : Option Nat) (h : Keeps w p s) (hw :
    Sub 0x10008c w) : Keeps w p (@State.refuseAt s fn offset code d0) := by
  delta State.refuseAt
  repeat' first
    | with_reducible assumption | with_reducible exact sub_of hw rfl | with_reducible apply keeps_count
    | with_reducible apply keeps_setFld | with_reducible apply keeps_report

theorem keeps_refuse (s : State) (r : Reg) (code : Nat) (i : Nat) (j : Nat) (h : Keeps w p s) (hw : Sub 0x10008c w) :
    Keeps w p (@State.refuse s r code i j) := by
  delta State.refuse
  repeat' first
    | with_reducible assumption | with_reducible apply keeps_refuseAt

theorem keeps_measure (s : State) (stall : Nat) (kind : Nat) (digest : List Byte) (rom : Bool) (h : Keeps w p s) (hw :
    Sub 0x8200004 w) : Keeps w p (@State.measure s stall kind digest rom) := by
  delta State.measure
  repeat' first
    | with_reducible assumption | with_reducible exact sub_of hw rfl | with_reducible apply keeps_stamp
    | with_reducible apply keeps_modStall | with_reducible refine keeps_ite ?_ ?_ | split
    | with_reducible refine keeps_set_devLog ?_ (sub_of hw rfl)

theorem keeps_modIsland (s : State) (i : Nat) (g : Island → Island) (h : Keeps w p s) (hw : Sub 0x100000 w) : Keeps w
    p (@State.modIsland s i g) := by
  delta State.modIsland
  repeat' first
    | with_reducible assumption | with_reducible refine keeps_set_safety ?_ (sub_of hw rfl)

theorem keeps_queueMessage (s : State) (m : Message) (h : Keeps w p s) (hw : Sub 0x100000 w) : Keeps w p
    (@State.queueMessage s m) := by
  delta State.queueMessage
  repeat' first
    | with_reducible assumption | with_reducible refine keeps_set_safety ?_ (sub_of hw rfl)

theorem keeps_nextCounter (s : State) (sender : Nat) (kind : Nat) (h : Keeps w p s) (hw : Sub 0x100000 w) : Keeps w p
    (@State.nextCounter s sender kind).2 := by
  delta State.nextCounter
  repeat' first
    | with_reducible assumption | with_reducible apply keeps_modIsland
    | (extract_lets +onlyGivenNames x; clear_value x; revert x; intros) | split
    | with_reducible refine keeps_snd_mk ?_ | with_reducible refine keeps_set_safety ?_ (sub_of hw rfl)

theorem keeps_send (s : State) (sender : Nat) (authority : Nat) (authSeq : Nat) (body : Payload) (h : Keeps w p s) (hw
    : Sub 0x100000 w) : Keeps w p (@State.send s sender authority authSeq body) := by
  delta State.send
  repeat' first
    | with_reducible assumption | with_reducible apply keeps_nextCounter | with_reducible apply keeps_queueMessage

theorem keeps_event (s : State) (ev : Nat) (old : Nat) (new : Nat) (cause : Nat) (time : Nat) (h : Keeps w p s) (hw :
    Sub 0x100000 w) : Keeps w p (@State.event s ev old new cause time) := by
  delta State.event
  repeat' first
    | with_reducible assumption | with_reducible apply keeps_send | split

theorem keeps_islandTraj (s : State) (i : Nat) (h : Keeps w p s) (hw : Sub 0x100008 w) : Keeps w p (@State.islandTraj
    s i) := by
  delta State.islandTraj
  repeat' first
    | with_reducible assumption | with_reducible exact sub_of hw rfl | with_reducible apply keeps_free
    | with_reducible apply keeps_send | with_reducible refine keeps_ite ?_ ?_
    | (extract_lets +onlyGivenNames x; clear_value x; revert x; intros) | split

theorem keeps_newAuthority (s : State) (a : Nat) (cause : Nat) (time : Nat) (h : Keeps w p s) (hw : Sub 0x10000c w) :
    Keeps w p (@State.newAuthority s a cause time) := by
  delta State.newAuthority
  repeat' first
    | with_reducible assumption | with_reducible exact sub_of hw rfl | with_reducible apply keeps_event
    | with_reducible apply keeps_report | with_reducible apply keeps_islandTraj
    | with_reducible refine keeps_ite ?_ ?_
    | (extract_lets +onlyGivenNames x; refine keeps_cut (w := w) (p := p) (v := x) ?_ ?_; rotate_left; clear_value x; revert x; intros; rotate_right; unfold x; clear x)
    | (extract_lets +onlyGivenNames x; clear_value x; revert x; intros) | split
    | with_reducible refine keeps_set_safety ?_ (sub_of hw rfl)

theorem keeps_setAuthority (s : State) (a : Nat) (cause : Nat) (time : Nat) (h : Keeps w p s) (hw : Sub 0x10000c w) :
    Keeps w p (@State.setAuthority s a cause time) := by
  delta State.setAuthority
  repeat' first
    | with_reducible assumption | with_reducible apply keeps_newAuthority | with_reducible refine keeps_ite ?_ ?_

theorem keeps_heartbeat (s : State) (h : Keeps w p s) (hw : Sub 0x100000 w) : Keeps w p (@State.heartbeat s) := by
  delta State.heartbeat
  repeat' first
    | with_reducible assumption | with_reducible refine keeps_set_safety ?_ (sub_of hw rfl)

theorem keeps_applyStep (s : State) (src : Nat) (cause : Nat) (code : Nat) (h : Keeps w p s) (hw : Sub 0x10200c w) :
    Keeps w p (@State.applyStep s src cause code) := by
  delta State.applyStep
  repeat' first
    | with_reducible assumption | with_reducible exact sub_of hw rfl | with_reducible apply keeps_report
    | with_reducible apply keeps_event | with_reducible apply keeps_setAuthority
    | with_reducible refine keeps_ite ?_ ?_ | (extract_lets +onlyGivenNames x; clear_value x; revert x; intros)
    | (extract_lets +onlyGivenNames x; revert x; intros) | split
    | with_reducible refine keeps_set_degrade ?_ (sub_of hw rfl)
    | with_reducible refine keeps_set_safety ?_ (sub_of hw rfl)

theorem keeps_request (s : State) (src : Nat) (d : Nat) (cause : Nat) (code : Nat) (h : Keeps w p s) (hw : Sub
    0x10200c w) : Keeps w p (@State.request s src d cause code) := by
  delta State.request
  repeat' first
    | with_reducible assumption | with_reducible apply keeps_applyStep | with_reducible refine keeps_ite ?_ ?_
    | (extract_lets +onlyGivenNames x; clear_value x; revert x; intros)
    | with_reducible refine keeps_set_degrade ?_ (sub_of hw rfl)

theorem keeps_lower (s : State) (src : Nat) (d : Nat) (cause : Nat) (h : Keeps w p s) (hw : Sub 0x10200c w) : Keeps w
    p (@State.lower s src d cause) := by
  delta State.lower
  repeat' first
    | with_reducible assumption | with_reducible apply keeps_applyStep | with_reducible refine keeps_ite ?_ ?_
    | (extract_lets +onlyGivenNames x; clear_value x; revert x; intros)
    | with_reducible refine keeps_set_degrade ?_ (sub_of hw rfl)

theorem keeps_withdraw (s : State) (src : Nat) (cause : Nat) (h : Keeps w p s) (hw : Sub 0x10200c w) : Keeps w p
    (@State.withdraw s src cause) := by
  delta State.withdraw
  repeat' first
    | with_reducible assumption | with_reducible apply keeps_lower

theorem keeps_lowerDeferred (s : State) (h : Keeps w p s) (hw : Sub 0x10200c w) : Keeps w p (@State.lowerDeferred s)
    := by
  delta State.lowerDeferred
  repeat' first
    | with_reducible assumption | with_reducible apply keeps_lower | with_reducible refine keeps_foldl ?_ ?_
    | with_reducible refine keeps_ite ?_ ?_ | intro _ _ _ | split

theorem keeps_setRing (s : State) (fn : Nat) (ring : Nat) (r : Ring) (h : Keeps w p s) (hw : Sub 0x80000 w) : Keeps w
    p (@State.setRing s fn ring r) := by
  delta State.setRing
  repeat' first
    | with_reducible assumption | with_reducible refine keeps_set_host ?_ (sub_of hw rfl)

theorem keeps_modTicket (s : State) (t : Ticket) (g : Desc → Desc) (h : Keeps w p s) (hw : Sub 0x80000 w) : Keeps w p
    (@State.modTicket s t g) := by
  delta State.modTicket
  repeat' first
    | with_reducible assumption | (extract_lets +onlyGivenNames x; clear_value x; revert x; intros)
    | with_reducible refine keeps_set_host ?_ (sub_of hw rfl)

theorem keeps_finish (s : State) (t : Ticket) (status : Nat) (sev : Nat) (info : Nat) (h : Keeps w p s) (hw : Sub
    0x80080 w) : Keeps w p (@State.finish s t status sev info) := by
  delta State.finish
  repeat' first
    | with_reducible assumption | with_reducible exact sub_of hw rfl | with_reducible apply keeps_stallCode
    | with_reducible apply keeps_modTicket | with_reducible refine keeps_ite ?_ ?_

theorem keeps_putMarker (s : State) (m : Nat) (v : Nat) (h : Keeps w p s) (hw : Sub 0x80000 w) : Keeps w p
    (@State.putMarker s m v) := by
  delta State.putMarker
  repeat' first
    | with_reducible assumption | with_reducible refine keeps_set_host ?_ (sub_of hw rfl)

theorem keeps_meetHeaders (s : State) (m : Nat) (h : Keeps w p s) (hw : Sub 0x80000 w) : Keeps w p (@State.meetHeaders
    s m) := by
  delta State.meetHeaders
  repeat' first
    | with_reducible assumption | with_reducible exact sub_of hw rfl | with_reducible refine keeps_ite ?_ ?_
    | intro _ _ _ _ | intro _ _ _ | intro _ _
    | (extract_lets +onlyGivenNames x; refine keeps_cut (w := w) (p := p) (v := x) ?_ ?_; rotate_left; clear_value x; revert x; intros; rotate_right; unfold x; clear x)
    | (extract_lets +onlyGivenNames x; clear_value x; revert x; intros)
    | (extract_lets +onlyGivenNames x; revert x; intros) | split
    | with_reducible refine keeps_of_snd ?_ (by assumption) | with_reducible refine keeps_of_fst ?_ (by assumption)
    | with_reducible refine keeps_set_host ?_ (sub_of hw rfl)

theorem keeps_completeMet (s : State) (m : Nat) (h : Keeps w p s) (hw : Sub 0x80080 w) : Keeps w p (@State.completeMet
    s m) := by
  delta State.completeMet
  repeat' first
    | with_reducible assumption | with_reducible exact sub_of hw rfl | with_reducible apply keeps_meetHeaders
    | with_reducible apply keeps_finish | with_reducible refine keeps_foldl ?_ ?_ | intro _ _ _ _ | intro _ _ _
    | intro _ _
    | (extract_lets +onlyGivenNames x; refine keeps_cut (w := w) (p := p) (v := x) ?_ ?_; rotate_left; clear_value x; revert x; intros; rotate_right; unfold x; clear x)
    | (extract_lets +onlyGivenNames x; clear_value x; revert x; intros)
    | (extract_lets +onlyGivenNames x; revert x; intros) | split
    | with_reducible refine keeps_of_snd ?_ (by assumption) | with_reducible refine keeps_of_fst ?_ (by assumption)
    | with_reducible refine keeps_set_host ?_ (sub_of hw rfl)

theorem keeps_serveTake (s : State) (x1 : MarkWait) (h : Keeps w p s) (hw : Sub 0x20080080 w) : Keeps w p
    (@State.serveTake s x1) := by
  delta State.serveTake
  repeat' first
    | with_reducible assumption | with_reducible exact sub_of hw rfl | with_reducible apply keeps_finish
    | with_reducible refine keeps_ite ?_ ?_ | split | with_reducible refine keeps_of_snd ?_ (by assumption)
    | with_reducible refine keeps_of_fst ?_ (by assumption)
    | with_reducible refine keeps_set_planner ?_ (sub_of hw rfl)

theorem keeps_serveTakes (x0 : Nat) (x1 : State) (x2 : Nat) (h : Keeps w p x1) (hw : Sub 0x20080080 w) : Keeps w p
    (@serveTakes x0 x1 x2) := by
  induction x0 generalizing x1 with
  | zero => exact keeps_completeMet (hw := sub_of hw rfl) _ _ h
  | succ n ih =>
    unfold serveTakes
    have h1 := keeps_completeMet (hw := sub_of hw rfl) x1 x2 h
    dsimp only
    split
    · exact h1
    · split
      · exact ih _ (keeps_serveTake (hw := sub_of hw rfl) _ _ (keeps_set_host (keeps_putMarker (hw := sub_of hw rfl) _ _ _ h1) (sub_of hw rfl)))
      · exact h1

theorem keeps_wakeWaits (s : State) (m : Nat) (h : Keeps w p s) (hw : Sub 0x20080080 w) : Keeps w p (@State.wakeWaits
    s m) := by
  delta State.wakeWaits
  repeat' first
    | with_reducible assumption | with_reducible apply keeps_serveTakes

theorem keeps_setMarker (s : State) (m : Nat) (v : Nat) (h : Keeps w p s) (hw : Sub 0x20080080 w) : Keeps w p
    (@State.setMarker s m v) := by
  delta State.setMarker
  repeat' first
    | with_reducible assumption | with_reducible exact sub_of hw rfl | with_reducible apply keeps_wakeWaits
    | with_reducible apply keeps_putMarker

theorem keeps_addMarker (s : State) (m : Nat) (v : Nat) (h : Keeps w p s) (hw : Sub 0x20080080 w) : Keeps w p
    (@State.addMarker s m v) := by
  delta State.addMarker
  repeat' first
    | with_reducible assumption | with_reducible apply keeps_setMarker

theorem keeps_setSlot (s : State) (fn : Nat) (slot : Nat) (x : Slot) (h : Keeps w p s) (hw : Sub 0x4000 w) : Keeps w p
    (@State.setSlot s fn slot x) := by
  delta State.setSlot
  repeat' first
    | with_reducible assumption | with_reducible refine keeps_set_fabric ?_ (sub_of hw rfl)

theorem keeps_modProgram (s : State) (fn : Nat) (slot : Nat) (g : Program → Program) (h : Keeps w p s) (hw : Sub
    0x4000 w) : Keeps w p (@State.modProgram s fn slot g) := by
  delta State.modProgram
  repeat' first
    | with_reducible assumption | with_reducible apply keeps_setSlot | split

theorem keeps_modRunning (s : State) (fn : Nat) (slot : Nat) (g : Running → Running) (h : Keeps w p s) (hw : Sub
    0x4000 w) : Keeps w p (@State.modRunning s fn slot g) := by
  delta State.modRunning
  repeat' first
    | with_reducible assumption | with_reducible apply keeps_modProgram

theorem keeps_modIteration (s : State) (fn : Nat) (slot : Nat) (n : Nat) (g : Iteration → Iteration) (h : Keeps w p s)
    (hw : Sub 0x4000 w) : Keeps w p (@State.modIteration s fn slot n g) := by
  delta State.modIteration
  repeat' first
    | with_reducible assumption | with_reducible apply keeps_modProgram
    | (extract_lets +onlyGivenNames x; refine keeps_cut (w := w) (p := p) (v := x) ?_ ?_; rotate_left; clear_value x; revert x; intros; rotate_right; unfold x; clear x)
    | (extract_lets +onlyGivenNames x; clear_value x; revert x; intros)
    | (extract_lets +onlyGivenNames x; revert x; intros)

theorem keeps_modRun (s : State) (c : CmdRef) (g : CmdRun → CmdRun) (h : Keeps w p s) (hw : Sub 0x4000 w) : Keeps w p
    (@State.modRun s c g) := by
  delta State.modRun
  repeat' first
    | with_reducible assumption | with_reducible apply keeps_modIteration

theorem keeps_setBuffer (s : State) (id : Nat) (b : Option Buffer) (h : Keeps w p s) (hw : Sub 0x4000 w) : Keeps w p
    (@State.setBuffer s id b) := by
  delta State.setBuffer
  repeat' first
    | with_reducible assumption | with_reducible refine keeps_set_fabric ?_ (sub_of hw rfl)

theorem keeps_setCtx (s : State) (n : Nat) (c : Context) (h : Keeps w p s) (hw : Sub 0x8000 w) : Keeps w p
    (@State.setCtx s n c) := by
  delta State.setCtx
  repeat' first
    | with_reducible assumption | with_reducible refine keeps_set_sensing ?_ (sub_of hw rfl)

theorem keeps_modCtx (s : State) (n : Nat) (g : Context → Context) (h : Keeps w p s) (hw : Sub 0x8000 w) : Keeps w p
    (@State.modCtx s n g) := by
  delta State.modCtx
  repeat' first
    | with_reducible assumption | with_reducible apply keeps_setCtx

theorem keeps_slotWords (s : State) (n : Nat) (h : Keeps w p s) (hw : Sub 0x100 w) : Keeps w p (@State.slotWords s n)
    := by
  delta State.slotWords
  repeat' first
    | with_reducible assumption | with_reducible apply keeps_devWrite | split

theorem keeps_resetGen (s : State) (n : Nat) (h : Keeps w p s) (hw : Sub 0x8100 w) : Keeps w p (@State.resetGen s n)
    := by
  delta State.resetGen
  repeat' first
    | with_reducible assumption | with_reducible exact sub_of hw rfl | with_reducible apply keeps_slotWords
    | with_reducible apply keeps_modCtx | with_reducible refine keeps_ite ?_ ?_ | intro _ _ _ _ | intro _ _ _
    | intro _ _ | split | with_reducible refine keeps_of_snd ?_ (by assumption)
    | with_reducible refine keeps_of_fst ?_ (by assumption)

theorem keeps_putHalf (s : State) (id : Nat) (x2 : Nat) (x : Half) (h : Keeps w p s) (hw : Sub 0x4100 w) : Keeps w p
    (@State.putHalf s id x2 x) := by
  delta State.putHalf
  repeat' first
    | with_reducible assumption | with_reducible exact sub_of hw rfl | with_reducible apply keeps_setBuffer
    | with_reducible apply keeps_devPut | split

theorem keeps_fillHalf (s : State) (id : Nat) (x2 : Nat) (g : Half → Half) (h : Keeps w p s) (hw : Sub 0x4100 w) :
    Keeps w p (@State.fillHalf s id x2 g) := by
  delta State.fillHalf
  repeat' first
    | with_reducible assumption | with_reducible exact sub_of hw rfl | with_reducible apply keeps_putHalf
    | with_reducible apply keeps_setBuffer | split

theorem keeps_clearReady (s : State) (id : Nat) (x2 : Nat) (h : Keeps w p s) (hw : Sub 0x4100 w) : Keeps w p
    (@State.clearReady s id x2) := by
  delta State.clearReady
  repeat' first
    | with_reducible assumption | with_reducible apply keeps_putHalf | split

theorem keeps_declareBuffer (x0 : Program) (s : State) (x2 : Handover) (h : Keeps w p s) (hw : Sub 0xc100 w) : Keeps w
    p (@State.declareBuffer x0 s x2) := by
  delta State.declareBuffer
  repeat' first
    | with_reducible assumption | with_reducible exact sub_of hw rfl | with_reducible apply keeps_setBuffer
    | with_reducible apply keeps_resetGen | with_reducible apply keeps_devPut
    | (extract_lets +onlyGivenNames x; refine keeps_cut (w := w) (p := p) (v := x) ?_ ?_; rotate_left; clear_value x; revert x; intros; rotate_right; unfold x; clear x)
    | (extract_lets +onlyGivenNames x; clear_value x; revert x; intros)
    | (extract_lets +onlyGivenNames x; revert x; intros) | split
    | with_reducible refine keeps_of_snd ?_ (by assumption) | with_reducible refine keeps_of_fst ?_ (by assumption)

theorem keeps_declareBuffers (s : State) (x1 : Program) (h : Keeps w p s) (hw : Sub 0xc100 w) : Keeps w p
    (@State.declareBuffers s x1) := by
  delta State.declareBuffers
  repeat' first
    | with_reducible assumption | with_reducible apply keeps_declareBuffer | with_reducible refine keeps_foldl ?_ ?_
    | intro _ _ _

theorem keeps_dropBuffers (s : State) (x1 : Program) (h : Keeps w p s) (hw : Sub 0x4000 w) : Keeps w p
    (@State.dropBuffers s x1) := by
  delta State.dropBuffers
  repeat' first
    | with_reducible assumption | with_reducible apply keeps_setBuffer | with_reducible refine keeps_foldl ?_ ?_
    | intro _ _ _

theorem keeps_sendFlit (s : State) (kind : Nat) (body : List Byte) (h : Keeps w p s) (hw : Sub 0x40000 w) : Keeps w p
    (@State.sendFlit s kind body) := by
  delta State.sendFlit
  repeat' first
    | with_reducible assumption | with_reducible refine keeps_ite ?_ ?_
    | with_reducible refine keeps_set_pair ?_ (sub_of hw rfl)

theorem keeps_sendAbort (s : State) (kind : Nat) (id : Nat) (gen : Nat) (reason : Nat) (h : Keeps w p s) (hw : Sub
    0x14000c w) : Keeps w p (@State.sendAbort s kind id gen reason) := by
  delta State.sendAbort
  repeat' first
    | with_reducible assumption | with_reducible exact sub_of hw rfl | with_reducible apply keeps_sendFlit
    | with_reducible apply keeps_report | (extract_lets +onlyGivenNames x; clear_value x; revert x; intros)
    | with_reducible refine keeps_set_pair ?_ (sub_of hw rfl)

theorem keeps_setBarrier (s : State) (id : Nat) (b : Option Barrier) (h : Keeps w p s) (hw : Sub 0x40000 w) : Keeps w
    p (@State.setBarrier s id b) := by
  delta State.setBarrier
  repeat' first
    | with_reducible assumption | with_reducible refine keeps_set_pair ?_ (sub_of hw rfl)

theorem keeps_setXfer (s : State) (n : Nat) (x : Xfer) (h : Keeps w p s) (hw : Sub 0x40000 w) : Keeps w p
    (@State.setXfer s n x) := by
  delta State.setXfer
  repeat' first
    | with_reducible assumption | with_reducible refine keeps_set_pair ?_ (sub_of hw rfl)

theorem keeps_disarm (s : State) (fn : Nat) (slot : Nat) (only : Nat → Nat → Bool) (h : Keeps w p s) (hw : Sub 0x4000
    w) : Keeps w p (@State.disarm s fn slot only) := by
  delta State.disarm
  repeat' first
    | with_reducible assumption | with_reducible refine keeps_set_fabric ?_ (sub_of hw rfl)

theorem keeps_killIterations (s : State) (fn : Nat) (slot : Nat) (h : Keeps w p s) (hw : Sub 0x4080 w) : Keeps w p
    (@State.killIterations s fn slot) := by
  delta State.killIterations
  repeat' first
    | with_reducible assumption | with_reducible exact sub_of hw rfl | with_reducible apply keeps_tally
    | with_reducible apply keeps_disarm | with_reducible apply keeps_modRunning
    | with_reducible refine keeps_foldl ?_ ?_ | intro _ _ _ | split

theorem keeps_killBarrier (s : State) (r : Running) (h : Keeps w p s) (hw : Sub 0x14000c w) : Keeps w p
    (@State.killBarrier s r) := by
  delta State.killBarrier
  repeat' first
    | with_reducible assumption | with_reducible exact sub_of hw rfl | with_reducible apply keeps_sendAbort
    | with_reducible apply keeps_setBarrier | with_reducible refine keeps_ite ?_ ?_ | split

theorem keeps_killTransfers (s : State) (x1 : Program) (h : Keeps w p s) (hw : Sub 0x14000c w) : Keeps w p
    (@State.killTransfers s x1) := by
  delta State.killTransfers
  repeat' first
    | with_reducible assumption | with_reducible exact sub_of hw rfl | with_reducible apply keeps_sendAbort
    | with_reducible apply keeps_setXfer | with_reducible refine keeps_foldl ?_ ?_
    | with_reducible refine keeps_ite ?_ ?_ | intro _ _ _ _ | intro _ _ _ | intro _ _
    | (extract_lets +onlyGivenNames x; refine keeps_cut (w := w) (p := p) (v := x) ?_ ?_; rotate_left; clear_value x; revert x; intros; rotate_right; unfold x; clear x)
    | (extract_lets +onlyGivenNames x; clear_value x; revert x; intros)
    | (extract_lets +onlyGivenNames x; revert x; intros) | split
    | with_reducible refine keeps_of_snd ?_ (by assumption) | with_reducible refine keeps_of_fst ?_ (by assumption)

theorem keeps_unstarve (s : State) (fn : Nat) (slot : Nat) (h : Keeps w p s) (hw : Sub 0x400000 w) : Keeps w p
    (@State.unstarve s fn slot) := by
  delta State.unstarve
  repeat' first
    | with_reducible assumption | (extract_lets +onlyGivenNames x; clear_value x; revert x; intros)
    | with_reducible refine keeps_set_pools ?_ (sub_of hw rfl)

theorem keeps_leaveRunning (s : State) (fn : Nat) (slot : Nat) (h : Keeps w p s) (hw : Sub 0x4000 w) : Keeps w p
    (@State.leaveRunning s fn slot) := by
  delta State.leaveRunning
  repeat' first
    | with_reducible assumption | with_reducible exact sub_of hw rfl | with_reducible apply keeps_modProgram
    | intro _ _ _ _ | intro _ _ _ | intro _ _
    | (extract_lets +onlyGivenNames x; refine keeps_cut (w := w) (p := p) (v := x) ?_ ?_; rotate_left; clear_value x; revert x; intros; rotate_right; unfold x; clear x)
    | (extract_lets +onlyGivenNames x; clear_value x; revert x; intros)
    | (extract_lets +onlyGivenNames x; revert x; intros) | split
    | with_reducible refine keeps_of_snd ?_ (by assumption) | with_reducible refine keeps_of_fst ?_ (by assumption)

theorem keeps_finishKill (s : State) (r : Running) (status : Nat) (h : Keeps w p s) (hw : Sub 0x80080 w) : Keeps w p
    (@State.finishKill s r status) := by
  delta State.finishKill
  repeat' first
    | with_reducible assumption | with_reducible exact sub_of hw rfl | with_reducible apply keeps_finish
    | with_reducible refine keeps_foldl ?_ ?_ | intro _ _ _ _ | intro _ _ _ | intro _ _ | split
    | with_reducible refine keeps_of_snd ?_ (by assumption) | with_reducible refine keeps_of_fst ?_ (by assumption)

theorem keeps_endStart (s : State) (fn : Nat) (slot : Nat) (r : Running) (code : Nat) (sev : Nat) (info : Nat) (kill :
    Nat) (h : Keeps w p s) (hw : Sub 0x84080 w) : Keeps w p (@State.endStart s fn slot r code sev info kill) := by
  delta State.endStart
  repeat' first
    | with_reducible assumption | with_reducible exact sub_of hw rfl | with_reducible apply keeps_finish
    | with_reducible apply keeps_leaveRunning | with_reducible apply keeps_finishKill
    | (extract_lets +onlyGivenNames x; refine keeps_cut (w := w) (p := p) (v := x) ?_ ?_; rotate_left; clear_value x; revert x; intros; rotate_right; unfold x; clear x)
    | (extract_lets +onlyGivenNames x; clear_value x; revert x; intros)
    | (extract_lets +onlyGivenNames x; revert x; intros) | split
    | with_reducible refine keeps_of_snd ?_ (by assumption) | with_reducible refine keeps_of_fst ?_ (by assumption)

theorem keeps_killProgram (s : State) (fn : Nat) (slot : Nat) (status : Nat) (sev : Nat) (h : Keeps w p s) (hw : Sub
    0x5c408c w) : Keeps w p (@State.killProgram s fn slot status sev) := by
  delta State.killProgram
  repeat' first
    | with_reducible assumption | with_reducible exact sub_of hw rfl | with_reducible apply keeps_unstarve
    | with_reducible apply keeps_killTransfers | with_reducible apply keeps_killBarrier
    | with_reducible apply keeps_killIterations | with_reducible apply keeps_endStart
    | with_reducible apply keeps_modRunning | with_reducible apply keeps_finishKill
    | with_reducible refine keeps_ite ?_ ?_ | (extract_lets +onlyGivenNames x; clear_value x; revert x; intros)
    | split

theorem keeps_logStall (s : State) (k : Nat) (event : Nat) (detail : List Byte) (h : Keeps w p s) (hw : Sub 0x8200004
    w) : Keeps w p (@State.logStall s k event detail) := by
  delta State.logStall
  repeat' first
    | with_reducible assumption | with_reducible apply keeps_measure

theorem keeps_killFunction (s : State) (fn : Nat) (status : Nat) (sev : Nat) (h : Keeps w p s) (hw : Sub 0x5c408c w) :
    Keeps w p (@State.killFunction s fn status sev) := by
  delta State.killFunction
  repeat' first
    | with_reducible assumption | with_reducible apply keeps_killProgram | with_reducible refine keeps_foldl ?_ ?_
    | intro _ _ _

theorem keeps_stallFault (s : State) (k : Nat) (code : Nat) (h : Keeps w p s) (hw : Sub 0x87c408c w) : Keeps w p
    (@State.stallFault s k code) := by
  delta State.stallFault
  repeat' first
    | with_reducible assumption | with_reducible exact sub_of hw rfl | with_reducible apply keeps_stallCode
    | with_reducible apply keeps_report | with_reducible apply keeps_killFunction
    | with_reducible apply keeps_stallEvent | with_reducible apply keeps_logStall
    | with_reducible refine keeps_ite ?_ ?_

theorem keeps_finishCopies (s : State) (x1 : Nat × Nat → Bool) (status : Nat) (sev : Nat) (h : Keeps w p s) (hw : Sub
    0x80080 w) : Keeps w p (@State.finishCopies s x1 status sev) := by
  delta State.finishCopies
  repeat' first
    | with_reducible assumption | with_reducible apply keeps_finish | with_reducible refine keeps_foldl ?_ ?_
    | with_reducible refine keeps_ite ?_ ?_ | intro _ _ _ | split

theorem keeps_failWaitingCopies (s : State) (x1 : Program) (h : Keeps w p s) (hw : Sub 0x80080 w) : Keeps w p
    (@State.failWaitingCopies s x1) := by
  delta State.failWaitingCopies
  repeat' first
    | with_reducible assumption | with_reducible apply keeps_finishCopies

theorem keeps_pairDone (s : State) (t : Ticket) (join : Bool) (h : Keeps w p s) (hw : Sub 0x18008c w) : Keeps w p
    (@State.pairDone s t join) := by
  delta State.pairDone
  repeat' first
    | with_reducible assumption | with_reducible exact sub_of hw rfl | with_reducible apply keeps_finish
    | with_reducible apply keeps_report | with_reducible refine keeps_ite ?_ ?_

theorem keeps_settleChanges (s : State) (fn : Nat) (slot : Nat) (x3 : Program) (h : Keeps w p s) (hw : Sub 0x218008c
    w) : Keeps w p (@State.settleChanges s fn slot x3) := by
  delta State.settleChanges
  repeat' first
    | with_reducible assumption | with_reducible exact sub_of hw rfl | with_reducible apply keeps_pairDone
    | with_reducible refine keeps_foldl ?_ ?_ | with_reducible refine keeps_ite ?_ ?_ | intro _ _ _
    | (extract_lets +onlyGivenNames x; refine keeps_cut (w := w) (p := p) (v := x) ?_ ?_; rotate_left; clear_value x; revert x; intros; rotate_right; unfold x; clear x)
    | (extract_lets +onlyGivenNames x; clear_value x; revert x; intros) | split
    | with_reducible refine keeps_set_gauge ?_ (sub_of hw rfl)

theorem keeps_settleQuadrants (s : State) (h : Keeps w p s) (hw : Sub 0x100 w) : Keeps w p (@State.settleQuadrants s)
    := by
  delta State.settleQuadrants
  repeat' first
    | with_reducible assumption | (extract_lets +onlyGivenNames x; clear_value x; revert x; intros)
    | with_reducible refine keeps_memFilter ?_ (sub_of hw rfl)

theorem keeps_setDie (s : State) (d : Nat) (on : Bool) (h : Keeps w p s) (hw : Sub 0x4100 w) : Keeps w p
    (@State.setDie s d on) := by
  delta State.setDie
  repeat' first
    | with_reducible assumption | with_reducible exact sub_of hw rfl | with_reducible apply keeps_settleQuadrants
    | with_reducible refine keeps_set_fabric ?_ (sub_of hw rfl)

theorem keeps_forgetCopied (s : State) (x1 : Program) (h : Keeps w p s) (hw : Sub 0x4000 w) : Keeps w p
    (@State.forgetCopied s x1) := by
  delta State.forgetCopied
  repeat' first
    | with_reducible assumption | with_reducible refine keeps_set_fabric ?_ (sub_of hw rfl)

theorem keeps_unload (s : State) (fn : Nat) (slot : Nat) (left : Slot) (h : Keeps w p s) (hw : Sub 0x218418c w) :
    Keeps w p (@State.unload s fn slot left) := by
  delta State.unload
  repeat' first
    | with_reducible assumption | with_reducible exact sub_of hw rfl | with_reducible apply keeps_setSlot
    | with_reducible apply keeps_endStart | with_reducible apply keeps_dropBuffers
    | with_reducible apply keeps_failWaitingCopies | with_reducible apply keeps_settleQuadrants
    | with_reducible apply keeps_forgetCopied | with_reducible apply keeps_settleChanges | split

theorem keeps_reap (s : State) (fn : Nat) (slot : Nat) (h : Keeps w p s) (hw : Sub 0x218418c w) : Keeps w p
    (@State.reap s fn slot) := by
  delta State.reap
  repeat' first
    | with_reducible assumption | with_reducible exact sub_of hw rfl | with_reducible apply keeps_unload
    | with_reducible refine keeps_ite ?_ ?_ | split | with_reducible refine keeps_of_snd ?_ (by assumption)
    | with_reducible refine keeps_of_fst ?_ (by assumption)

theorem keeps_written (s : State) (h : Keeps w p s) (hw : Sub 0x20000 w) : Keeps w p (@State.written s) := by
  delta State.written
  repeat' first
    | with_reducible assumption | with_reducible exact sub_of hw rfl | split
    | with_reducible refine keeps_of_snd ?_ (by assumption) | with_reducible refine keeps_of_fst ?_ (by assumption)
    | with_reducible refine keeps_set_memSys ?_ (sub_of hw rfl)

theorem keeps_shedOne (s : State) (g : Guarantee) (h : Keeps w p s) (hw : Sub 0x25e418c w) : Keeps w p (@State.shedOne
    s g) := by
  delta State.shedOne
  repeat' first
    | with_reducible assumption | with_reducible exact sub_of hw rfl | with_reducible apply keeps_reap
    | with_reducible apply keeps_modProgram | with_reducible apply keeps_killProgram
    | with_reducible apply keeps_stallEvent | with_reducible apply keeps_report
    | with_reducible refine keeps_ite ?_ ?_ | intro _ _ _ _ | intro _ _ _ | intro _ _
    | (extract_lets +onlyGivenNames x; clear_value x; revert x; intros) | split
    | with_reducible refine keeps_set_memSys ?_ (sub_of hw rfl)

theorem keeps_shedUntil (x0 : Nat) (x1 : State) (h : Keeps w p x1) (hw : Sub 0x25e418c w) : Keeps w p
    (@State.shedUntil x0 x1) := by
  induction x0 generalizing x1 with
  | zero => exact h
  | succ n ih =>
    unfold State.shedUntil
    split
    · exact h
    · split
      · split
        · exact h
        · exact keeps_report (hw := sub_of hw rfl) _ _ _ _ _ _ _ (keeps_set_memSys h (sub_of hw rfl))
      · exact ih _ (keeps_shedOne (hw := sub_of hw rfl) _ _ h)

theorem keeps_shed (s : State) (h : Keeps w p s) (hw : Sub 0x25e418c w) : Keeps w p (@State.shed s) := by
  delta State.shed
  repeat' first
    | with_reducible assumption | with_reducible apply keeps_shedUntil

theorem keeps_restoreUntil (x0 : Nat) (x1 : State) (h : Keeps w p x1) (hw : Sub 0x12000c w) : Keeps w p
    (@State.restoreUntil x0 x1) := by
  induction x0 generalizing x1 with
  | zero => exact h
  | succ n ih =>
    unfold State.restoreUntil
    split
    · exact h
    · dsimp only
      split
      · exact ih _ (keeps_report (hw := sub_of hw rfl) _ _ _ _ _ _ _ (keeps_set_memSys h (sub_of hw rfl)))
      · exact h

theorem keeps_leaveUnmet (s : State) (h : Keeps w p s) (hw : Sub 0x12200c w) : Keeps w p (@State.leaveUnmet s) := by
  delta State.leaveUnmet
  repeat' first
    | with_reducible assumption | with_reducible exact sub_of hw rfl | with_reducible apply keeps_withdraw
    | with_reducible refine keeps_ite ?_ ?_ | split | with_reducible refine keeps_of_snd ?_ (by assumption)
    | with_reducible refine keeps_of_fst ?_ (by assumption)
    | with_reducible refine keeps_set_memSys ?_ (sub_of hw rfl)

theorem keeps_restore (s : State) (h : Keeps w p s) (hw : Sub 0x12200c w) : Keeps w p (@State.restore s) := by
  delta State.restore
  repeat' first
    | with_reducible assumption | with_reducible exact sub_of hw rfl | with_reducible apply keeps_leaveUnmet
    | with_reducible apply keeps_restoreUntil

theorem keeps_putReg (s : State) (r : Reg) (i : Nat) (j : Nat) (v : Nat) (h : Keeps w p s) (hw : Sub 0x80 w) : Keeps w
    p (@State.putReg s r i j v) := by
  delta State.putReg
  repeat' first
    | with_reducible assumption | with_reducible apply keeps_setFld | with_reducible refine keeps_foldl ?_ ?_
    | intro _ _ _ | split

theorem keeps_flashWrite (s : State) (a : Nat) (l : List Byte) (h : Keeps w p s) (hw : Sub 0x800000 w) : Keeps w p
    (@State.flashWrite s a l) := by
  exact keeps_flashPut h (sub_of hw rfl)

theorem keeps_flashErase (s : State) (a : Nat) (n : Nat) (h : Keeps w p s) (hw : Sub 0x800000 w) : Keeps w p
    (@State.flashErase s a n) := by
  delta State.flashErase
  repeat' first
    | with_reducible assumption | with_reducible refine keeps_flashFilter ?_ (sub_of hw rfl)

theorem keeps_mapTile (d : Nat) (s : State) (x : Nat × Nat) (h : Keeps w p s) (hw : Sub 0x80 w) : Keeps w p
    (@State.mapTile d s x) := by
  delta State.mapTile
  repeat' first
    | with_reducible assumption | with_reducible apply keeps_setFld

theorem keeps_applyMap (s : State) (d : Nat) (h : Keeps w p s) (hw : Sub 0x4000080 w) : Keeps w p (@State.applyMap s
    d) := by
  delta State.applyMap
  repeat' first
    | with_reducible assumption | with_reducible exact sub_of hw rfl | with_reducible apply keeps_mapTile
    | with_reducible apply keeps_setFld | with_reducible refine keeps_foldl ?_ ?_ | intro _ _ _ _ | intro _ _ _
    | intro _ _
    | (extract_lets +onlyGivenNames x; refine keeps_cut (w := w) (p := p) (v := x) ?_ ?_; rotate_left; clear_value x; revert x; intros; rotate_right; unfold x; clear x)
    | (extract_lets +onlyGivenNames x; clear_value x; revert x; intros)
    | (extract_lets +onlyGivenNames x; revert x; intros) | split
    | with_reducible refine keeps_of_snd ?_ (by assumption) | with_reducible refine keeps_of_fst ?_ (by assumption)
    | with_reducible refine keeps_set_swatch ?_ (sub_of hw rfl)

theorem keeps_writeField (s : State) (h : Keeps w p s) (hw : Sub 0x1800000 w) : Keeps w p (@State.writeField s) := by
  delta State.writeField
  repeat' first
    | with_reducible assumption | with_reducible exact sub_of hw rfl | with_reducible apply keeps_flashWrite
    | with_reducible refine keeps_ite ?_ ?_ | (extract_lets +onlyGivenNames x; clear_value x; revert x; intros)
    | split | with_reducible refine keeps_set_boot ?_ (sub_of hw rfl)

theorem keeps_sealRegion (s : State) (k : Nat) (h : Keeps w p s) (hw : Sub 0x100 w) : Keeps w p (@State.sealRegion s
    k) := by
  delta State.sealRegion
  split
  · exact h
  · exact keeps_memWrites h (sub_of hw rfl)

theorem keeps_sealStalls (s : State) (h : Keeps w p s) (hw : Sub 0x100 w) : Keeps w p (@State.sealStalls s) := by
  delta State.sealStalls
  repeat' first
    | with_reducible assumption | with_reducible exact sub_of hw rfl | with_reducible apply keeps_sealRegion
    | with_reducible refine keeps_foldl ?_ ?_ | intro _ _ _ _ | intro _ _ _ | intro _ _ | split
    | with_reducible refine keeps_of_snd ?_ (by assumption) | with_reducible refine keeps_of_fst ?_ (by assumption)

theorem keeps_badAddress (s : State) (master : Nat) (stall : Nat) (addr : Nat) (h : Keeps w p s) (hw : Sub 0x10000c w)
    : Keeps w p (@State.badAddress s master stall addr) := by
  delta State.badAddress
  repeat' first
    | with_reducible assumption | with_reducible apply keeps_report

theorem keeps_ownWrite (s : State) (master : Nat) (a : Nat) (l : List Byte) (h : Keeps w p s) (hw : Sub 0x10010c w) :
    Keeps w p (@State.ownWrite s master a l) := by
  delta State.ownWrite
  repeat' first
    | with_reducible assumption | with_reducible exact sub_of hw rfl | with_reducible apply keeps_badAddress
    | with_reducible apply keeps_devWrite | with_reducible refine keeps_ite ?_ ?_ | split
    | with_reducible refine keeps_of_snd ?_ (by assumption) | with_reducible refine keeps_of_fst ?_ (by assumption)

theorem keeps_answer (s : State) (master : Nat) (stall : Nat) (a : Answer) (h : Keeps w p s) (hw : Sub 0x20000 w) :
    Keeps w p (@State.answer s master stall a) := by
  delta State.answer
  repeat' first
    | with_reducible assumption | with_reducible exact sub_of hw rfl | split
    | with_reducible refine keeps_of_snd ?_ (by assumption) | with_reducible refine keeps_of_fst ?_ (by assumption)
    | with_reducible refine keeps_set_memSys ?_ (sub_of hw rfl)

theorem keeps_refuseAccess (s : State) (master : Nat) (stall : Nat) (addr : Nat) (size : Nat) (isWrite : Bool) (h :
    Keeps w p s) (hw : Sub 0x12000c w) : Keeps w p (@State.refuseAccess s master stall addr size isWrite) := by
  delta State.refuseAccess
  repeat' first
    | with_reducible assumption | with_reducible exact sub_of hw rfl | with_reducible apply keeps_badAddress
    | with_reducible apply keeps_answer | with_reducible refine keeps_ite ?_ ?_
    | (extract_lets +onlyGivenNames x; refine keeps_cut (w := w) (p := p) (v := x) ?_ ?_; rotate_left; clear_value x; revert x; intros; rotate_right; unfold x; clear x)
    | (extract_lets +onlyGivenNames x; clear_value x; revert x; intros)
    | (extract_lets +onlyGivenNames x; revert x; intros) | split
    | with_reducible refine keeps_of_snd ?_ (by assumption) | with_reducible refine keeps_of_fst ?_ (by assumption)
    | with_reducible refine keeps_set_memSys ?_ (sub_of hw rfl)

theorem keeps_setRegulator (s : State) (k : Nat) (r : Regulator) (h : Keeps w p s) (hw : Sub 0x20000 w) : Keeps w p
    (@State.setRegulator s k r) := by
  delta State.setRegulator
  repeat' first
    | with_reducible assumption | with_reducible refine keeps_set_memSys ?_ (sub_of hw rfl)

theorem keeps_setLater (s : State) (f : Fld) (v : Nat) (i : Nat) (h : Keeps w p s) (hw : Sub 0x20080 w) : Keeps w p
    (@State.setLater s f v i) := by
  delta State.setLater
  repeat' first
    | with_reducible assumption | with_reducible exact sub_of hw rfl | with_reducible apply keeps_setFld
    | with_reducible refine keeps_ite ?_ ?_ | (extract_lets +onlyGivenNames x; clear_value x; revert x; intros)
    | with_reducible refine keeps_set_memSys ?_ (sub_of hw rfl)

theorem keeps_sendOn (s : State) (r : Request) (minimum : Bool) (h : Keeps w p s) (hw : Sub 0x20000 w) : Keeps w p
    (@State.sendOn s r minimum) := by
  delta State.sendOn
  repeat' first
    | with_reducible assumption | with_reducible refine keeps_ite ?_ ?_ | split
    | with_reducible refine keeps_set_memSys ?_ (sub_of hw rfl)

theorem keeps_letGo (s : State) (k : Nat) (h : Keeps w p s) (hw : Sub 0x20000 w) : Keeps w p (@State.letGo s k) := by
  delta State.letGo
  repeat' first
    | with_reducible assumption | with_reducible apply keeps_setRegulator | with_reducible apply keeps_sendOn
    | with_reducible refine keeps_foldl ?_ ?_ | intro _ _ _

theorem keeps_askMemory (s : State) (master : Nat) (stall : Nat) (addr : Nat) (size : Nat) (isWrite : Bool) (deadline
    : Nat) (h : Keeps w p s) (hw : Sub 0x20000 w) : Keeps w p (@State.askMemory s master stall addr size isWrite
    deadline) := by
  delta State.askMemory
  repeat' first
    | with_reducible assumption | with_reducible exact sub_of hw rfl | with_reducible apply keeps_letGo
    | with_reducible apply keeps_setRegulator | with_reducible refine keeps_ite ?_ ?_
    | (extract_lets +onlyGivenNames x; refine keeps_cut (w := w) (p := p) (v := x) ?_ ?_; rotate_left; clear_value x; revert x; intros; rotate_right; unfold x; clear x)
    | (extract_lets +onlyGivenNames x; clear_value x; revert x; intros)
    | (extract_lets +onlyGivenNames x; revert x; intros) | split
    | with_reducible refine keeps_of_snd ?_ (by assumption) | with_reducible refine keeps_of_fst ?_ (by assumption)
    | with_reducible refine keeps_set_memSys ?_ (sub_of hw rfl)

theorem keeps_execRegulatedRequestIssue (master : Fin 12) (stall : Fin 32) (addr : Nat) (size : Nat) (isWrite : Bool)
    (deadline : Nat) (s : State) (h : Keeps w p s) (hw : Sub 0x12000c w) : OutKeeps w p (@execRegulatedRequestIssue
    master stall addr size isWrite deadline s) := by
  delta execRegulatedRequestIssue
  repeat' first
    | with_reducible assumption | with_reducible exact sub_of hw rfl | with_reducible refine outKeeps_next ?_
    | with_reducible apply keeps_refuseAccess | with_reducible apply keeps_askMemory
    | with_reducible refine outKeeps_ite ?_ ?_

theorem keeps_refill (old : State) (s : State) (k : Nat) (h : Keeps w p old) (h1 : Keeps w p s) (hw : Sub 0x20000 w) :
    Keeps w p (@State.refill old s k) := by
  delta State.refill
  repeat' first
    | with_reducible assumption | with_reducible apply keeps_setRegulator

theorem keeps_letAllGo (x0 : Nat) (x1 : State) (h : Keeps w p x1) (hw : Sub 0x20000 w) : Keeps w p (@letAllGo x0 x1)
    := by
  induction x0 generalizing x1 with
  | zero => exact h
  | succ n ih =>
    have h1 : Keeps w p (regulatorKeys.foldl State.letGo x1) := keeps_foldl h fun t k ht => keeps_letGo (hw := sub_of hw rfl) t k ht
    unfold letAllGo
    dsimp only
    split
    · exact h1
    · exact ih _ h1

theorem keeps_execRegulatorRefill (s : State) (h : Keeps w p s) (hw : Sub 0x12200c w) : OutKeeps w p
    (@execRegulatorRefill s) := by
  delta execRegulatorRefill
  repeat' first
    | with_reducible assumption | with_reducible exact sub_of hw rfl | with_reducible refine outKeeps_next ?_
    | with_reducible apply keeps_refill | with_reducible apply keeps_written | with_reducible apply keeps_leaveUnmet
    | with_reducible apply keeps_letAllGo | with_reducible refine keeps_foldl ?_ ?_ | intro _ _ _ _ | intro _ _ _
    | intro _ _
    | (extract_lets +onlyGivenNames x; refine keeps_cut (w := w) (p := p) (v := x) ?_ ?_; rotate_left; clear_value x; revert x; intros; rotate_right; unfold x; clear x)
    | (extract_lets +onlyGivenNames x; clear_value x; revert x; intros)
    | (extract_lets +onlyGivenNames x; revert x; intros) | split
    | with_reducible refine keeps_of_snd ?_ (by assumption) | with_reducible refine keeps_of_fst ?_ (by assumption)

theorem keeps_charge (s : State) (master : Nat) (stall : Nat) (cost : Nat) (h : Keeps w p s) (hw : Sub 0x20000 w) : ∀
    t, @State.charge s master stall cost = some t → Keeps w p t := by
  intro t e
  unfold State.charge at e
  dsimp only at e
  repeat' split at e
  all_goals first
    | (cases e
       first
         | exact h
         | exact keeps_setRegulator (hw := sub_of hw rfl) _ _ _ h)
    | cases e

theorem keeps_spend (s : State) (n : Nat) (h : Keeps w p s) (hw : Sub 0x20000 w) : ∀ t, @State.spend s n = some t →
    Keeps w p t := by
  exact fun t e => keeps_charge (hw := sub_of hw rfl) _ _ _ _ h t e

theorem keeps_chargeBulk (s : State) (master : Nat) (stall : Nat) (n : Nat) (h : Keeps w p s) (hw : Sub 0x20000 w) : ∀
    t, @State.chargeBulk s master stall n = some t → Keeps w p t := by
  delta State.chargeBulk
  repeat' first
    | with_reducible assumption | with_reducible exact sub_of hw rfl | with_reducible apply keeps_charge | split
    | with_reducible refine keeps_of_snd ?_ (by assumption) | with_reducible refine keeps_of_fst ?_ (by assumption)

theorem keeps_execCommandSlotArbitration (pc : Fin 64) (windowNeeds : Bool) (s : State) (h : Keeps w p s) (hw : Sub
    0x20000 w) : OutKeeps w p (@execCommandSlotArbitration pc windowNeeds s) := by
  delta execCommandSlotArbitration
  repeat' first
    | with_reducible assumption | with_reducible refine outKeeps_next ?_ | with_reducible refine outKeeps_ite ?_ ?_
    | (extract_lets +onlyGivenNames x; clear_value x; revert x; intros) | split
    | with_reducible refine keeps_set_memSys ?_ (sub_of hw rfl)

theorem keeps_setChannel (s : State) (k : Nat) (c : Channel) (h : Keeps w p s) (hw : Sub 0x20000 w) : Keeps w p
    (@State.setChannel s k c) := by
  delta State.setChannel
  repeat' first
    | with_reducible assumption | with_reducible refine keeps_set_memSys ?_ (sub_of hw rfl)

theorem keeps_retire (s : State) (k : Nat) (h : Keeps w p s) (hw : Sub 0x3de418c w) : Keeps w p (@State.retire s k) :=
    by
  delta State.retire
  repeat' first
    | with_reducible assumption | with_reducible exact sub_of hw rfl | with_reducible apply keeps_report
    | with_reducible apply keeps_setChannel | with_reducible apply keeps_setFld
    | with_reducible apply keeps_writeField | with_reducible apply keeps_shed | with_reducible refine keeps_ite ?_ ?_

theorem keeps_corrected (s : State) (k : Nat) (h : Keeps w p s) (hw : Sub 0x3de418c w) : Keeps w p (@State.corrected s
    k) := by
  delta State.corrected
  repeat' first
    | with_reducible assumption | with_reducible exact sub_of hw rfl | with_reducible apply keeps_count
    | with_reducible apply keeps_setChannel | with_reducible apply keeps_report | with_reducible apply keeps_retire
    | with_reducible refine keeps_ite ?_ ?_

theorem keeps_uncorrectable (s : State) (k : Nat) (safety : Bool) (h : Keeps w p s) (hw : Sub 0x3de418c w) : Keeps w p
    (@State.uncorrectable s k safety) := by
  delta State.uncorrectable
  repeat' first
    | with_reducible assumption | with_reducible exact sub_of hw rfl | with_reducible apply keeps_retire
    | with_reducible apply keeps_report | with_reducible apply keeps_count

theorem keeps_regionFault (s : State) (a : Nat) (h : Keeps w p s) (hw : Sub 0x87c408c w) : Keeps w p
    (@State.regionFault s a) := by
  delta State.regionFault
  repeat' first
    | with_reducible assumption | with_reducible apply keeps_stallFault | split

theorem keeps_burst (s : State) (a : Nat) (safety : Bool) (b : BadBurst) (h : Keeps w p s) (hw : Sub 0x3de418c w) :
    Keeps w p (@State.burst s a safety b).1 := by
  delta State.burst
  repeat' first
    | with_reducible assumption | with_reducible exact sub_of hw rfl | with_reducible apply keeps_corrected
    | with_reducible apply keeps_uncorrectable | with_reducible refine keeps_ite ?_ ?_
    | (extract_lets +onlyGivenNames x; refine keeps_cut (w := w) (p := p) (v := x) ?_ ?_; rotate_left; clear_value x; revert x; intros; rotate_right; unfold x; clear x)
    | (extract_lets +onlyGivenNames x; refine keeps_cut (w := w) (p := p) (v := x.1) ?_ ?_; rotate_left; clear_value x; revert x; intros; rotate_right; unfold x; clear x)
    | (extract_lets +onlyGivenNames x; refine keeps_cut (w := w) (p := p) (v := x.2) ?_ ?_; rotate_left; clear_value x; revert x; intros; rotate_right; unfold x; clear x)
    | (extract_lets +onlyGivenNames x; clear_value x; revert x; intros)
    | (extract_lets +onlyGivenNames x; revert x; intros) | split
    | with_reducible refine keeps_of_snd ?_ (by assumption) | with_reducible refine keeps_of_fst ?_ (by assumption)
    | with_reducible refine keeps_snd_mk ?_ | with_reducible refine keeps_fst_mk ?_

theorem keeps_bursts (s : State) (a : Nat) (safety : Bool) (x3 : EccResult) (h : Keeps w p s) (hw : Sub 0x3de418c w) :
    Keeps w p (@State.bursts s a safety x3).1 := by
  induction x3 generalizing s with
  | nil => exact h
  | cons b l ih =>
    unfold State.bursts
    exact ih _ (keeps_burst (hw := sub_of hw rfl) _ _ _ _ h)

theorem keeps_eccRead (s : State) (a : Nat) (n : Nat) (ecc : EccResult) (safety : Bool) (h : Keeps w p s) (hw : Sub
    0xbfe418c w) : Keeps w p (@State.eccRead s a n ecc safety).1 := by
  delta State.eccRead
  repeat' first
    | with_reducible assumption | with_reducible exact sub_of hw rfl | with_reducible apply keeps_bursts
    | with_reducible apply keeps_regionFault | with_reducible refine keeps_ite ?_ ?_
    | (extract_lets +onlyGivenNames x; refine keeps_cut (w := w) (p := p) (v := x) ?_ ?_; rotate_left; clear_value x; revert x; intros; rotate_right; unfold x; clear x)
    | (extract_lets +onlyGivenNames x; refine keeps_cut (w := w) (p := p) (v := x.1) ?_ ?_; rotate_left; clear_value x; revert x; intros; rotate_right; unfold x; clear x)
    | (extract_lets +onlyGivenNames x; refine keeps_cut (w := w) (p := p) (v := x.2) ?_ ?_; rotate_left; clear_value x; revert x; intros; rotate_right; unfold x; clear x)
    | (extract_lets +onlyGivenNames x; clear_value x; revert x; intros)
    | (extract_lets +onlyGivenNames x; revert x; intros) | split
    | with_reducible refine keeps_of_snd ?_ (by assumption) | with_reducible refine keeps_of_fst ?_ (by assumption)
    | with_reducible refine keeps_of_22 ?_ (by assumption) | with_reducible refine keeps_of_222 ?_ (by assumption)
    | with_reducible refine keeps_of_11 ?_ (by assumption) | with_reducible refine keeps_snd_mk ?_
    | with_reducible refine keeps_fst_mk ?_

theorem keeps_monitor (s : State) (r : Request) (h : Keeps w p s) (hw : Sub 0x12008c w) : Keeps w p (@State.monitor s
    r) := by
  delta State.monitor
  repeat' first
    | with_reducible assumption | with_reducible exact sub_of hw rfl | with_reducible apply keeps_setFld
    | with_reducible apply keeps_report | with_reducible apply keeps_setRegulator
    | with_reducible refine keeps_ite ?_ ?_

theorem keeps_deadlineMiss (s : State) (r : Request) (h : Keeps w p s) (hw : Sub 0x12008c w) : Keeps w p
    (@State.deadlineMiss s r) := by
  delta State.deadlineMiss
  repeat' first
    | with_reducible assumption | with_reducible exact sub_of hw rfl | with_reducible apply keeps_count
    | with_reducible apply keeps_report | with_reducible apply keeps_setRegulator
    | with_reducible refine keeps_ite ?_ ?_
    | (extract_lets +onlyGivenNames x; refine keeps_cut (w := w) (p := p) (v := x) ?_ ?_; rotate_left; clear_value x; revert x; intros; rotate_right; unfold x; clear x)
    | (extract_lets +onlyGivenNames x; clear_value x; revert x; intros) | split

theorem keeps_execRegulatedRequestComplete (req : Nat) (ecc : EccResult) (s : State) (h : Keeps w p s) (hw : Sub
    0xbfe418c w) : OutKeeps w p (@execRegulatedRequestComplete req ecc s) := by
  delta execRegulatedRequestComplete
  repeat' first
    | with_reducible assumption | with_reducible exact sub_of hw rfl | with_reducible refine outKeeps_next ?_
    | with_reducible apply keeps_unpoison | with_reducible apply keeps_eccRead | with_reducible apply keeps_answer
    | with_reducible apply keeps_deadlineMiss | with_reducible apply keeps_monitor
    | with_reducible refine keeps_ite ?_ ?_ | with_reducible refine outKeeps_ite ?_ ?_
    | (extract_lets +onlyGivenNames x; refine keeps_cut (w := w) (p := p) (v := x) ?_ ?_; rotate_left; clear_value x; revert x; intros; rotate_right; unfold x; clear x)
    | (extract_lets +onlyGivenNames x; refine keeps_cut (w := w) (p := p) (v := x.1) ?_ ?_; rotate_left; clear_value x; revert x; intros; rotate_right; unfold x; clear x)
    | (extract_lets +onlyGivenNames x; refine keeps_cut (w := w) (p := p) (v := x.2) ?_ ?_; rotate_left; clear_value x; revert x; intros; rotate_right; unfold x; clear x)
    | (extract_lets +onlyGivenNames x; clear_value x; revert x; intros)
    | (extract_lets +onlyGivenNames x; revert x; intros) | split
    | with_reducible refine keeps_of_snd ?_ (by assumption) | with_reducible refine keeps_of_fst ?_ (by assumption)
    | with_reducible refine keeps_of_22 ?_ (by assumption) | with_reducible refine keeps_of_222 ?_ (by assumption)
    | with_reducible refine keeps_of_11 ?_ (by assumption) | with_reducible refine keeps_set_memSys ?_ (sub_of hw rfl)

theorem keeps_execRetireGranuleCopied (pc : Fin 64) (ecc : EccResult) (s : State) (h : Keeps w p s) (hw : Sub
    0xbfe418c w) : OutKeeps w p (@execRetireGranuleCopied pc ecc s) := by
  delta execRetireGranuleCopied
  dsimp only
  split
  · split
    · exact outKeeps_next h
    · rename_i t e
      have h1 := keeps_spend (hw := sub_of hw rfl) _ _ h _ e
      have h2 := keeps_eccRead (hw := sub_of hw rfl) t (granuleAt pc (s.channel pc).copied * 256) 256 ecc false h1
      refine outKeeps_next (keeps_setChannel (hw := sub_of hw rfl) _ _ _ ?_)
      split
      · exact keeps_set_memSys h2 (sub_of hw rfl)
      · exact h2
  · exact outKeeps_next h

theorem keeps_execScrubBurst (ecc : EccResult) (s : State) (h : Keeps w p s) (hw : Sub 0xbfe418c w) : OutKeeps w p
    (@execScrubBurst ecc s) := by
  delta execScrubBurst
  split
  · exact outKeeps_next h
  · rename_i t e
    exact outKeeps_next (keeps_set_memSys (keeps_eccRead (hw := sub_of hw rfl) _ _ _ _ _ (keeps_spend (hw := sub_of hw rfl) _ _ h _ e)) (sub_of hw rfl))

theorem keeps_execRefreshSlot (pc : Fin 64) (bank : Nat) (s : State) (h : Keeps w p s) (hw : Sub 0x20000 w) : OutKeeps
    w p (@execRefreshSlot pc bank s) := by
  delta execRefreshSlot
  repeat' first
    | with_reducible assumption | with_reducible refine outKeeps_next ?_ | with_reducible refine keeps_ite ?_ ?_
    | with_reducible refine outKeeps_ite ?_ ?_ | (extract_lets +onlyGivenNames x; clear_value x; revert x; intros)
    | with_reducible refine keeps_set_memSys ?_ (sub_of hw rfl)

theorem keeps_setStack (s : State) (k : Nat) (x : Stack) (h : Keeps w p s) (hw : Sub 0x20000 w) : Keeps w p
    (@State.setStack s k x) := by
  delta State.setStack
  repeat' first
    | with_reducible assumption | with_reducible refine keeps_set_memSys ?_ (sub_of hw rfl)

theorem keeps_stackTemp (s : State) (k : Nat) (t : Int) (h : Keeps w p s) (hw : Sub 0x12000c w) : Keeps w p
    (@State.stackTemp s k t) := by
  delta State.stackTemp
  repeat' first
    | with_reducible assumption | with_reducible exact sub_of hw rfl | with_reducible apply keeps_setStack
    | with_reducible apply keeps_report | with_reducible refine keeps_ite ?_ ?_ | split

theorem keeps_execStackTempRead (t0 : Int) (t1 : Int) (s : State) (h : Keeps w p s) (hw : Sub 0x12000c w) : OutKeeps w
    p (@execStackTempRead t0 t1 s) := by
  delta execStackTempRead
  repeat' first
    | with_reducible assumption | with_reducible refine outKeeps_next ?_ | with_reducible apply keeps_stackTemp

theorem keeps_execRefreshRateChange (stack : Fin 2) (s : State) (h : Keeps w p s) (hw : Sub 0x25e618c w) : OutKeeps w
    p (@execRefreshRateChange stack s) := by
  delta execRefreshRateChange
  repeat' first
    | with_reducible assumption | with_reducible exact sub_of hw rfl | with_reducible refine outKeeps_next ?_
    | with_reducible apply keeps_shed | with_reducible apply keeps_setStack | with_reducible apply keeps_restore
    | with_reducible refine outKeeps_ite ?_ ?_ | split

theorem keeps_refuseHalf (s : State) (r : Reg) (code : Nat) (i : Nat) (hi : Nat) (h : Keeps w p s) (hw : Sub 0x10008c
    w) : Keeps w p (@State.refuseHalf s r code i hi) := by
  delta State.refuseHalf
  repeat' first
    | with_reducible assumption | with_reducible apply keeps_refuseAt

theorem keeps_admitWrite (s : State) (s' : State) (r : Reg) (i : Nat) (hi : Nat) (mustAdmit : Bool) (h : Keeps w p s)
    (h1 : Keeps w p s') (hw : Sub 0x12008c w) : Keeps w p (@State.admitWrite s s' r i hi mustAdmit) := by
  delta State.admitWrite
  repeat' first
    | with_reducible assumption | with_reducible exact sub_of hw rfl | with_reducible apply keeps_written
    | with_reducible apply keeps_refuseHalf | with_reducible refine keeps_ite ?_ ?_ | split
    | with_reducible refine keeps_of_snd ?_ (by assumption) | with_reducible refine keeps_of_fst ?_ (by assumption)

theorem keeps_writePartCfg (s : State) (n : Nat) (v : Nat) (hi : Nat) (h : Keeps w p s) (hw : Sub 0x12008c w) : Keeps
    w p (@State.writePartCfg s n v hi) := by
  delta State.writePartCfg
  repeat' first
    | with_reducible assumption | with_reducible exact sub_of hw rfl | with_reducible apply keeps_refuseHalf
    | with_reducible apply keeps_setLater | with_reducible apply keeps_admitWrite
    | with_reducible refine keeps_ite ?_ ?_

theorem keeps_writePartRate (s : State) (n : Nat) (v : Nat) (hi : Nat) (h : Keeps w p s) (hw : Sub 0x12008c w) : Keeps
    w p (@State.writePartRate s n v hi) := by
  delta State.writePartRate
  repeat' first
    | with_reducible assumption | with_reducible exact sub_of hw rfl | with_reducible apply keeps_refuseHalf
    | with_reducible apply keeps_setLater | with_reducible apply keeps_admitWrite
    | with_reducible refine keeps_ite ?_ ?_

theorem keeps_writeStallRate (s : State) (k : Nat) (v : Nat) (hi : Nat) (h : Keeps w p s) (hw : Sub 0x12008c w) :
    Keeps w p (@State.writeStallRate s k v hi) := by
  delta State.writeStallRate
  repeat' first
    | with_reducible assumption | with_reducible exact sub_of hw rfl | with_reducible apply keeps_refuseHalf
    | with_reducible apply keeps_setLater | with_reducible apply keeps_admitWrite
    | with_reducible refine keeps_ite ?_ ?_

theorem keeps_writeMasterMap (s : State) (v : Nat) (hi : Nat) (h : Keeps w p s) (hw : Sub 0x12008c w) : Keeps w p
    (@State.writeMasterMap s v hi) := by
  delta State.writeMasterMap
  repeat' first
    | with_reducible assumption | with_reducible exact sub_of hw rfl | with_reducible apply keeps_refuseHalf
    | with_reducible apply keeps_setLater | with_reducible refine keeps_ite ?_ ?_

theorem keeps_execMemRegulationWrite (offset : Nat) (value : Nat) (s : State) (h : Keeps w p s) (hw : Sub 0x12008c w)
    : OutKeeps w p (@execMemRegulationWrite offset value s) := by
  delta execMemRegulationWrite
  repeat' first
    | with_reducible assumption | with_reducible refine outKeeps_next ?_ | with_reducible apply keeps_writePartCfg
    | with_reducible apply keeps_writePartRate | with_reducible apply keeps_writeStallRate
    | with_reducible apply keeps_writeMasterMap | with_reducible refine outKeeps_ite ?_ ?_ | split

theorem keeps_clearPartStat (s : State) (n : Nat) (h : Keeps w p s) (hw : Sub 0x80 w) : Keeps w p
    (@State.clearPartStat s n) := by
  delta State.clearPartStat
  repeat' first
    | with_reducible assumption | with_reducible apply keeps_setFld

theorem keeps_execClrPartStat (n : Fin 16) (s : State) (h : Keeps w p s) (hw : Sub 0x80 w) : OutKeeps w p
    (@execClrPartStat n s) := by
  delta execClrPartStat
  repeat' first
    | with_reducible assumption | with_reducible refine outKeeps_next ?_ | with_reducible apply keeps_clearPartStat

theorem keeps_countResend (s : State) (link : Nat) (h : Keeps w p s) (hw : Sub 0x80 w) : Keeps w p (@State.countResend
    s link) := by
  delta State.countResend
  repeat' first
    | with_reducible assumption | with_reducible apply keeps_count | with_reducible refine keeps_ite ?_ ?_

theorem keeps_execPurlCrcResend (link : Fin 14) (s : State) (h : Keeps w p s) (hw : Sub 0x80 w) : OutKeeps w p
    (@execPurlCrcResend link s) := by
  delta execPurlCrcResend
  repeat' first
    | with_reducible assumption | with_reducible refine outKeeps_next ?_ | with_reducible apply keeps_countResend
    | with_reducible refine outKeeps_ite ?_ ?_

theorem keeps_linkLost (s : State) (link : Nat) (h : Keeps w p s) (hw : Sub 0x12000c w) : Keeps w p (@State.linkLost s
    link) := by
  delta State.linkLost
  repeat' first
    | with_reducible assumption | with_reducible exact sub_of hw rfl | with_reducible apply keeps_report
    | with_reducible refine keeps_ite ?_ ?_ | with_reducible refine keeps_set_memSys ?_ (sub_of hw rfl)

theorem keeps_execPurlLinkDown (link : Fin 14) (s : State) (h : Keeps w p s) (hw : Sub 0x12000c w) : OutKeeps w p
    (@execPurlLinkDown link s) := by
  delta execPurlLinkDown
  repeat' first
    | with_reducible assumption | with_reducible refine outKeeps_next ?_ | with_reducible apply keeps_linkLost

theorem keeps_execClrPurlRetry (die : Fin 6) (k : Fin 2) (s : State) (h : Keeps w p s) (hw : Sub 0x80 w) : OutKeeps w
    p (@execClrPurlRetry die k s) := by
  delta execClrPurlRetry
  repeat' first
    | with_reducible assumption | with_reducible refine outKeeps_next ?_ | with_reducible apply keeps_setFld

theorem keeps_execClrPurlWhRetry (k : Fin 2) (s : State) (h : Keeps w p s) (hw : Sub 0x80 w) : OutKeeps w p
    (@execClrPurlWhRetry k s) := by
  delta execClrPurlWhRetry
  repeat' first
    | with_reducible assumption | with_reducible refine outKeeps_next ?_ | with_reducible apply keeps_setFld

theorem keeps_abortSlice (s : State) (x : SliceRun) (sev : Nat) (h : Keeps w p s) (hw : Sub 0x410008c w) : Keeps w p
    (@State.abortSlice s x sev) := by
  delta State.abortSlice
  repeat' first
    | with_reducible assumption | with_reducible exact sub_of hw rfl | with_reducible apply keeps_report
    | with_reducible apply keeps_count | (extract_lets +onlyGivenNames x; clear_value x; revert x; intros)
    | with_reducible refine keeps_set_swatch ?_ (sub_of hw rfl)

theorem keeps_bookAt (s : State) (x1 : Program) (beat : Nat) (h : Keeps w p s) (hw : Sub 0x410008c w) : Keeps w p
    (@State.bookAt s x1 beat) := by
  delta State.bookAt
  repeat' first
    | with_reducible assumption | with_reducible apply keeps_abortSlice | with_reducible refine keeps_foldl ?_ ?_
    | intro _ _ _

theorem keeps_bookSlot (s : State) (fn : Nat) (slot : Nat) (beat : Nat) (h : Keeps w p s) (hw : Sub 0x410008c w) :
    Keeps w p (@State.bookSlot s fn slot beat) := by
  delta State.bookSlot
  repeat' first
    | with_reducible assumption | with_reducible exact sub_of hw rfl | with_reducible apply keeps_bookAt
    | with_reducible refine keeps_ite ?_ ?_ | intro _ _ _ _ | intro _ _ _ | intro _ _ | split
    | with_reducible refine keeps_of_snd ?_ (by assumption) | with_reducible refine keeps_of_fst ?_ (by assumption)

end Sys2Proof.Machine
end

