-- ==== Sys2Proof/Laws/KeepsSensing.lean ====
section
/-!
SUPPORT. Laws/KeepsSensing.lean: what each operation and command keeps (the pair link, sensing); `keeps_x` is about `x`, whose
components of State are the bits of its `Sub`.
-/

namespace Sys2Proof.Machine

variable {w : Nat} {p : State}

theorem keeps_setPair (s : State) (x1 : PairLink) (h : Keeps w p s) (hw : Sub 0x40000 w) : Keeps w p (@State.setPair s
    x1) := by
  delta State.setPair
  repeat' first
    | with_reducible assumption | with_reducible refine keeps_set_pair ?_ (sub_of hw rfl)

theorem keeps_trainFail (s : State) (h : Keeps w p s) (hw : Sub 0x14000c w) : Keeps w p (@State.trainFail s) := by
  delta State.trainFail
  repeat' first
    | with_reducible assumption | with_reducible exact sub_of hw rfl | with_reducible apply keeps_setPair
    | with_reducible apply keeps_report | with_reducible refine keeps_ite ?_ ?_

theorem keeps_tellCommand (s : State) (old : Bool) (cause : Nat) (h : Keeps w p s) (hw : Sub 0x100000 w) : Keeps w p
    (@State.tellCommand s old cause) := by
  delta State.tellCommand
  repeat' first
    | with_reducible assumption | with_reducible exact sub_of hw rfl | with_reducible apply keeps_event
    | with_reducible refine keeps_ite ?_ ?_ | split | with_reducible refine keeps_of_snd ?_ (by assumption)
    | with_reducible refine keeps_of_fst ?_ (by assumption)

theorem keeps_setCommand (s : State) (c : Bool) (cause : Nat) (h : Keeps w p s) (hw : Sub 0x10000c w) : Keeps w p
    (@State.setCommand s c cause) := by
  delta State.setCommand
  repeat' first
    | with_reducible assumption | with_reducible exact sub_of hw rfl | with_reducible apply keeps_tellCommand
    | with_reducible apply keeps_report | with_reducible refine keeps_ite ?_ ?_
    | (extract_lets +onlyGivenNames x; clear_value x; revert x; intros)
    | with_reducible refine keeps_set_safety ?_ (sub_of hw rfl)

theorem keeps_failBarrier (s : State) (id : Nat) (h : Keeps w p s) (hw : Sub 0x1c408c w) : Keeps w p
    (@State.failBarrier s id) := by
  delta State.failBarrier
  repeat' first
    | with_reducible assumption | with_reducible exact sub_of hw rfl | with_reducible apply keeps_setBarrier
    | with_reducible apply keeps_finish | with_reducible apply keeps_report | with_reducible apply keeps_finishKill
    | with_reducible apply keeps_modProgram | with_reducible refine keeps_ite ?_ ?_
    | (extract_lets +onlyGivenNames x; refine keeps_cut (w := w) (p := p) (v := x) ?_ ?_; rotate_left; clear_value x; revert x; intros; rotate_right; unfold x; clear x)
    | split

theorem keeps_releaseAt (s : State) (id : Nat) (b : Barrier) (rel : Nat) (h : Keeps w p s) (hw : Sub 0x414408c w) :
    Keeps w p (@State.releaseAt s id b rel) := by
  delta State.releaseAt
  repeat' first
    | with_reducible assumption | with_reducible exact sub_of hw rfl | with_reducible apply keeps_modRunning
    | with_reducible apply keeps_setBarrier | with_reducible apply keeps_bookSlot | intro _ _ _ _ | intro _ _ _
    | intro _ _
    | (extract_lets +onlyGivenNames x; refine keeps_cut (w := w) (p := p) (v := x) ?_ ?_; rotate_left; clear_value x; revert x; intros; rotate_right; unfold x; clear x)
    | (extract_lets +onlyGivenNames x; clear_value x; revert x; intros)
    | (extract_lets +onlyGivenNames x; revert x; intros) | split
    | with_reducible refine keeps_of_snd ?_ (by assumption) | with_reducible refine keeps_of_fst ?_ (by assumption)

theorem keeps_tryRelease (s : State) (id : Nat) (h : Keeps w p s) (hw : Sub 0x414408c w) : Keeps w p
    (@State.tryRelease s id) := by
  delta State.tryRelease
  repeat' first
    | with_reducible assumption | with_reducible exact sub_of hw rfl | with_reducible apply keeps_sendFlit
    | with_reducible apply keeps_releaseAt | with_reducible refine keeps_ite ?_ ?_
    | (extract_lets +onlyGivenNames x; clear_value x; revert x; intros) | split

theorem keeps_arriveOwn (s : State) (id : Nat) (gen : Nat) (fn : Nat) (slot : Nat) (h : Keeps w p s) (hw : Sub
    0x414408c w) : Keeps w p (@State.arriveOwn s id gen fn slot) := by
  delta State.arriveOwn
  repeat' first
    | with_reducible assumption | with_reducible exact sub_of hw rfl | with_reducible apply keeps_setBarrier
    | with_reducible apply keeps_setPair | with_reducible apply keeps_tryRelease | with_reducible apply keeps_sendFlit

theorem keeps_pairLost (s : State) (h : Keeps w p s) (hw : Sub 0x1c408c w) : Keeps w p (@State.pairLost s) := by
  delta State.pairLost
  repeat' first
    | with_reducible assumption | with_reducible exact sub_of hw rfl | with_reducible apply keeps_setPair
    | with_reducible apply keeps_report | with_reducible apply keeps_setBarrier
    | with_reducible apply keeps_failBarrier | with_reducible apply keeps_tellCommand
    | with_reducible apply keeps_setCommand | with_reducible refine keeps_foldl ?_ ?_
    | with_reducible refine keeps_ite ?_ ?_ | intro _ _ _ | split

theorem keeps_checkSteps (s : State) (h : Keeps w p s) (hw : Sub 0x40000 w) : Keeps w p (@State.checkSteps s) := by
  delta State.checkSteps
  repeat' first
    | with_reducible assumption | with_reducible apply keeps_setPair | with_reducible refine keeps_ite ?_ ?_

theorem keeps_pairEnable (s : State) (h : Keeps w p s) (hw : Sub 0x10008c w) : Keeps w p (@State.pairEnable s) := by
  delta State.pairEnable
  repeat' first
    | with_reducible assumption | with_reducible exact sub_of hw rfl | with_reducible apply keeps_refuse
    | with_reducible apply keeps_setFld | with_reducible refine keeps_ite ?_ ?_

theorem keeps_execPairEnable (s : State) (h : Keeps w p s) (hw : Sub 0x10008c w) : OutKeeps w p (@execPairEnable s) :=
    by
  delta execPairEnable
  repeat' first
    | with_reducible assumption | with_reducible refine outKeeps_next ?_ | with_reducible apply keeps_pairEnable

theorem keeps_execPairTrainAttempt (s : State) (h : Keeps w p s) (hw : Sub 0x40080 w) : OutKeeps w p
    (@execPairTrainAttempt s) := by
  delta execPairTrainAttempt
  repeat' first
    | with_reducible assumption | with_reducible exact sub_of hw rfl | with_reducible refine outKeeps_next ?_
    | with_reducible apply keeps_setPair | with_reducible apply keeps_count | with_reducible refine outKeeps_ite ?_ ?_

theorem keeps_execPairTrainTimeout (s : State) (h : Keeps w p s) (hw : Sub 0x14000c w) : OutKeeps w p
    (@execPairTrainTimeout s) := by
  delta execPairTrainTimeout
  repeat' first
    | with_reducible assumption | with_reducible refine outKeeps_next ?_ | with_reducible apply keeps_trainFail
    | with_reducible refine outKeeps_ite ?_ ?_

theorem keeps_execTrainA (s : State) (h : Keeps w p s) (hw : Sub 0x14000c w) : OutKeeps w p (@execTrainA s) := by
  delta execTrainA
  repeat' first
    | with_reducible assumption | with_reducible exact sub_of hw rfl | with_reducible refine outKeeps_next ?_
    | with_reducible apply keeps_setPair | with_reducible apply keeps_trainFail
    | with_reducible refine outKeeps_ite ?_ ?_

theorem keeps_execTrainB (s : State) (h : Keeps w p s) (hw : Sub 0x14000c w) : OutKeeps w p (@execTrainB s) := by
  delta execTrainB
  repeat' first
    | with_reducible assumption | with_reducible exact sub_of hw rfl | with_reducible refine outKeeps_next ?_
    | with_reducible apply keeps_trainFail | with_reducible apply keeps_setPair
    | with_reducible refine keeps_ite ?_ ?_ | with_reducible refine outKeeps_ite ?_ ?_ | split
    | with_reducible refine keeps_of_snd ?_ (by assumption) | with_reducible refine keeps_of_fst ?_ (by assumption)

theorem keeps_execTrainC (peerRole : Bool) (s : State) (h : Keeps w p s) (hw : Sub 0x14000c w) : OutKeeps w p
    (@execTrainC peerRole s) := by
  delta execTrainC
  repeat' first
    | with_reducible assumption | with_reducible exact sub_of hw rfl | with_reducible refine outKeeps_next ?_
    | with_reducible apply keeps_trainFail | with_reducible apply keeps_report | with_reducible apply keeps_setPair
    | with_reducible refine outKeeps_ite ?_ ?_

theorem keeps_execSkip (s : State) (h : Keeps w p s) (hw : Sub 0x40000 w) : OutKeeps w p (@execSkip s) := by
  delta execSkip
  repeat' first
    | with_reducible assumption | with_reducible refine outKeeps_next ?_ | with_reducible apply keeps_setPair
    | with_reducible refine outKeeps_ite ?_ ?_

theorem keeps_header (s : State) (x1 : FlitHdr) (kind : Nat) (body : List Byte) (h : Keeps w p s) (hw : Sub 0x40000 w)
    : Keeps w p (@State.header s x1 kind body).1 := by
  delta State.header
  repeat' first
    | with_reducible assumption | with_reducible apply keeps_setPair | split

theorem keeps_sequenced (s : State) (x1 : FlitHdr) (kind : Nat) (body : List Byte) (h : Keeps w p s) (hw : Sub 0x40000
    w) : Keeps w p (@State.sequenced s x1 kind body).1 := by
  delta State.sequenced
  repeat' first
    | with_reducible assumption | with_reducible apply keeps_header | with_reducible apply keeps_setPair
    | (extract_lets +onlyGivenNames x; clear_value x; revert x; intros) | split
    | with_reducible refine keeps_of_fst ?_ (by assumption)

theorem keeps_execIdle (x0 : FlitHdr) (s : State) (h : Keeps w p s) (hw : Sub 0x40000 w) : OutKeeps w p (@execIdle x0
    s) := by
  delta execIdle
  repeat' first
    | with_reducible assumption | with_reducible refine outKeeps_next ?_ | with_reducible apply keeps_header

theorem keeps_execStatusFlit (x0 : FlitHdr) (role : Bool) (mode : Nat) (step : Nat) (beatStep : Nat) (authority : Nat)
    (s : State) (h : Keeps w p s) (hw : Sub 0x40000 w) : OutKeeps w p (@execStatusFlit x0 role mode step beatStep
    authority s) := by
  delta execStatusFlit
  repeat' first
    | with_reducible assumption | with_reducible refine outKeeps_next ?_ | with_reducible apply keeps_header
    | with_reducible apply keeps_checkSteps | with_reducible apply keeps_setPair
    | with_reducible refine outKeeps_ite ?_ ?_

theorem keeps_exchange (s : State) (o2 : Int) (h : Keeps w p s) (hw : Sub 0x44000 w) : Keeps w p (@State.exchange s
    o2) := by
  delta State.exchange
  repeat' first
    | with_reducible assumption | with_reducible exact sub_of hw rfl | with_reducible apply keeps_setPair
    | with_reducible refine keeps_ite ?_ ?_ | (extract_lets +onlyGivenNames x; clear_value x; revert x; intros)
    | with_reducible refine keeps_set_fabric_pair ?_ (sub_of hw rfl)

theorem keeps_execTime (x0 : FlitHdr) (sent : Nat) (echo : Nat) (echoRecv : Nat) (beatStep : Nat) (s : State) (h :
    Keeps w p s) (hw : Sub 0x44000 w) : OutKeeps w p (@execTime x0 sent echo echoRecv beatStep s) := by
  delta execTime
  repeat' first
    | with_reducible assumption | with_reducible exact sub_of hw rfl | with_reducible refine outKeeps_next ?_
    | with_reducible apply keeps_header | with_reducible apply keeps_setPair | with_reducible apply keeps_checkSteps
    | with_reducible apply keeps_exchange | with_reducible refine outKeeps_ite ?_ ?_

theorem keeps_execPairTimeSend (s : State) (h : Keeps w p s) (hw : Sub 0x40000 w) : OutKeeps w p (@execPairTimeSend s)
    := by
  delta execPairTimeSend
  repeat' first
    | with_reducible assumption | with_reducible refine outKeeps_next ?_ | with_reducible apply keeps_sendFlit
    | with_reducible apply keeps_setPair | with_reducible refine outKeeps_ite ?_ ?_

theorem keeps_execPairStatusSend (s : State) (h : Keeps w p s) (hw : Sub 0x40000 w) : OutKeeps w p
    (@execPairStatusSend s) := by
  delta execPairStatusSend
  repeat' first
    | with_reducible assumption | with_reducible exact sub_of hw rfl | with_reducible refine outKeeps_next ?_
    | with_reducible apply keeps_sendFlit | with_reducible refine keeps_ite ?_ ?_
    | with_reducible refine outKeeps_ite ?_ ?_
    | (extract_lets +onlyGivenNames x; refine keeps_cut (w := w) (p := p) (v := x) ?_ ?_; rotate_left; clear_value x; revert x; intros; rotate_right; unfold x; clear x)
    | (extract_lets +onlyGivenNames x; clear_value x; revert x; intros)
    | (extract_lets +onlyGivenNames x; revert x; intros) | split
    | with_reducible refine keeps_of_snd ?_ (by assumption) | with_reducible refine keeps_of_fst ?_ (by assumption)

theorem keeps_execData (x0 : FlitHdr) (xfer : Fin 64) (buffer : Fin 1024) (last : Bool) (offset : Nat) (bytes : List
    Byte) (s : State) (h : Keeps w p s) (hw : Sub 0x44100 w) : OutKeeps w p (@execData x0 xfer buffer last offset
    bytes s) := by
  delta execData
  repeat' first
    | with_reducible assumption | with_reducible exact sub_of hw rfl | with_reducible refine outKeeps_next ?_
    | with_reducible apply keeps_sequenced | with_reducible apply keeps_clearReady
    | with_reducible apply keeps_devWrite | with_reducible apply keeps_setXfer | with_reducible apply keeps_fillHalf
    | with_reducible refine outKeeps_ite ?_ ?_ | (extract_lets +onlyGivenNames x; clear_value x; revert x; intros)
    | split

theorem keeps_sendHalf (s : State) (xfer : Nat) (size : Nat) (addr : Nat) (x4 : Nat) (x5 : Nat) (h : Keeps w p s) (hw
    : Sub 0x40000 w) : Keeps w p (@State.sendHalf s xfer size addr x4 x5).1 := by
  induction x4 generalizing s x5 with
  | zero => exact h
  | succ n ih =>
    unfold State.sendHalf
    split
    · exact h
    · exact ih _ _ (keeps_sendFlit (hw := sub_of hw rfl) _ _ _ h)

theorem keeps_execPairXferSend (xfer : Fin 64) (s : State) (h : Keeps w p s) (hw : Sub 0x44100 w) : OutKeeps w p
    (@execPairXferSend xfer s) := by
  delta execPairXferSend
  repeat' first
    | with_reducible assumption | with_reducible exact sub_of hw rfl | with_reducible refine outKeeps_next ?_
    | with_reducible apply keeps_sendHalf | with_reducible apply keeps_setXfer | with_reducible apply keeps_clearReady
    | with_reducible refine outKeeps_ite ?_ ?_ | (extract_lets +onlyGivenNames x; clear_value x; revert x; intros)
    | split

theorem keeps_stopXfer (s : State) (n : Nat) (h : Keeps w p s) (hw : Sub 0x44100 w) : Keeps w p (@State.stopXfer s n)
    := by
  delta State.stopXfer
  repeat' first
    | with_reducible assumption | with_reducible exact sub_of hw rfl | with_reducible apply keeps_clearReady
    | with_reducible apply keeps_setXfer
    | (extract_lets +onlyGivenNames x; refine keeps_cut (w := w) (p := p) (v := x) ?_ ?_; rotate_left; clear_value x; revert x; intros; rotate_right; unfold x; clear x)
    | (extract_lets +onlyGivenNames x; clear_value x; revert x; intros)
    | (extract_lets +onlyGivenNames x; revert x; intros) | split
    | with_reducible refine keeps_of_snd ?_ (by assumption) | with_reducible refine keeps_of_fst ?_ (by assumption)

theorem keeps_execArrive (x0 : FlitHdr) (barrier : Fin 64) (gen : Nat) (s : State) (h : Keeps w p s) (hw : Sub
    0x414408c w) : OutKeeps w p (@execArrive x0 barrier gen s) := by
  delta execArrive
  repeat' first
    | with_reducible assumption | with_reducible exact sub_of hw rfl | with_reducible refine outKeeps_next ?_
    | with_reducible apply keeps_sequenced | with_reducible apply keeps_tryRelease
    | with_reducible apply keeps_setBarrier | with_reducible refine outKeeps_ite ?_ ?_

theorem keeps_execRelease (x0 : FlitHdr) (barrier : Fin 64) (gen : Nat) (rel : Nat) (s : State) (h : Keeps w p s) (hw
    : Sub 0x41c408c w) : OutKeeps w p (@execRelease x0 barrier gen rel s) := by
  delta execRelease
  repeat' first
    | with_reducible assumption | with_reducible exact sub_of hw rfl | with_reducible refine outKeeps_next ?_
    | with_reducible apply keeps_sequenced | with_reducible apply keeps_releaseAt
    | with_reducible apply keeps_failBarrier | with_reducible apply keeps_sendAbort
    | with_reducible refine outKeeps_ite ?_ ?_ | split

theorem keeps_execAbort (x0 : FlitHdr) (isBarrier : Bool) (id : Fin 64) (gen : Nat) (reason : Nat) (s : State) (h :
    Keeps w p s) (hw : Sub 0x5c418c w) : OutKeeps w p (@execAbort x0 isBarrier id gen reason s) := by
  delta execAbort
  repeat' first
    | with_reducible assumption | with_reducible exact sub_of hw rfl | with_reducible refine outKeeps_next ?_
    | with_reducible apply keeps_sequenced | with_reducible apply keeps_report | with_reducible apply keeps_setPair
    | with_reducible apply keeps_stopXfer | with_reducible apply keeps_setBarrier
    | with_reducible apply keeps_failBarrier | with_reducible apply keeps_killProgram
    | with_reducible refine outKeeps_ite ?_ ?_ | (extract_lets +onlyGivenNames x; clear_value x; revert x; intros)
    | split

theorem keeps_execPairLostTimeout (s : State) (h : Keeps w p s) (hw : Sub 0x1c408c w) : OutKeeps w p
    (@execPairLostTimeout s) := by
  delta execPairLostTimeout
  repeat' first
    | with_reducible assumption | with_reducible refine outKeeps_next ?_ | with_reducible apply keeps_pairLost
    | with_reducible refine outKeeps_ite ?_ ?_

theorem keeps_execBarrierTimeout (barrier : Fin 64) (s : State) (h : Keeps w p s) (hw : Sub 0x1c408c w) : OutKeeps w p
    (@execBarrierTimeout barrier s) := by
  delta execBarrierTimeout
  repeat' first
    | with_reducible assumption | with_reducible exact sub_of hw rfl | with_reducible refine outKeeps_next ?_
    | with_reducible apply keeps_failBarrier | with_reducible apply keeps_sendAbort
    | with_reducible refine outKeeps_ite ?_ ?_
    | (extract_lets +onlyGivenNames x; refine keeps_cut (w := w) (p := p) (v := x) ?_ ?_; rotate_left; clear_value x; revert x; intros; rotate_right; unfold x; clear x)
    | (extract_lets +onlyGivenNames x; clear_value x; revert x; intros)
    | (extract_lets +onlyGivenNames x; revert x; intros) | split

theorem keeps_setTrig (s : State) (n : Nat) (t : Trigger) (h : Keeps w p s) (hw : Sub 0x8000 w) : Keeps w p
    (@State.setTrig s n t) := by
  delta State.setTrig
  repeat' first
    | with_reducible assumption | with_reducible refine keeps_set_sensing ?_ (sub_of hw rfl)

theorem keeps_recompute (s : State) (h : Keeps w p s) (hw : Sub 0x8000 w) : Keeps w p (@State.recompute s) := by
  delta State.recompute
  repeat' first
    | with_reducible assumption | with_reducible exact sub_of hw rfl | with_reducible refine keeps_ite ?_ ?_
    | intro _ _ _ _ | intro _ _ _ | intro _ _
    | (extract_lets +onlyGivenNames x; refine keeps_cut (w := w) (p := p) (v := x) ?_ ?_; rotate_left; clear_value x; revert x; intros; rotate_right; unfold x; clear x)
    | (extract_lets +onlyGivenNames x; clear_value x; revert x; intros)
    | (extract_lets +onlyGivenNames x; revert x; intros) | split
    | with_reducible refine keeps_of_snd ?_ (by assumption) | with_reducible refine keeps_of_fst ?_ (by assumption)
    | with_reducible refine keeps_set_sensing ?_ (sub_of hw rfl)

theorem keeps_putSlot (s : State) (n : Nat) (k : Nat) (x : FrameSlot) (h : Keeps w p s) (hw : Sub 0x8000 w) : Keeps w
    p (@State.putSlot s n k x) := by
  delta State.putSlot
  repeat' first
    | with_reducible assumption | with_reducible apply keeps_modCtx

theorem keeps_makeReady (s : State) (n : Nat) (k : Nat) (h : Keeps w p s) (hw : Sub 0x10818c w) : Keeps w p
    (@State.makeReady s n k) := by
  delta State.makeReady
  repeat' first
    | with_reducible assumption | with_reducible exact sub_of hw rfl | with_reducible apply keeps_tally
    | with_reducible apply keeps_setCtx | with_reducible apply keeps_ownWrite | with_reducible apply keeps_slotWords
    | with_reducible refine keeps_ite ?_ ?_ | (extract_lets +onlyGivenNames x; clear_value x; revert x; intros)
    | split

theorem keeps_makeVoid (s : State) (n : Nat) (i : Nat) (h : Keeps w p s) (hw : Sub 0x10818c w) : Keeps w p
    (@State.makeVoid s n i) := by
  delta State.makeVoid
  repeat' first
    | with_reducible assumption | with_reducible exact sub_of hw rfl | with_reducible apply keeps_makeReady
    | with_reducible apply keeps_setCtx | with_reducible refine keeps_ite ?_ ?_
    | (extract_lets +onlyGivenNames x; clear_value x; revert x; intros) | split

theorem keeps_voidNow (s : State) (n : Nat) (h : Keeps w p s) (hw : Sub 0x10818c w) : Keeps w p (@State.voidNow s n)
    := by
  delta State.voidNow
  repeat' first
    | with_reducible assumption | with_reducible exact sub_of hw rfl | with_reducible apply keeps_makeVoid
    | with_reducible refine keeps_ite ?_ ?_ | split | with_reducible refine keeps_of_snd ?_ (by assumption)
    | with_reducible refine keeps_of_fst ?_ (by assumption)

theorem keeps_conds (s : State) (n : Nat) (g : Context → Context) (h : Keeps w p s) (hw : Sub 0x10818c w) : Keeps w p
    (@State.conds s n g) := by
  delta State.conds
  repeat' first
    | with_reducible assumption | with_reducible exact sub_of hw rfl | with_reducible apply keeps_modCtx
    | with_reducible apply keeps_setFld | with_reducible apply keeps_recompute | with_reducible apply keeps_voidNow
    | with_reducible apply keeps_report | with_reducible refine keeps_ite ?_ ?_
    | (extract_lets +onlyGivenNames x; refine keeps_cut (w := w) (p := p) (v := x) ?_ ?_; rotate_left; clear_value x; revert x; intros; rotate_right; unfold x; clear x)
    | (extract_lets +onlyGivenNames x; clear_value x; revert x; intros) | split

theorem keeps_freeFrameSlot (s : State) (n : Nat) (f : Frame) (h : Keeps w p s) (hw : Sub 0x8000 w) : Keeps w p
    (@State.freeFrameSlot s n f) := by
  delta State.freeFrameSlot
  repeat' first
    | with_reducible assumption | with_reducible apply keeps_modCtx | split

theorem keeps_dropUnmatched (s : State) (n : Nat) (h : Keeps w p s) (hw : Sub 0x8000 w) : Keeps w p
    (@State.dropUnmatched s n) := by
  delta State.dropUnmatched
  repeat' first
    | with_reducible assumption | with_reducible exact sub_of hw rfl | with_reducible apply keeps_modCtx
    | with_reducible apply keeps_freeFrameSlot | with_reducible refine keeps_ite ?_ ?_ | intro _ _ _ _ | intro _ _ _
    | intro _ _ | split | with_reducible refine keeps_of_snd ?_ (by assumption)
    | with_reducible refine keeps_of_fst ?_ (by assumption)

theorem keeps_rearm (s : State) (line : Nat) (h : Keeps w p s) (hw : Sub 0x10808c w) : Keeps w p (@State.rearm s line)
    := by
  delta State.rearm
  repeat' first
    | with_reducible assumption | with_reducible exact sub_of hw rfl | with_reducible apply keeps_setTrig
    | with_reducible apply keeps_setFld | with_reducible apply keeps_report | with_reducible apply keeps_modCtx
    | with_reducible apply keeps_dropUnmatched | with_reducible refine keeps_foldl ?_ ?_
    | with_reducible refine keeps_ite ?_ ?_ | intro _ _ _

theorem keeps_setUnsync (s : State) (n : Nat) (h : Keeps w p s) (hw : Sub 0x10818c w) : Keeps w p (@State.setUnsync s
    n) := by
  delta State.setUnsync
  repeat' first
    | with_reducible assumption | with_reducible exact sub_of hw rfl | with_reducible apply keeps_conds
    | with_reducible apply keeps_rearm

theorem keeps_plausFail (s : State) (n : Nat) (code : Nat) (h : Keeps w p s) (hw : Sub 0x10818c w) : Keeps w p
    (@State.plausFail s n code) := by
  delta State.plausFail
  repeat' first
    | with_reducible assumption | with_reducible exact sub_of hw rfl | with_reducible apply keeps_count
    | with_reducible apply keeps_setFld | with_reducible apply keeps_modCtx | with_reducible apply keeps_conds
    | with_reducible refine keeps_ite ?_ ?_

theorem keeps_missed (s : State) (n : Nat) (k : Nat) (h : Keeps w p s) (hw : Sub 0x8080 w) : Keeps w p (@State.missed
    s n k) := by
  delta State.missed
  repeat' first
    | with_reducible assumption | with_reducible exact sub_of hw rfl | with_reducible apply keeps_modCtx
    | with_reducible apply keeps_count | with_reducible refine keeps_ite ?_ ?_

theorem keeps_putFrame (s : State) (n : Nat) (f : Option Frame) (h : Keeps w p s) (hw : Sub 0x8000 w) : Keeps w p
    (@State.putFrame s n f) := by
  delta State.putFrame
  repeat' first
    | with_reducible assumption | with_reducible apply keeps_modCtx

theorem keeps_classFrame (s : State) (n : Nat) (r : Nat) (h : Keeps w p s) (hw : Sub 0x10818c w) : Keeps w p
    (@State.classFrame s n r) := by
  delta State.classFrame
  repeat' first
    | with_reducible assumption | with_reducible exact sub_of hw rfl | with_reducible apply keeps_putFrame
    | with_reducible apply keeps_missed | with_reducible apply keeps_modCtx | with_reducible apply keeps_freeFrameSlot
    | with_reducible apply keeps_setUnsync | with_reducible apply keeps_count | with_reducible apply keeps_setFld
    | with_reducible refine keeps_ite ?_ ?_ | (extract_lets +onlyGivenNames x; clear_value x; revert x; intros)
    | split

theorem keeps_startFrame (s : State) (n : Nat) (number : Nat) (h : Keeps w p s) (hw : Sub 0x10818c w) : Keeps w p
    (@State.startFrame s n number) := by
  delta State.startFrame
  repeat' first
    | with_reducible assumption | with_reducible exact sub_of hw rfl | with_reducible apply keeps_freeFrameSlot
    | with_reducible apply keeps_modCtx | with_reducible apply keeps_putFrame | with_reducible apply keeps_missed
    | with_reducible apply keeps_slotWords | with_reducible apply keeps_classFrame
    | with_reducible refine keeps_ite ?_ ?_
    | (extract_lets +onlyGivenNames x; refine keeps_cut (w := w) (p := p) (v := x) ?_ ?_; rotate_left; clear_value x; revert x; intros; rotate_right; unfold x; clear x)
    | (extract_lets +onlyGivenNames x; clear_value x; revert x; intros) | split

theorem keeps_feedFrame (s : State) (n : Nat) (l : List Byte) (bad : Option Nat) (h : Keeps w p s) (hw : Sub 0x10810c
    w) : Keeps w p (@State.feedFrame s n l bad) := by
  delta State.feedFrame
  repeat' first
    | with_reducible assumption | with_reducible exact sub_of hw rfl | with_reducible apply keeps_ownWrite
    | with_reducible apply keeps_putFrame | with_reducible refine keeps_ite ?_ ?_
    | (extract_lets +onlyGivenNames x; clear_value x; revert x; intros) | split

theorem keeps_stampFrame (s : State) (n : Nat) (l : List Byte) (h : Keeps w p s) (hw : Sub 0x10818c w) : Keeps w p
    (@State.stampFrame s n l) := by
  delta State.stampFrame
  repeat' first
    | with_reducible assumption | with_reducible exact sub_of hw rfl | with_reducible apply keeps_modCtx
    | with_reducible apply keeps_putFrame | with_reducible apply keeps_classFrame
    | with_reducible refine keeps_ite ?_ ?_ | intro _ _ _ _ | intro _ _ _ | intro _ _
    | (extract_lets +onlyGivenNames x; refine keeps_cut (w := w) (p := p) (v := x) ?_ ?_; rotate_left; clear_value x; revert x; intros; rotate_right; unfold x; clear x)
    | (extract_lets +onlyGivenNames x; clear_value x; revert x; intros)
    | (extract_lets +onlyGivenNames x; revert x; intros) | split
    | with_reducible refine keeps_of_snd ?_ (by assumption) | with_reducible refine keeps_of_fst ?_ (by assumption)

theorem keeps_noteLine (s : State) (n : Nat) (h : Keeps w p s) (hw : Sub 0x8000 w) : Keeps w p (@State.noteLine s n)
    := by
  delta State.noteLine
  repeat' first
    | with_reducible assumption | with_reducible exact sub_of hw rfl | with_reducible apply keeps_putFrame | split
    | with_reducible refine keeps_of_snd ?_ (by assumption) | with_reducible refine keeps_of_fst ?_ (by assumption)

theorem keeps_evalLate (s : State) (n : Nat) (h : Keeps w p s) (hw : Sub 0x10818c w) : Keeps w p (@State.evalLate s n)
    := by
  delta State.evalLate
  repeat' first
    | with_reducible assumption | with_reducible apply keeps_conds | with_reducible refine keeps_ite ?_ ?_

theorem keeps_offer (s : State) (n : Nat) (f : Frame) (h : Keeps w p s) (hw : Sub 0x10818c w) : Keeps w p
    (@State.offer s n f) := by
  delta State.offer
  repeat' first
    | with_reducible assumption | with_reducible exact sub_of hw rfl | with_reducible apply keeps_freeFrameSlot
    | with_reducible apply keeps_count | with_reducible apply keeps_tally | with_reducible apply keeps_evalLate
    | with_reducible apply keeps_modCtx | with_reducible apply keeps_setCtx | with_reducible apply keeps_makeReady
    | with_reducible refine keeps_ite ?_ ?_
    | (extract_lets +onlyGivenNames x; refine keeps_cut (w := w) (p := p) (v := x) ?_ ?_; rotate_left; clear_value x; revert x; intros; rotate_right; unfold x; clear x)
    | (extract_lets +onlyGivenNames x; clear_value x; revert x; intros) | split

theorem keeps_endFrame (s : State) (n : Nat) (h : Keeps w p s) (hw : Sub 0x10818c w) : Keeps w p (@State.endFrame s n)
    := by
  delta State.endFrame
  repeat' first
    | with_reducible assumption | with_reducible exact sub_of hw rfl | with_reducible apply keeps_putFrame
    | with_reducible apply keeps_freeFrameSlot | with_reducible apply keeps_conds
    | with_reducible apply keeps_plausFail | with_reducible apply keeps_modCtx | with_reducible apply keeps_offer
    | with_reducible refine keeps_ite ?_ ?_
    | (extract_lets +onlyGivenNames x; refine keeps_cut (w := w) (p := p) (v := x) ?_ ?_; rotate_left; clear_value x; revert x; intros; rotate_right; unfold x; clear x)
    | (extract_lets +onlyGivenNames x; clear_value x; revert x; intros) | split

theorem keeps_setLost (s : State) (n : Nat) (h : Keeps w p s) (hw : Sub 0x10818c w) : Keeps w p (@State.setLost s n)
    := by
  delta State.setLost
  repeat' first
    | with_reducible assumption | with_reducible exact sub_of hw rfl | with_reducible apply keeps_putFrame
    | with_reducible apply keeps_freeFrameSlot | with_reducible apply keeps_conds | split

theorem keeps_raiseSensing (s : State) (code : Nat) (h : Keeps w p s) (hw : Sub 0x10200c w) : Keeps w p
    (@State.raiseSensing s code) := by
  delta State.raiseSensing
  repeat' first
    | with_reducible assumption | with_reducible exact sub_of hw rfl | with_reducible apply keeps_request
    | with_reducible refine keeps_ite ?_ ?_ | split | with_reducible refine keeps_of_snd ?_ (by assumption)
    | with_reducible refine keeps_of_fst ?_ (by assumption)

theorem keeps_ctxEnable (s : State) (ctx : Nat) (h : Keeps w p s) (hw : Sub 0x10a18c w) : Keeps w p (@State.ctxEnable
    s ctx) := by
  delta State.ctxEnable
  repeat' first
    | with_reducible assumption | with_reducible exact sub_of hw rfl | with_reducible apply keeps_refuse
    | with_reducible apply keeps_setCtx | with_reducible apply keeps_setFld | with_reducible apply keeps_raiseSensing
    | with_reducible apply keeps_recompute | with_reducible apply keeps_voidNow | with_reducible apply keeps_slotWords
    | with_reducible refine keeps_ite ?_ ?_

theorem keeps_execStreamCtxEnable (ctx : Fin 128) (s : State) (h : Keeps w p s) (hw : Sub 0x10a18c w) : OutKeeps w p
    (@execStreamCtxEnable ctx s) := by
  delta execStreamCtxEnable
  repeat' first
    | with_reducible assumption | with_reducible refine outKeeps_next ?_ | with_reducible apply keeps_ctxEnable

theorem keeps_ctxDisable (s : State) (ctx : Nat) (h : Keeps w p s) (hw : Sub 0x10e08c w) : Keeps w p
    (@State.ctxDisable s ctx) := by
  delta State.ctxDisable
  repeat' first
    | with_reducible assumption | with_reducible exact sub_of hw rfl | with_reducible apply keeps_setBuffer
    | with_reducible apply keeps_setCtx | with_reducible apply keeps_setFld | with_reducible apply keeps_raiseSensing
    | with_reducible apply keeps_recompute
    | (extract_lets +onlyGivenNames x; refine keeps_cut (w := w) (p := p) (v := x) ?_ ?_; rotate_left; clear_value x; revert x; intros; rotate_right; unfold x; clear x)
    | (extract_lets +onlyGivenNames x; clear_value x; revert x; intros)
    | (extract_lets +onlyGivenNames x; revert x; intros) | split
    | with_reducible refine keeps_of_snd ?_ (by assumption) | with_reducible refine keeps_of_fst ?_ (by assumption)

theorem keeps_execStreamCtxDisable (ctx : Fin 128) (s : State) (h : Keeps w p s) (hw : Sub 0x10e08c w) : OutKeeps w p
    (@execStreamCtxDisable ctx s) := by
  delta execStreamCtxDisable
  repeat' first
    | with_reducible assumption | with_reducible refine outKeeps_next ?_ | with_reducible apply keeps_ctxDisable

theorem keeps_clearFaults (s : State) (ctx : Nat) (h : Keeps w p s) (hw : Sub 0x80 w) : Keeps w p (@State.clearFaults
    s ctx) := by
  delta State.clearFaults
  repeat' first
    | with_reducible assumption | with_reducible apply keeps_setFld

theorem keeps_execClrFaults (ctx : Fin 128) (s : State) (h : Keeps w p s) (hw : Sub 0x80 w) : OutKeeps w p
    (@execClrFaults ctx s) := by
  delta execClrFaults
  repeat' first
    | with_reducible assumption | with_reducible refine outKeeps_next ?_ | with_reducible apply keeps_clearFaults

theorem keeps_execClrLate (ctx : Fin 128) (s : State) (h : Keeps w p s) (hw : Sub 0x80 w) : OutKeeps w p (@execClrLate
    ctx s) := by
  delta execClrLate
  repeat' first
    | with_reducible assumption | with_reducible refine outKeeps_next ?_ | with_reducible apply keeps_setFld

theorem keeps_triggerEnable (s : State) (line : Nat) (h : Keeps w p s) (hw : Sub 0x10808c w) : Keeps w p
    (@State.triggerEnable s line) := by
  delta State.triggerEnable
  repeat' first
    | with_reducible assumption | with_reducible exact sub_of hw rfl | with_reducible apply keeps_refuse
    | with_reducible apply keeps_setTrig | with_reducible apply keeps_setFld | with_reducible refine keeps_ite ?_ ?_
    | (extract_lets +onlyGivenNames x; refine keeps_cut (w := w) (p := p) (v := x) ?_ ?_; rotate_left; clear_value x; revert x; intros; rotate_right; unfold x; clear x)
    | (extract_lets +onlyGivenNames x; clear_value x; revert x; intros)
    | (extract_lets +onlyGivenNames x; revert x; intros)

theorem keeps_execTriggerEnable (line : Fin 32) (s : State) (h : Keeps w p s) (hw : Sub 0x10808c w) : OutKeeps w p
    (@execTriggerEnable line s) := by
  delta execTriggerEnable
  repeat' first
    | with_reducible assumption | with_reducible refine outKeeps_next ?_ | with_reducible apply keeps_triggerEnable

theorem keeps_triggerDisable (s : State) (line : Nat) (h : Keeps w p s) (hw : Sub 0x10008c w) : Keeps w p
    (@State.triggerDisable s line) := by
  delta State.triggerDisable
  repeat' first
    | with_reducible assumption | with_reducible exact sub_of hw rfl | with_reducible apply keeps_refuse
    | with_reducible apply keeps_setFld | with_reducible refine keeps_ite ?_ ?_

theorem keeps_execTriggerDisable (line : Fin 32) (s : State) (h : Keeps w p s) (hw : Sub 0x10008c w) : OutKeeps w p
    (@execTriggerDisable line s) := by
  delta execTriggerDisable
  repeat' first
    | with_reducible assumption | with_reducible refine outKeeps_next ?_ | with_reducible apply keeps_triggerDisable

theorem keeps_execTriggerEdge (line : Fin 32) (s : State) (h : Keeps w p s) (hw : Sub 0x8000 w) : OutKeeps w p
    (@execTriggerEdge line s) := by
  delta execTriggerEdge
  repeat' first
    | with_reducible assumption | with_reducible refine outKeeps_next ?_ | with_reducible apply keeps_setTrig
    | with_reducible refine outKeeps_ite ?_ ?_ | (extract_lets +onlyGivenNames x; clear_value x; revert x; intros)
    | split

theorem keeps_execTriggerPulseEnd (line : Fin 32) (s : State) (h : Keeps w p s) (hw : Sub 0x8000 w) : OutKeeps w p
    (@execTriggerPulseEnd line s) := by
  delta execTriggerPulseEnd
  repeat' first
    | with_reducible assumption | with_reducible refine outKeeps_next ?_ | with_reducible apply keeps_setTrig
    | with_reducible refine outKeeps_ite ?_ ?_ | (extract_lets +onlyGivenNames x; clear_value x; revert x; intros)
    | split

theorem keeps_execTriggerHoldEnd (line : Fin 32) (s : State) (h : Keeps w p s) (hw : Sub 0x8080 w) : OutKeeps w p
    (@execTriggerHoldEnd line s) := by
  delta execTriggerHoldEnd
  repeat' first
    | with_reducible assumption | with_reducible exact sub_of hw rfl | with_reducible refine outKeeps_next ?_
    | with_reducible apply keeps_setFld | with_reducible apply keeps_setTrig
    | with_reducible refine outKeeps_ite ?_ ?_ | (extract_lets +onlyGivenNames x; clear_value x; revert x; intros)
    | split

theorem keeps_execCsi2FrameStart (port : Fin 16) (vc : Fin 16) (frameNumber : Nat) (s : State) (h : Keeps w p s) (hw :
    Sub 0x10818c w) : OutKeeps w p (@execCsi2FrameStart port vc frameNumber s) := by
  delta execCsi2FrameStart
  repeat' first
    | with_reducible assumption | with_reducible refine outKeeps_next ?_ | with_reducible apply keeps_startFrame
    | with_reducible refine keeps_foldl ?_ ?_ | intro _ _ _

theorem keeps_execCsi2LongPacket (port : Fin 16) (vc : Fin 16) (dt : Nat) (payload : List Byte) (eccOk : Bool) (crcOk
    : Bool) (fifoOk : Bool) (s : State) (h : Keeps w p s) (hw : Sub 0x10818c w) : OutKeeps w p (@execCsi2LongPacket
    port vc dt payload eccOk crcOk fifoOk s) := by
  delta execCsi2LongPacket
  repeat' first
    | with_reducible assumption | with_reducible exact sub_of hw rfl | with_reducible refine outKeeps_next ?_
    | with_reducible apply keeps_noteLine | with_reducible apply keeps_stampFrame
    | with_reducible apply keeps_feedFrame | with_reducible refine keeps_foldl ?_ ?_
    | with_reducible refine keeps_ite ?_ ?_ | intro _ _ _

theorem keeps_execCsi2FrameEnd (port : Fin 16) (vc : Fin 16) (s : State) (h : Keeps w p s) (hw : Sub 0x10818c w) :
    OutKeeps w p (@execCsi2FrameEnd port vc s) := by
  delta execCsi2FrameEnd
  repeat' first
    | with_reducible assumption | with_reducible refine outKeeps_next ?_ | with_reducible apply keeps_endFrame
    | with_reducible refine keeps_foldl ?_ ?_ | intro _ _ _

theorem keeps_ethPacket (s : State) (n : Nat) (payload : List Byte) (fcsOk : Bool) (fifoOk : Bool) (h : Keeps w p s)
    (hw : Sub 0x10818c w) : Keeps w p (@State.ethPacket s n payload fcsOk fifoOk) := by
  delta State.ethPacket
  repeat' first
    | with_reducible assumption | with_reducible exact sub_of hw rfl | with_reducible apply keeps_startFrame
    | with_reducible apply keeps_noteLine | with_reducible apply keeps_stampFrame
    | with_reducible apply keeps_feedFrame | with_reducible apply keeps_putFrame | with_reducible apply keeps_endFrame
    | with_reducible refine keeps_ite ?_ ?_
    | (extract_lets +onlyGivenNames x; refine keeps_cut (w := w) (p := p) (v := x) ?_ ?_; rotate_left; clear_value x; revert x; intros; rotate_right; unfold x; clear x)
    | (extract_lets +onlyGivenNames x; clear_value x; revert x; intros) | split

theorem keeps_execEthPacketRx (mac : Fin 6) (udp : Bool) (vlan : Nat) (port : Nat) (payload : List Byte) (fcsOk :
    Bool) (fifoOk : Bool) (s : State) (h : Keeps w p s) (hw : Sub 0x10818c w) : OutKeeps w p (@execEthPacketRx mac udp
    vlan port payload fcsOk fifoOk s) := by
  delta execEthPacketRx
  repeat' first
    | with_reducible assumption | with_reducible exact sub_of hw rfl | with_reducible refine outKeeps_next ?_
    | with_reducible apply keeps_count | with_reducible apply keeps_ethPacket
    | with_reducible refine outKeeps_ite ?_ ?_
    | (extract_lets +onlyGivenNames x; refine keeps_cut (w := w) (p := p) (v := x) ?_ ?_; rotate_left; clear_value x; revert x; intros; rotate_right; unfold x; clear x)
    | (extract_lets +onlyGivenNames x; clear_value x; revert x; intros) | split
    | with_reducible refine keeps_set_sensing ?_ (sub_of hw rfl)

theorem keeps_portLink (s : State) (x1 : SensorPort) (up : Nat) (h : Keeps w p s) (hw : Sub 0x80 w) : Keeps w p
    (@State.portLink s x1 up) := by
  delta State.portLink
  repeat' first
    | with_reducible assumption | with_reducible apply keeps_setFld | split

theorem keeps_execSensorLinkLost (port : SensorPort) (s : State) (h : Keeps w p s) (hw : Sub 0x10818c w) : OutKeeps w
    p (@execSensorLinkLost port s) := by
  delta execSensorLinkLost
  repeat' first
    | with_reducible assumption | with_reducible exact sub_of hw rfl | with_reducible refine outKeeps_next ?_
    | with_reducible apply keeps_portLink | with_reducible apply keeps_setLost | with_reducible apply keeps_modCtx
    | with_reducible refine keeps_foldl ?_ ?_ | intro _ _ _

theorem keeps_execSensorLinkRestored (port : SensorPort) (s : State) (h : Keeps w p s) (hw : Sub 0x8080 w) : OutKeeps
    w p (@execSensorLinkRestored port s) := by
  delta execSensorLinkRestored
  repeat' first
    | with_reducible assumption | with_reducible exact sub_of hw rfl | with_reducible refine outKeeps_next ?_
    | with_reducible apply keeps_portLink | with_reducible apply keeps_modCtx
    | with_reducible refine keeps_foldl ?_ ?_ | intro _ _ _

theorem keeps_execStreamLostTimeout (ctx : Fin 128) (s : State) (h : Keeps w p s) (hw : Sub 0x10818c w) : OutKeeps w p
    (@execStreamLostTimeout ctx s) := by
  delta execStreamLostTimeout
  repeat' first
    | with_reducible assumption | with_reducible refine outKeeps_next ?_ | with_reducible apply keeps_setLost
    | with_reducible refine outKeeps_ite ?_ ?_

theorem keeps_clearInstants (s : State) (h : Keeps w p s) (hw : Sub 0x8100 w) : Keeps w p (@State.clearInstants s) := by
  delta State.clearInstants
  repeat' first
    | with_reducible assumption | with_reducible exact sub_of hw rfl | with_reducible apply keeps_slotWords
    | with_reducible refine keeps_foldl ?_ ?_ | with_reducible refine keeps_ite ?_ ?_ | intro _ _ _ _ | intro _ _ _
    | intro _ _
    | (extract_lets +onlyGivenNames x; refine keeps_cut (w := w) (p := p) (v := x) ?_ ?_; rotate_left; clear_value x; revert x; intros; rotate_right; unfold x; clear x)
    | (extract_lets +onlyGivenNames x; clear_value x; revert x; intros)
    | (extract_lets +onlyGivenNames x; revert x; intros) | split
    | with_reducible refine keeps_of_snd ?_ (by assumption) | with_reducible refine keeps_of_fst ?_ (by assumption)
    | with_reducible refine keeps_set_sensing ?_ (sub_of hw rfl)

theorem keeps_fusionEnable (s : State) (h : Keeps w p s) (hw : Sub 0x8180 w) : Keeps w p (@State.fusionEnable s) := by
  delta State.fusionEnable
  repeat' first
    | with_reducible assumption | with_reducible exact sub_of hw rfl | with_reducible apply keeps_clearInstants
    | with_reducible apply keeps_setFld
    | (extract_lets +onlyGivenNames x; refine keeps_cut (w := w) (p := p) (v := x) ?_ ?_; rotate_left; clear_value x; revert x; intros; rotate_right; unfold x; clear x)
    | (extract_lets +onlyGivenNames x; clear_value x; revert x; intros)
    | (extract_lets +onlyGivenNames x; revert x; intros) | with_reducible refine keeps_set_sensing ?_ (sub_of hw rfl)

theorem keeps_execFusionEnable (s : State) (h : Keeps w p s) (hw : Sub 0x8180 w) : OutKeeps w p (@execFusionEnable s)
    := by
  delta execFusionEnable
  repeat' first
    | with_reducible assumption | with_reducible refine outKeeps_next ?_ | with_reducible apply keeps_fusionEnable

theorem keeps_instantCtx (i : Nat) (s : State) (n : Nat) (h : Keeps w p s) (hw : Sub 0x10818c w) : Keeps w p
    (@State.instantCtx i s n) := by
  delta State.instantCtx
  repeat' first
    | with_reducible assumption | with_reducible exact sub_of hw rfl | with_reducible apply keeps_setCtx
    | with_reducible apply keeps_slotWords | with_reducible apply keeps_makeReady
    | with_reducible apply keeps_evalLate | with_reducible apply keeps_modCtx | with_reducible apply keeps_makeVoid
    | with_reducible refine keeps_foldl ?_ ?_ | with_reducible refine keeps_ite ?_ ?_ | intro _ _ _ _ | intro _ _ _
    | intro _ _
    | (extract_lets +onlyGivenNames x; refine keeps_cut (w := w) (p := p) (v := x) ?_ ?_; rotate_left; clear_value x; revert x; intros; rotate_right; unfold x; clear x)
    | (extract_lets +onlyGivenNames x; clear_value x; revert x; intros)
    | (extract_lets +onlyGivenNames x; revert x; intros) | split
    | with_reducible refine keeps_of_snd ?_ (by assumption) | with_reducible refine keeps_of_fst ?_ (by assumption)

theorem keeps_execFusionInstant (s : State) (h : Keeps w p s) (hw : Sub 0x10818c w) : OutKeeps w p (@execFusionInstant
    s) := by
  delta execFusionInstant
  repeat' first
    | with_reducible assumption | with_reducible refine outKeeps_next ?_ | with_reducible apply keeps_instantCtx
    | with_reducible refine keeps_foldl ?_ ?_ | with_reducible refine outKeeps_ite ?_ ?_ | intro _ _ _
    | (extract_lets +onlyGivenNames x; clear_value x; revert x; intros) | split
    | with_reducible refine keeps_set_sensing ?_ (sub_of hw rfl)

theorem keeps_streamRead (s : State) (n : Nat) (h : Keeps w p s) (hw : Sub 0x8100 w) : Keeps w p (@State.streamRead s
    n).2.2.2 := by
  delta State.streamRead
  repeat' first
    | with_reducible assumption | with_reducible exact sub_of hw rfl | with_reducible apply keeps_modCtx
    | with_reducible apply keeps_setCtx | with_reducible apply keeps_slotWords
    | (extract_lets +onlyGivenNames x; refine keeps_cut (w := w) (p := p) (v := x) ?_ ?_; rotate_left; clear_value x; revert x; intros; rotate_right; unfold x; clear x)
    | (extract_lets +onlyGivenNames x; clear_value x; revert x; intros) | split
    | with_reducible refine keeps_set_sensing ?_ (sub_of hw rfl)

theorem keeps_applyScore (s : State) (n : Nat) (score : Nat) (h : Keeps w p s) (hw : Sub 0x10818c w) : Keeps w p
    (@State.applyScore s n score) := by
  delta State.applyScore
  repeat' first
    | with_reducible assumption | with_reducible exact sub_of hw rfl | with_reducible apply keeps_modCtx
    | with_reducible apply keeps_setFld | with_reducible apply keeps_conds | with_reducible refine keeps_ite ?_ ?_

theorem keeps_applyScores (s : State) (i : Nat) (h : Keeps w p s) (hw : Sub 0x10c18c w) : Keeps w p
    (@State.applyScores s i) := by
  delta State.applyScores
  repeat' first
    | with_reducible assumption | with_reducible exact sub_of hw rfl | with_reducible apply keeps_tally
    | with_reducible apply keeps_clearReady | with_reducible apply keeps_applyScore
    | with_reducible refine keeps_foldl ?_ ?_ | with_reducible refine keeps_ite ?_ ?_ | intro _ _ _
    | (extract_lets +onlyGivenNames x; clear_value x; revert x; intros) | split

theorem keeps_lowerSensing (s : State) (h : Keeps w p s) (hw : Sub 0x10200c w) : Keeps w p (@State.lowerSensing s) := by
  delta State.lowerSensing
  repeat' first
    | with_reducible assumption | with_reducible exact sub_of hw rfl | with_reducible apply keeps_lower
    | with_reducible refine keeps_ite ?_ ?_ | split

theorem keeps_execFusedResultRelease (s : State) (h : Keeps w p s) (hw : Sub 0x10e18c w) : OutKeeps w p
    (@execFusedResultRelease s) := by
  delta execFusedResultRelease
  repeat' first
    | with_reducible assumption | with_reducible exact sub_of hw rfl | with_reducible refine outKeeps_next ?_
    | with_reducible apply keeps_stamp | with_reducible apply keeps_devWrite | with_reducible apply keeps_putHalf
    | with_reducible apply keeps_lowerSensing | with_reducible apply keeps_applyScores
    | with_reducible refine outKeeps_ite ?_ ?_ | (extract_lets +onlyGivenNames x; clear_value x; revert x; intros)
    | split | with_reducible refine keeps_set_sensing ?_ (sub_of hw rfl)

end Sys2Proof.Machine
end

