-- ==== Sys2Proof/Laws/KeepsHost.lean ====
section
/-!
SUPPORT. Laws/KeepsHost.lean: what each operation and command keeps (the host interface, the loader, the page manager, the gauge units); `keeps_x` is about `x`, whose
components of State are the bits of its `Sub`.
-/

namespace Sys2Proof.Machine

variable {w : Nat} {p : State}

theorem keeps_stopRing (s : State) (fn : Nat) (ring : Nat) (code : Nat) (h : Keeps w p s) (hw : Sub 0x18000c w) :
    Keeps w p (@State.stopRing s fn ring code) := by
  delta State.stopRing
  repeat' first
    | with_reducible assumption | with_reducible exact sub_of hw rfl | with_reducible apply keeps_report
    | with_reducible apply keeps_setRing

theorem keeps_stopRings (s : State) (fn : Nat) (h : Keeps w p s) (hw : Sub 0x80000 w) : Keeps w p (@State.stopRings s
    fn) := by
  delta State.stopRings
  repeat' first
    | with_reducible assumption
    | (extract_lets +onlyGivenNames x; refine keeps_cut (w := w) (p := p) (v := x) ?_ ?_; rotate_left; clear_value x; revert x; intros; rotate_right; unfold x; clear x)
    | (extract_lets +onlyGivenNames x; clear_value x; revert x; intros)
    | (extract_lets +onlyGivenNames x; revert x; intros) | with_reducible refine keeps_set_host ?_ (sub_of hw rfl)

theorem keeps_flr (s : State) (fn : Nat) (h : Keeps w p s) (hw : Sub 0x80000 w) : Keeps w p (@State.flr s fn) := by
  delta State.flr
  repeat' first
    | with_reducible assumption | with_reducible apply keeps_stopRings | with_reducible refine keeps_ite ?_ ?_
    | (extract_lets +onlyGivenNames x; clear_value x; revert x; intros)
    | with_reducible refine keeps_set_host ?_ (sub_of hw rfl)

theorem keeps_dropLink (s : State) (h : Keeps w p s) (hw : Sub 0x18000c w) : Keeps w p (@State.dropLink s) := by
  delta State.dropLink
  repeat' first
    | with_reducible assumption | with_reducible exact sub_of hw rfl | with_reducible apply keeps_report
    | with_reducible apply keeps_stopRings | with_reducible refine keeps_ite ?_ ?_
    | (extract_lets +onlyGivenNames x; clear_value x; revert x; intros)
    | with_reducible refine keeps_set_host ?_ (sub_of hw rfl)

theorem keeps_execPcieLinkDown (s : State) (h : Keeps w p s) (hw : Sub 0x18000c w) : OutKeeps w p (@execPcieLinkDown
    s) := by
  delta execPcieLinkDown
  repeat' first
    | with_reducible assumption | with_reducible refine outKeeps_next ?_ | with_reducible apply keeps_dropLink

theorem keeps_execPfFlr (s : State) (h : Keeps w p s) (hw : Sub 0x80000 w) : OutKeeps w p (@execPfFlr s) := by
  delta execPfFlr
  repeat' first
    | with_reducible assumption | with_reducible refine outKeeps_next ?_ | with_reducible apply keeps_flr

theorem keeps_ringEnable (s : State) (fn : Nat) (ring : Nat) (h : Keeps w p s) (hw : Sub 0x18008c w) : Keeps w p
    (@State.ringEnable s fn ring) := by
  delta State.ringEnable
  repeat' first
    | with_reducible assumption | with_reducible exact sub_of hw rfl | with_reducible apply keeps_refuseAt
    | with_reducible apply keeps_setRing | with_reducible apply keeps_setFld | with_reducible refine keeps_ite ?_ ?_

theorem keeps_execRingEnable (fn : Fin 32) (ring : Fin 256) (s : State) (h : Keeps w p s) (hw : Sub 0x18008c w) :
    OutKeeps w p (@execRingEnable fn ring s) := by
  delta execRingEnable
  repeat' first
    | with_reducible assumption | with_reducible refine outKeeps_next ?_ | with_reducible apply keeps_ringEnable

theorem keeps_ringDisable (s : State) (fn : Nat) (ring : Nat) (h : Keeps w p s) (hw : Sub 0x80080 w) : Keeps w p
    (@State.ringDisable s fn ring) := by
  delta State.ringDisable
  repeat' first
    | with_reducible assumption | with_reducible exact sub_of hw rfl | with_reducible apply keeps_setFld
    | with_reducible apply keeps_setRing | with_reducible refine keeps_ite ?_ ?_
    | (extract_lets +onlyGivenNames x; refine keeps_cut (w := w) (p := p) (v := x) ?_ ?_; rotate_left; clear_value x; revert x; intros; rotate_right; unfold x; clear x)
    | (extract_lets +onlyGivenNames x; clear_value x; revert x; intros) | split

theorem keeps_execRingDisable (fn : Fin 32) (ring : Fin 256) (s : State) (h : Keeps w p s) (hw : Sub 0x80080 w) :
    OutKeeps w p (@execRingDisable fn ring s) := by
  delta execRingDisable
  repeat' first
    | with_reducible assumption | with_reducible refine outKeeps_next ?_ | with_reducible apply keeps_ringDisable

theorem keeps_execDbSqTail (fn : Fin 32) (ring : Fin 256) (tail : Nat) (s : State) (h : Keeps w p s) (hw : Sub
    0x18000c w) : OutKeeps w p (@execDbSqTail fn ring tail s) := by
  delta execDbSqTail
  repeat' first
    | with_reducible assumption | with_reducible exact sub_of hw rfl | with_reducible refine outKeeps_next ?_
    | with_reducible apply keeps_stopRing | with_reducible apply keeps_setRing
    | with_reducible refine outKeeps_ite ?_ ?_

theorem keeps_execDbCqHead (fn : Fin 32) (ring : Fin 256) (head : Nat) (s : State) (h : Keeps w p s) (hw : Sub
    0x18000c w) : OutKeeps w p (@execDbCqHead fn ring head s) := by
  delta execDbCqHead
  repeat' first
    | with_reducible assumption | with_reducible exact sub_of hw rfl | with_reducible refine outKeeps_next ?_
    | with_reducible apply keeps_stopRing | with_reducible apply keeps_setRing
    | with_reducible refine outKeeps_ite ?_ ?_

theorem keeps_fetchDesc (s : State) (fn : Nat) (ring : Nat) (h : Keeps w p s) (hw : Sub 0x80200 w) : Keeps w p
    (@State.fetchDesc s fn ring) := by
  delta State.fetchDesc
  repeat' first
    | with_reducible assumption | with_reducible exact sub_of hw rfl | with_reducible apply keeps_setRing
    | with_reducible apply keeps_hostWrite | with_reducible refine keeps_ite ?_ ?_
    | (extract_lets +onlyGivenNames x; clear_value x; revert x; intros) | split
    | with_reducible refine keeps_set_host ?_ (sub_of hw rfl)

theorem keeps_execDescFetch (fn : Fin 32) (ring : Fin 256) (read : HostRead) (s : State) (h : Keeps w p s) (hw : Sub
    0x18020c w) : OutKeeps w p (@execDescFetch fn ring read s) := by
  delta execDescFetch
  repeat' first
    | with_reducible assumption | with_reducible exact sub_of hw rfl | with_reducible refine outKeeps_next ?_
    | with_reducible apply keeps_stopRing | with_reducible apply keeps_fetchDesc
    | with_reducible refine outKeeps_ite ?_ ?_ | split

theorem keeps_begin (s : State) (d : DescRef) (kind : Desc → Bool) (k : State → Ticket → Desc → State) (h : Keeps w p
    s) (h1 : ∀ t u x, Keeps w p t → Keeps w p (k t u x)) (hw : Sub 0x80080 w) : Keeps w p (@State.begin s d kind k) :=
    by
  delta State.begin
  split
  · exact h
  · rename_i x _
    dsimp only
    have h2 := keeps_modTicket (hw := sub_of hw rfl) s (ticketOf d x) (fun x => { x with started := true }) h
    have h3 : ∀ c : Bool, Keeps w p (if c then (s.modTicket (ticketOf d x) fun x => { x with started := true }).setRing d.fn d.ring
        { (s.modTicket (ticketOf d x) fun x => { x with started := true }).ring d.fn d.ring with badSince := [] }
        else s.modTicket (ticketOf d x) fun x => { x with started := true }) :=
      fun c => keeps_ite (keeps_setRing (hw := sub_of hw rfl) _ _ _ _ h2) h2
    refine keeps_ite h (keeps_ite (keeps_finish (hw := sub_of hw rfl) _ _ _ _ _ (h3 _)) ?_)
    split
    · exact keeps_finish (hw := sub_of hw rfl) _ _ _ _ _ (keeps_modTicket (hw := sub_of hw rfl) _ _ _ (h3 _))
    · exact keeps_ite (keeps_finish (hw := sub_of hw rfl) _ _ _ _ _ (h3 _)) (h1 _ _ _ (h3 _))

theorem keeps_execNop (d : DescRef) (s : State) (h : Keeps w p s) (hw : Sub 0x80080 w) : OutKeeps w p (@execNop d s)
    := by
  delta execNop
  repeat' first
    | with_reducible assumption | with_reducible refine outKeeps_next ?_ | with_reducible apply keeps_begin
    | with_reducible apply keeps_finish | intro _ _ _ _

theorem keeps_execKnot (d : DescRef) (s : State) (h : Keeps w p s) (hw : Sub 0x80080 w) : OutKeeps w p (@execKnot d s)
    := by
  delta execKnot
  repeat' first
    | with_reducible assumption | with_reducible refine outKeeps_next ?_ | with_reducible apply keeps_begin
    | with_reducible apply keeps_finish | intro _ _ _ _

theorem keeps_copyInbound (s : State) (fn : Nat) (src : Source) (id : Nat) (off : Nat) (n : Nat) (h : Keeps w p s) (hw
    : Sub 0x4100 w) : Keeps w p (@State.copyInbound s fn src id off n).1 := by
  delta State.copyInbound
  repeat' first
    | with_reducible assumption | with_reducible apply keeps_clearReady | with_reducible apply keeps_fillHalf
    | (extract_lets +onlyGivenNames x; refine keeps_cut (w := w) (p := p) (v := x) ?_ ?_; rotate_left; clear_value x; revert x; intros; rotate_right; unfold x; clear x)
    | (extract_lets +onlyGivenNames x; clear_value x; revert x; intros) | split
    | with_reducible refine keeps_memInto ?_ (sub_of hw rfl)

theorem keeps_markCopied (s : State) (a : Nat) (h : Keeps w p s) (hw : Sub 0x4000 w) : Keeps w p (@State.markCopied s
    a) := by
  delta State.markCopied
  repeat' first
    | with_reducible assumption | with_reducible refine keeps_ite ?_ ?_ | split
    | with_reducible refine keeps_set_fabric ?_ (sub_of hw rfl)

theorem keeps_copyTo (s : State) (fn : Nat) (src : Source) (x : Desc) (h : Keeps w p s) (hw : Sub 0x12430c w) : Keeps
    w p (@State.copyTo s fn src x).1 := by
  delta State.copyTo
  repeat' first
    | with_reducible assumption | with_reducible exact sub_of hw rfl | with_reducible apply keeps_markCopied
    | with_reducible apply keeps_unpoison | with_reducible apply keeps_badAddress
    | with_reducible apply keeps_copyInbound | (extract_lets +onlyGivenNames x; clear_value x; revert x; intros)
    | (extract_lets +onlyGivenNames x; revert x; intros) | split | with_reducible refine keeps_fst_mk ?_
    | with_reducible refine keeps_memInto ?_ (sub_of hw rfl) | with_reducible refine keeps_hostInto ?_ (sub_of hw rfl)

theorem keeps_copyPart (s : State) (fn : Nat) (x : Desc) (h : Keeps w p s) (hw : Sub 0x4308 w) : Keeps w p
    (@State.copyPart s fn x) := by
  delta State.copyPart
  have h0 := keeps_free (hw := sub_of hw rfl) s 32 h
  generalize s.free 32 = q at h0
  obtain ⟨k, t⟩ := q
  dsimp only
  have h0 : Keeps w p t := h0
  split
  · exact keeps_hostCopy h0 (sub_of hw rfl)
  · have h2 := keeps_memCopy (src := t.hostMem) (b := x.val 24 8) (c := t.devAddr fn (x.val 32 8)) (n := k % x.val 20 4) h0 (sub_of hw rfl)
    exact keeps_ite (keeps_ite h2 (keeps_markCopied (hw := sub_of hw rfl) _ _ h2)) h0
  · split
    · exact h0
    · refine keeps_ite h0 ?_
      have h1 := fun a b => keeps_clearReady (hw := sub_of hw rfl) t a b h0
      exact keeps_memCopy (h1 _ _) (sub_of hw rfl)

theorem keeps_copyFrom (s : State) (fn : Nat) (read : HostRead) (t : Ticket) (x : Desc) (h : Keeps w p s) (hw : Sub
    0x87e438c w) : Keeps w p (@State.copyFrom s fn read t x) := by
  delta State.copyFrom
  repeat' first
    | with_reducible assumption | with_reducible exact sub_of hw rfl | with_reducible apply keeps_copyTo
    | with_reducible apply keeps_finish | with_reducible apply keeps_copyPart | with_reducible apply keeps_regionFault
    | with_reducible apply keeps_badAddress | with_reducible refine keeps_ite ?_ ?_
    | (extract_lets +onlyGivenNames x; subst x) | split

theorem keeps_copyTokens (s : State) (fn : Nat) (x : Desc) (h : Keeps w p s) (hw : Sub 0x20000 w) : ∀ t,
    @State.copyTokens s fn x = some t → Keeps w p t := by
  delta State.copyTokens
  intro t e
  dsimp only at e
  repeat' split at e
  all_goals first
    | (cases e
       exact h)
    | exact keeps_chargeBulk (hw := sub_of hw rfl) _ _ _ _ h _ e
    | cases e

theorem keeps_beginCopy (s : State) (d : DescRef) (kind : Desc → Bool) (k : State → Ticket → Desc → State) (h : Keeps
    w p s) (h1 : ∀ t u x, Keeps w p t → Keeps w p (k t u x)) (hw : Sub 0xa0080 w) : Keeps w p (@State.beginCopy s d
    kind k) := by
  delta State.beginCopy
  refine keeps_begin (hw := sub_of hw rfl) _ _ _ _ h ?_
  intro t u x ht
  split
  · rename_i r e
    exact h1 _ _ _ (keeps_copyTokens (hw := sub_of hw rfl) _ _ _ ht _ e)
  · exact h

theorem keeps_execCopy (d : DescRef) (read : HostRead) (s : State) (h : Keeps w p s) (hw : Sub 0x87e438c w) : OutKeeps
    w p (@execCopy d read s) := by
  delta execCopy
  repeat' first
    | with_reducible assumption | with_reducible exact sub_of hw rfl | with_reducible refine outKeeps_next ?_
    | with_reducible apply keeps_beginCopy | with_reducible apply keeps_copyFrom | intro _ _ _ _

theorem keeps_execCopyToInbound (d : DescRef) (read : HostRead) (s : State) (h : Keeps w p s) (hw : Sub 0x87e438c w) :
    OutKeeps w p (@execCopyToInbound d read s) := by
  delta execCopyToInbound
  repeat' first
    | with_reducible assumption | with_reducible exact sub_of hw rfl | with_reducible refine outKeeps_next ?_
    | with_reducible apply keeps_beginCopy | with_reducible apply keeps_copyFrom | intro _ _ _ _

theorem keeps_takeHalf (s : State) (fn : Nat) (t : Ticket) (x : Desc) (b : Buffer) (k : Nat) (h : Keeps w p s) (hw :
    Sub 0x1a438c w) : Keeps w p (@State.takeHalf s fn t x b k) := by
  delta State.takeHalf
  repeat' first
    | with_reducible assumption | with_reducible exact sub_of hw rfl | with_reducible apply keeps_clearReady
    | with_reducible apply keeps_putHalf | with_reducible apply keeps_modTicket | with_reducible apply keeps_copyTo
    | with_reducible apply keeps_finish | (extract_lets +onlyGivenNames x; revert x; intros) | split

theorem keeps_copyOut (s : State) (fn : Nat) (t : Ticket) (x : Desc) (h : Keeps w p s) (hw : Sub 0x1a438c w) : Keeps w
    p (@State.copyOut s fn t x) := by
  delta State.copyOut
  repeat' first
    | with_reducible assumption | with_reducible exact sub_of hw rfl | with_reducible apply keeps_finish
    | with_reducible apply keeps_modTicket | with_reducible apply keeps_takeHalf
    | with_reducible refine keeps_ite ?_ ?_ | (extract_lets +onlyGivenNames x; clear_value x; revert x; intros)
    | (extract_lets +onlyGivenNames x; revert x; intros) | split

theorem keeps_execCopyFromOutbound (d : DescRef) (s : State) (h : Keeps w p s) (hw : Sub 0x1a438c w) : OutKeeps w p
    (@execCopyFromOutbound d s) := by
  delta execCopyFromOutbound
  repeat' first
    | with_reducible assumption | with_reducible exact sub_of hw rfl | with_reducible refine outKeeps_next ?_
    | with_reducible apply keeps_takeHalf | with_reducible apply keeps_beginCopy | with_reducible apply keeps_copyOut
    | intro _ _ _ _ | split

theorem keeps_execAdd (d : DescRef) (s : State) (h : Keeps w p s) (hw : Sub 0x20080080 w) : OutKeeps w p (@execAdd d
    s) := by
  delta execAdd
  repeat' first
    | with_reducible assumption | with_reducible exact sub_of hw rfl | with_reducible refine outKeeps_next ?_
    | with_reducible apply keeps_begin | with_reducible apply keeps_finish | with_reducible apply keeps_addMarker
    | intro _ _ _ _ | intro _ _ _ | intro _ _ | split | with_reducible refine keeps_of_snd ?_ (by assumption)
    | with_reducible refine keeps_of_fst ?_ (by assumption)

theorem keeps_execSet (d : DescRef) (s : State) (h : Keeps w p s) (hw : Sub 0x20080080 w) : OutKeeps w p (@execSet d
    s) := by
  delta execSet
  repeat' first
    | with_reducible assumption | with_reducible exact sub_of hw rfl | with_reducible refine outKeeps_next ?_
    | with_reducible apply keeps_begin | with_reducible apply keeps_finish | with_reducible apply keeps_setMarker
    | intro _ _ _ _ | intro _ _ _ | intro _ _ | split | with_reducible refine keeps_of_snd ?_ (by assumption)
    | with_reducible refine keeps_of_fst ?_ (by assumption)

theorem keeps_execRead (d : DescRef) (s : State) (h : Keeps w p s) (hw : Sub 0x80280 w) : OutKeeps w p (@execRead d s)
    := by
  delta execRead
  repeat' first
    | with_reducible assumption | with_reducible exact sub_of hw rfl | with_reducible refine outKeeps_next ?_
    | with_reducible apply keeps_begin | with_reducible apply keeps_finish | with_reducible apply keeps_hostWrite
    | intro _ _ _ _

theorem keeps_addWait (s : State) (t : Ticket) (m : Nat) (kind : Nat) (threshold : Nat) (timeout : Nat) (h : Keeps w p
    s) (hw : Sub 0x80000 w) : Keeps w p (@State.addWait s t m kind threshold timeout) := by
  delta State.addWait
  repeat' first
    | with_reducible assumption | (extract_lets +onlyGivenNames x; clear_value x; revert x; intros)
    | with_reducible refine keeps_set_host ?_ (sub_of hw rfl)

theorem keeps_execWait (d : DescRef) (s : State) (h : Keeps w p s) (hw : Sub 0x80080 w) : OutKeeps w p (@execWait d s)
    := by
  delta execWait
  repeat' first
    | with_reducible assumption | with_reducible exact sub_of hw rfl | with_reducible refine outKeeps_next ?_
    | with_reducible apply keeps_begin | with_reducible apply keeps_finish | with_reducible apply keeps_addWait
    | with_reducible refine keeps_ite ?_ ?_ | intro _ _ _ _

theorem keeps_execTake (d : DescRef) (s : State) (h : Keeps w p s) (hw : Sub 0x20080080 w) : OutKeeps w p (@execTake d
    s) := by
  delta execTake
  repeat' first
    | with_reducible assumption | with_reducible exact sub_of hw rfl | with_reducible refine outKeeps_next ?_
    | with_reducible apply keeps_begin | with_reducible apply keeps_finish | with_reducible apply keeps_setMarker
    | with_reducible apply keeps_addWait | with_reducible refine keeps_ite ?_ ?_ | intro _ _ _ _

theorem keeps_execMarkArrive (d : DescRef) (s : State) (h : Keeps w p s) (hw : Sub 0x20080080 w) : OutKeeps w p
    (@execMarkArrive d s) := by
  delta execMarkArrive
  repeat' first
    | with_reducible assumption | with_reducible exact sub_of hw rfl | with_reducible refine outKeeps_next ?_
    | with_reducible apply keeps_begin | with_reducible apply keeps_finish | with_reducible apply keeps_addMarker
    | with_reducible apply keeps_addWait | with_reducible refine keeps_ite ?_ ?_ | intro _ _ _ _

theorem keeps_execMarkerTimeout (d : DescRef) (s : State) (h : Keeps w p s) (hw : Sub 0x20080080 w) : OutKeeps w p
    (@execMarkerTimeout d s) := by
  delta execMarkerTimeout
  repeat' first
    | with_reducible assumption | with_reducible exact sub_of hw rfl | with_reducible refine outKeeps_next ?_
    | with_reducible apply keeps_wakeWaits | with_reducible apply keeps_finish | with_reducible refine keeps_ite ?_ ?_
    | with_reducible refine outKeeps_ite ?_ ?_ | intro _ _ _ _ | intro _ _ _ | intro _ _
    | (extract_lets +onlyGivenNames x; refine keeps_cut (w := w) (p := p) (v := x) ?_ ?_; rotate_left; clear_value x; revert x; intros; rotate_right; unfold x; clear x)
    | (extract_lets +onlyGivenNames x; clear_value x; revert x; intros)
    | (extract_lets +onlyGivenNames x; revert x; intros) | split
    | with_reducible refine keeps_of_snd ?_ (by assumption) | with_reducible refine keeps_of_fst ?_ (by assumption)
    | with_reducible refine keeps_set_host ?_ (sub_of hw rfl)

theorem keeps_signalVector (s : State) (fn : Nat) (v : Nat) (h : Keeps w p s) (hw : Sub 0x80080 w) : Keeps w p
    (@State.signalVector s fn v) := by
  delta State.signalVector
  repeat' first
    | with_reducible assumption | with_reducible apply keeps_sendMsix
    | (extract_lets +onlyGivenNames x; refine keeps_cut (w := w) (p := p) (v := x) ?_ ?_; rotate_left; clear_value x; revert x; intros; rotate_right; unfold x; clear x)
    | (extract_lets +onlyGivenNames x; clear_value x; revert x; intros)
    | with_reducible refine keeps_set_host ?_ (sub_of hw rfl)

theorem keeps_requestIrq (s : State) (fn : Nat) (ring : Nat) (h : Keeps w p s) (hw : Sub 0x80080 w) : Keeps w p
    (@State.requestIrq s fn ring) := by
  delta State.requestIrq
  repeat' first
    | with_reducible assumption | with_reducible exact sub_of hw rfl | with_reducible apply keeps_signalVector
    | with_reducible apply keeps_setRing | with_reducible refine keeps_ite ?_ ?_

theorem keeps_writeRecord (s : State) (fn : Nat) (ring : Nat) (x : Desc) (status : Nat) (sev : Nat) (info : Nat) (h :
    Keeps w p s) (hw : Sub 0x80204 w) : Keeps w p (@State.writeRecord s fn ring x status sev info) := by
  delta State.writeRecord
  repeat' first
    | with_reducible assumption | with_reducible exact sub_of hw rfl | with_reducible apply keeps_stamp
    | with_reducible apply keeps_hostWrite | with_reducible apply keeps_setRing

theorem keeps_releaseHeld (s : State) (x : Desc) (h : Keeps w p s) (hw : Sub 0x4100 w) : Keeps w p (@State.releaseHeld
    s x) := by
  delta State.releaseHeld
  repeat' first
    | with_reducible assumption | with_reducible apply keeps_putHalf | split

theorem keeps_signal (s : State) (fn : Nat) (x : Desc) (status : Nat) (h : Keeps w p s) (hw : Sub 0x20080080 w) :
    Keeps w p (@State.signal s fn x status) := by
  delta State.signal
  repeat' first
    | with_reducible assumption | with_reducible apply keeps_addMarker | with_reducible refine keeps_ite ?_ ?_

theorem keeps_dropDesc (s : State) (t : Ticket) (h : Keeps w p s) (hw : Sub 0x80000 w) : Keeps w p (@State.dropDesc s
    t) := by
  delta State.dropDesc
  repeat' first
    | with_reducible assumption | (extract_lets +onlyGivenNames x; clear_value x; revert x; intros)
    | with_reducible refine keeps_set_host ?_ (sub_of hw rfl)

theorem keeps_ckptDone (s : State) (t : Ticket) (h : Keeps w p s) (hw : Sub 0x200000 w) : Keeps w p (@State.ckptDone s
    t) := by
  delta State.ckptDone
  repeat' first
    | with_reducible assumption | (extract_lets +onlyGivenNames x; clear_value x; revert x; intros)
    | with_reducible refine keeps_set_stalls ?_ (sub_of hw rfl)

theorem keeps_execDescComplete (d : DescRef) (s : State) (h : Keeps w p s) (hw : Sub 0x20284384 w) : OutKeeps w p
    (@execDescComplete d s) := by
  delta execDescComplete
  repeat' first
    | with_reducible assumption | with_reducible exact sub_of hw rfl | with_reducible refine outKeeps_next ?_
    | with_reducible apply keeps_signal | with_reducible apply keeps_releaseHeld | with_reducible apply keeps_ckptDone
    | with_reducible apply keeps_dropDesc | with_reducible apply keeps_writeRecord
    | with_reducible apply keeps_setRing | with_reducible apply keeps_requestIrq
    | with_reducible refine outKeeps_ite ?_ ?_ | (extract_lets +onlyGivenNames x; clear_value x; revert x; intros)
    | split | with_reducible refine keeps_set_host ?_ (sub_of hw rfl)

theorem keeps_execMsixCoalesceTimeout (fn : Fin 32) (vector : Nat) (s : State) (h : Keeps w p s) (hw : Sub 0x80080 w)
    : OutKeeps w p (@execMsixCoalesceTimeout fn vector s) := by
  delta execMsixCoalesceTimeout
  repeat' first
    | with_reducible assumption | with_reducible refine outKeeps_next ?_ | with_reducible apply keeps_signalVector
    | with_reducible refine outKeeps_ite ?_ ?_

theorem keeps_preload (s : State) (x1 : Program) (on : Nat → Bool) (h : Keeps w p s) (hw : Sub 0x100 w) : Keeps w p
    (@State.preload s x1 on) := by
  delta State.preload
  repeat' first
    | with_reducible assumption | with_reducible apply keeps_devWrite | with_reducible refine keeps_foldl ?_ ?_
    | with_reducible refine keeps_ite ?_ ?_ | intro _ _ _

theorem keeps_retain (s : State) (slot : Nat) (c : List Byte) (h : Keeps w p s) (hw : Sub 0x10410c w) : Keeps w p
    (@State.retain s slot c) := by
  delta State.retain
  repeat' first
    | with_reducible assumption | with_reducible exact sub_of hw rfl | with_reducible apply keeps_report
    | with_reducible apply keeps_modProgram | with_reducible apply keeps_devWrite
    | with_reducible refine keeps_ite ?_ ?_ | (extract_lets +onlyGivenNames x; clear_value x; revert x; intros)
    | split | with_reducible refine keeps_set_fabric ?_ (sub_of hw rfl)

theorem keeps_clearShed (s : State) (fn : Nat) (slot : Nat) (h : Keeps w p s) (hw : Sub 0x20000 w) : Keeps w p
    (@State.clearShed s fn slot) := by
  delta State.clearShed
  repeat' first
    | with_reducible assumption | with_reducible refine keeps_set_memSys ?_ (sub_of hw rfl)

theorem keeps_place (s : State) (x1 : Program) (h : Keeps w p s) (hw : Sub 0x832c10c w) : Keeps w p (@State.place s
    x1) := by
  delta State.place
  repeat' first
    | with_reducible assumption | with_reducible exact sub_of hw rfl | with_reducible apply keeps_setSlot
    | with_reducible apply keeps_clearShed | with_reducible apply keeps_measure | with_reducible apply keeps_preload
    | with_reducible apply keeps_declareBuffers | with_reducible apply keeps_report
    | with_reducible refine keeps_ite ?_ ?_ | intro _ _ _ _ | intro _ _ _ | intro _ _
    | (extract_lets +onlyGivenNames x; clear_value x; revert x; intros)
    | with_reducible refine keeps_set_fabric ?_ (sub_of hw rfl)

theorem keeps_execLoadAt (s : State) (fn : Nat) (slot : Nat) (addr : Nat) (n : Nat) (h : Keeps w p s) (hw : Sub
    0x832c10c w) : Keeps w p (@State.execLoadAt s fn slot addr n).1 := by
  delta State.execLoadAt
  repeat' first
    | with_reducible assumption | with_reducible exact sub_of hw rfl | with_reducible apply keeps_badAddress
    | with_reducible apply keeps_retain | with_reducible apply keeps_place | with_reducible refine keeps_ite ?_ ?_
    | (extract_lets +onlyGivenNames x; clear_value x; revert x; intros) | split

theorem keeps_execExecLoad (d : DescRef) (s : State) (h : Keeps w p s) (hw : Sub 0x83ac18c w) : OutKeeps w p
    (@execExecLoad d s) := by
  delta execExecLoad
  repeat' first
    | with_reducible assumption | with_reducible exact sub_of hw rfl | with_reducible refine outKeeps_next ?_
    | with_reducible apply keeps_begin | with_reducible apply keeps_execLoadAt | with_reducible apply keeps_finish
    | intro _ _ _ _

theorem keeps_execExecUnload (d : DescRef) (s : State) (h : Keeps w p s) (hw : Sub 0x21a418c w) : OutKeeps w p
    (@execExecUnload d s) := by
  delta execExecUnload
  repeat' first
    | with_reducible assumption | with_reducible exact sub_of hw rfl | with_reducible refine outKeeps_next ?_
    | with_reducible apply keeps_begin | with_reducible apply keeps_finish | with_reducible apply keeps_setSlot
    | with_reducible apply keeps_clearShed | with_reducible apply keeps_unload | with_reducible refine keeps_ite ?_ ?_
    | intro _ _ _ _
    | (extract_lets +onlyGivenNames x; refine keeps_cut (w := w) (p := p) (v := x) ?_ ?_; rotate_left; clear_value x; revert x; intros; rotate_right; unfold x; clear x)
    | (extract_lets +onlyGivenNames x; clear_value x; revert x; intros) | split
    | with_reducible refine keeps_set_fabric ?_ (sub_of hw rfl)

theorem keeps_setPool (s : State) (id : Nat) (x2 : Option Pool) (h : Keeps w p s) (hw : Sub 0x400000 w) : Keeps w p
    (@State.setPool s id x2) := by
  delta State.setPool
  repeat' first
    | with_reducible assumption | with_reducible refine keeps_set_pools ?_ (sub_of hw rfl)

theorem keeps_poolWrite (s : State) (x1 : Pool) (a : Nat) (l : List Byte) (h : Keeps w p s) (hw : Sub 0x10010c w) :
    Keeps w p (@State.poolWrite s x1 a l) := by
  delta State.poolWrite
  repeat' first
    | with_reducible assumption | with_reducible exact sub_of hw rfl | with_reducible apply keeps_ownWrite
    | with_reducible apply keeps_devWrite | with_reducible refine keeps_ite ?_ ?_ | split
    | with_reducible refine keeps_of_snd ?_ (by assumption) | with_reducible refine keeps_of_fst ?_ (by assumption)

theorem keeps_writeSeq (s : State) (x1 : Pool) (id : Nat) (h : Keeps w p s) (hw : Sub 0x10010c w) : Keeps w p
    (@State.writeSeq s x1 id) := by
  delta State.writeSeq
  repeat' first
    | with_reducible assumption | with_reducible apply keeps_poolWrite | with_reducible refine keeps_foldl ?_ ?_
    | intro _ _ _ | split

theorem keeps_putSeq (s : State) (pool : Nat) (x2 : Pool) (id : Nat) (h : Keeps w p s) (hw : Sub 0x50010c w) : Keeps w
    p (@State.putSeq s pool x2 id) := by
  delta State.putSeq
  repeat' first
    | with_reducible assumption | with_reducible exact sub_of hw rfl | with_reducible apply keeps_writeSeq
    | with_reducible apply keeps_setPool

theorem keeps_poolCreate (s : State) (fn : Nat) (id : Nat) (addr : Nat) (h : Keeps w p s) (hw : Sub 0x400100 w) :
    Keeps w p (@State.poolCreate s fn id addr).1 := by
  delta State.poolCreate
  repeat' first
    | with_reducible assumption | with_reducible exact sub_of hw rfl | with_reducible apply keeps_setPool
    | with_reducible apply keeps_devWrite | with_reducible refine keeps_foldl ?_ ?_ | intro _ _ _
    | (extract_lets +onlyGivenNames x; refine keeps_cut (w := w) (p := p) (v := x) ?_ ?_; rotate_left; clear_value x; revert x; intros; rotate_right; unfold x; clear x)
    | (extract_lets +onlyGivenNames x; clear_value x; revert x; intros) | split
    | with_reducible refine keeps_memZero ?_ (sub_of hw rfl)

theorem keeps_poolDestroy (s : State) (id : Nat) (x2 : Pool) (h : Keeps w p s) (hw : Sub 0x400000 w) : Keeps w p
    (@State.poolDestroy s id x2).1 := by
  delta State.poolDestroy
  repeat' first
    | with_reducible assumption | with_reducible apply keeps_setPool | split

theorem keeps_seqOpen (s : State) (id : Nat) (x2 : Pool) (k : Nat) (cls : Nat) (reserve : Nat) (h : Keeps w p s) (hw :
    Sub 0x50010c w) : Keeps w p (@State.seqOpen s id x2 k cls reserve).1 := by
  delta State.seqOpen
  repeat' first
    | with_reducible assumption | with_reducible apply keeps_putSeq
    | (extract_lets +onlyGivenNames x; clear_value x; revert x; intros) | split

theorem keeps_seqClose (s : State) (id : Nat) (x2 : Pool) (k : Nat) (h : Keeps w p s) (hw : Sub 0x50010c w) : Keeps w
    p (@State.seqClose s id x2 k).1 := by
  delta State.seqClose
  repeat' first
    | with_reducible assumption | with_reducible apply keeps_putSeq | split

theorem keeps_seqTruncate (s : State) (id : Nat) (x2 : Pool) (k : Nat) (len : Nat) (h : Keeps w p s) (hw : Sub
    0x50010c w) : Keeps w p (@State.seqTruncate s id x2 k len).1 := by
  delta State.seqTruncate
  repeat' first
    | with_reducible assumption | with_reducible apply keeps_putSeq | split

theorem keeps_seqMark (s : State) (id : Nat) (x2 : Pool) (k : Nat) (g : Seq → Seq) (h : Keeps w p s) (hw : Sub
    0x50010c w) : Keeps w p (@State.seqMark s id x2 k g).1 := by
  delta State.seqMark
  repeat' first
    | with_reducible assumption | with_reducible apply keeps_putSeq | split

theorem keeps_seqRead (s : State) (x1 : Pool) (k : Nat) (addr : Nat) (h : Keeps w p s) (hw : Sub 0x200 w) : Keeps w p
    (@State.seqRead s x1 k addr).1 := by
  delta State.seqRead
  repeat' first
    | with_reducible assumption | with_reducible apply keeps_hostWrite | split

theorem keeps_poolStatus (s : State) (x1 : Pool) (addr : Nat) (h : Keeps w p s) (hw : Sub 0x200 w) : Keeps w p
    (@State.poolStatus s x1 addr).1 := by
  delta State.poolStatus
  repeat' first
    | with_reducible assumption | with_reducible apply keeps_hostWrite

theorem keeps_pageApply (s : State) (fn : Nat) (x : Desc) (h : Keeps w p s) (hw : Sub 0x50030c w) : Keeps w p
    (@State.pageApply s fn x).1 := by
  delta State.pageApply
  repeat' first
    | with_reducible assumption | with_reducible exact sub_of hw rfl | with_reducible apply keeps_poolCreate
    | with_reducible apply keeps_poolDestroy | with_reducible apply keeps_seqOpen
    | with_reducible apply keeps_seqClose | with_reducible apply keeps_seqTruncate
    | with_reducible apply keeps_seqMark | with_reducible apply keeps_seqRead | with_reducible apply keeps_poolStatus
    | (extract_lets +onlyGivenNames x; clear_value x; revert x; intros) | split

theorem keeps_pageDone (s : State) (fn : Nat) (t : Ticket) (x : Desc) (h : Keeps w p s) (hw : Sub 0x58038c w) : Keeps
    w p (@State.pageDone s fn t x) := by
  delta State.pageDone
  repeat' first
    | with_reducible assumption | with_reducible exact sub_of hw rfl | with_reducible apply keeps_pageApply
    | with_reducible apply keeps_finish

theorem keeps_page (s : State) (d : DescRef) (op : Nat) (h : Keeps w p s) (hw : Sub 0x58038c w) : Keeps w p
    (@State.page s d op) := by
  delta State.page
  repeat' first
    | with_reducible assumption | with_reducible exact sub_of hw rfl | with_reducible apply keeps_begin
    | with_reducible apply keeps_setPool | with_reducible apply keeps_pageDone | with_reducible refine keeps_ite ?_ ?_
    | intro _ _ _ _ | (extract_lets +onlyGivenNames x; clear_value x; revert x; intros) | split

theorem keeps_execCreatePool (d : DescRef) (s : State) (h : Keeps w p s) (hw : Sub 0x58038c w) : OutKeeps w p
    (@execCreatePool d s) := by
  delta execCreatePool
  repeat' first
    | with_reducible assumption | with_reducible refine outKeeps_next ?_ | with_reducible apply keeps_page
    | with_reducible refine keeps_ite ?_ ?_ | split

theorem keeps_execDestroyPool (d : DescRef) (s : State) (h : Keeps w p s) (hw : Sub 0x58038c w) : OutKeeps w p
    (@execDestroyPool d s) := by
  delta execDestroyPool
  repeat' first
    | with_reducible assumption | with_reducible refine outKeeps_next ?_ | with_reducible apply keeps_page

theorem keeps_execOpenSeq (d : DescRef) (s : State) (h : Keeps w p s) (hw : Sub 0x58038c w) : OutKeeps w p
    (@execOpenSeq d s) := by
  delta execOpenSeq
  repeat' first
    | with_reducible assumption | with_reducible refine outKeeps_next ?_ | with_reducible apply keeps_page

theorem keeps_execCloseSeq (d : DescRef) (s : State) (h : Keeps w p s) (hw : Sub 0x58038c w) : OutKeeps w p
    (@execCloseSeq d s) := by
  delta execCloseSeq
  repeat' first
    | with_reducible assumption | with_reducible refine outKeeps_next ?_ | with_reducible apply keeps_page

theorem keeps_execTruncateSeq (d : DescRef) (s : State) (h : Keeps w p s) (hw : Sub 0x58038c w) : OutKeeps w p
    (@execTruncateSeq d s) := by
  delta execTruncateSeq
  repeat' first
    | with_reducible assumption | with_reducible refine outKeeps_next ?_ | with_reducible apply keeps_page

theorem keeps_execSetClass (d : DescRef) (s : State) (h : Keeps w p s) (hw : Sub 0x58038c w) : OutKeeps w p
    (@execSetClass d s) := by
  delta execSetClass
  repeat' first
    | with_reducible assumption | with_reducible refine outKeeps_next ?_ | with_reducible apply keeps_page

theorem keeps_execPin (d : DescRef) (s : State) (h : Keeps w p s) (hw : Sub 0x58038c w) : OutKeeps w p (@execPin d s)
    := by
  delta execPin
  repeat' first
    | with_reducible assumption | with_reducible refine outKeeps_next ?_ | with_reducible apply keeps_page

theorem keeps_execUnpin (d : DescRef) (s : State) (h : Keeps w p s) (hw : Sub 0x58038c w) : OutKeeps w p (@execUnpin d
    s) := by
  delta execUnpin
  repeat' first
    | with_reducible assumption | with_reducible refine outKeeps_next ?_ | with_reducible apply keeps_page

theorem keeps_execReadSeq (d : DescRef) (s : State) (h : Keeps w p s) (hw : Sub 0x58038c w) : OutKeeps w p
    (@execReadSeq d s) := by
  delta execReadSeq
  repeat' first
    | with_reducible assumption | with_reducible refine outKeeps_next ?_ | with_reducible apply keeps_page

theorem keeps_execPoolStatus (d : DescRef) (s : State) (h : Keeps w p s) (hw : Sub 0x58038c w) : OutKeeps w p
    (@execPoolStatus d s) := by
  delta execPoolStatus
  repeat' first
    | with_reducible assumption | with_reducible refine outKeeps_next ?_ | with_reducible apply keeps_page

theorem keeps_applyHeld (s : State) (l : List Ticket) (h : Keeps w p s) (hw : Sub 0x58038c w) : Keeps w p
    (@State.applyHeld s l) := by
  delta State.applyHeld
  refine keeps_foldl h ?_
  intro t a ht
  split
  · exact ht
  · exact keeps_pageDone (hw := sub_of hw rfl) _ _ _ _ ht

theorem keeps_execPageHeldOpsApply (pool : Fin 256) (s : State) (h : Keeps w p s) (hw : Sub 0x58038c w) : OutKeeps w p
    (@execPageHeldOpsApply pool s) := by
  delta execPageHeldOpsApply
  repeat' first
    | with_reducible assumption | with_reducible exact sub_of hw rfl | with_reducible refine outKeeps_next ?_
    | with_reducible apply keeps_applyHeld | with_reducible apply keeps_setPool
    | with_reducible refine keeps_ite ?_ ?_ | with_reducible refine outKeeps_ite ?_ ?_ | split
    | with_reducible refine keeps_of_snd ?_ (by assumption) | with_reducible refine keeps_of_fst ?_ (by assumption)

theorem keeps_dropVictim (s : State) (id : Nat) (v : Nat × Nat) (h : Keeps w p s) (hw : Sub 0x50018c w) : Keeps w p
    (@State.dropVictim s id v) := by
  delta State.dropVictim
  repeat' first
    | with_reducible assumption | with_reducible exact sub_of hw rfl | with_reducible apply keeps_count
    | with_reducible apply keeps_putSeq | (extract_lets +onlyGivenNames x; clear_value x; revert x; intros) | split

theorem keeps_noteVictim (s : State) (id : Nat) (x2 : Pool) (v : Nat × Nat) (h : Keeps w p s) (hw : Sub 0x10008c w) :
    Keeps w p (@State.noteVictim s id x2 v) := by
  delta State.noteVictim
  repeat' first
    | with_reducible assumption | with_reducible exact sub_of hw rfl | with_reducible apply keeps_report
    | with_reducible apply keeps_tally

theorem keeps_commitPages (s : State) (id : Nat) (a : Attn) (pages : List ShadowPage) (h : Keeps w p s) (hw : Sub
    0x50010c w) : Keeps w p (@State.commitPages s id a pages) := by
  delta State.commitPages
  repeat' first
    | with_reducible assumption | with_reducible exact sub_of hw rfl | with_reducible apply keeps_setPool
    | with_reducible apply keeps_putSeq | with_reducible refine keeps_foldl ?_ ?_
    | with_reducible refine keeps_ite ?_ ?_ | intro _ _ _
    | (extract_lets +onlyGivenNames x; clear_value x; revert x; intros) | split

theorem keeps_commitLength (s : State) (id : Nat) (a : Attn) (h : Keeps w p s) (hw : Sub 0x50010c w) : Keeps w p
    (@State.commitLength s id a) := by
  delta State.commitLength
  repeat' first
    | with_reducible assumption | with_reducible exact sub_of hw rfl | with_reducible apply keeps_setPool
    | with_reducible apply keeps_putSeq | with_reducible refine keeps_foldl ?_ ?_
    | with_reducible refine keeps_ite ?_ ?_ | intro _ _ _ | split

theorem keeps_writeRows (s : State) (x1 : Program) (a : Attn) (rows : List NewRow) (h : Keeps w p s) (hw : Sub 0x100
    w) : Keeps w p (@State.writeRows s x1 a rows) := by
  delta State.writeRows
  repeat' first
    | with_reducible assumption | with_reducible apply keeps_devWrite | with_reducible refine keeps_foldl ?_ ?_
    | with_reducible refine keeps_ite ?_ ?_ | intro _ _ _ | split

theorem keeps_requestRestart (s : State) (cause : Nat) (h : Keeps w p s) (hw : Sub 0x10000c w) : Keeps w p
    (@State.requestRestart s cause) := by
  delta State.requestRestart
  repeat' first
    | with_reducible assumption | with_reducible apply keeps_report | with_reducible apply keeps_setAuthority
    | with_reducible refine keeps_ite ?_ ?_
    | (extract_lets +onlyGivenNames x; refine keeps_cut (w := w) (p := p) (v := x) ?_ ?_; rotate_left; clear_value x; revert x; intros; rotate_right; unfold x; clear x)
    | (extract_lets +onlyGivenNames x; clear_value x; revert x; intros)
    | (extract_lets +onlyGivenNames x; revert x; intros) | with_reducible refine keeps_set_safety ?_ (sub_of hw rfl)

theorem keeps_fallbackState (s : State) (cause : Nat) (time : Nat) (h : Keeps w p s) (hw : Sub 0x10000c w) : Keeps w p
    (@State.fallbackState s cause time) := by
  delta State.fallbackState
  repeat' first
    | with_reducible assumption | with_reducible apply keeps_setAuthority | with_reducible apply keeps_requestRestart
    | with_reducible refine keeps_ite ?_ ?_

theorem keeps_repaired (s : State) (d : Nat) (phys : Nat) (h : Keeps w p s) (hw : Sub 0x4080 w) : Keeps w p
    (@State.repaired s d phys) := by
  delta State.repaired
  repeat' first
    | with_reducible assumption | with_reducible exact sub_of hw rfl | with_reducible apply keeps_setFld
    | with_reducible refine keeps_ite ?_ ?_ | intro _ _ _ _ | intro _ _ _ | intro _ _
    | (extract_lets +onlyGivenNames x; clear_value x; revert x; intros)
    | with_reducible refine keeps_set_fabric ?_ (sub_of hw rfl)

theorem keeps_repairRow (s : Option State) (x : Nat × Nat × Nat × Nat) (h : ∀ u, s = some u → Keeps w p u) (hw : Sub
    0x4000 w) : ∀ t, @State.repairRow s x = some t → Keeps w p t := by
  intro t e
  cases s with
  | none => cases e
  | some s =>
    obtain ⟨d, phys, bank, row⟩ := x
    unfold State.repairRow at e
    dsimp only at e
    split at e
    · cases e
    · split at e
      · cases e
      · cases e
        exact keeps_set_fabric (h s rfl) (sub_of hw rfl)

theorem keeps_mapOut (s : State) (d : Nat) (phys : Nat) (h : Keeps w p s) (hw : Sub 0x410418c w) : Keeps w p
    (@State.mapOut s d phys) := by
  delta State.mapOut
  repeat' first
    | with_reducible assumption | with_reducible exact sub_of hw rfl | with_reducible apply keeps_applyMap
    | with_reducible apply keeps_setDie | with_reducible apply keeps_report | with_reducible refine keeps_ite ?_ ?_
    | (extract_lets +onlyGivenNames x; refine keeps_cut (w := w) (p := p) (v := x) ?_ ?_; rotate_left; clear_value x; revert x; intros; rotate_right; unfold x; clear x)
    | (extract_lets +onlyGivenNames x; clear_value x; revert x; intros)
    | (extract_lets +onlyGivenNames x; revert x; intros) | split
    | with_reducible refine keeps_of_snd ?_ (by assumption) | with_reducible refine keeps_of_fst ?_ (by assumption)
    | with_reducible refine keeps_set_fabric ?_ (sub_of hw rfl)

theorem keeps_testAgain (s : State) (d : Nat) (t : Nat) (h : Keeps w p s) (hw : Sub 0x4000000 w) : Keeps w p
    (@State.testAgain s d t) := by
  delta State.testAgain
  repeat' first
    | with_reducible assumption | with_reducible exact sub_of hw rfl | with_reducible refine keeps_ite ?_ ?_
    | intro _ _ _ _ | intro _ _ _ | intro _ _ | split | with_reducible refine keeps_of_snd ?_ (by assumption)
    | with_reducible refine keeps_of_fst ?_ (by assumption)
    | with_reducible refine keeps_set_swatch ?_ (sub_of hw rfl)

theorem keeps_repairRows (l : List (Nat × Nat × Nat × Nat)) (s : Option State) (h : ∀ u, s = some u → Keeps w p u) (hw
    : Sub 0x4000 w) : ∀ t, l.foldl State.repairRow s = some t → Keeps w p t := by
  induction l generalizing s with
  | nil => exact h
  | cons x l ih => exact ih _ (keeps_repairRow (hw := sub_of hw rfl) _ _ h)

theorem keeps_repairTile (s : State) (d : Nat) (phys : Nat) (h : Keeps w p s) (hw : Sub 0x410418c w) : Keeps w p
    (@State.repairTile s d phys) := by
  delta State.repairTile
  have h0 := keeps_repaired (hw := sub_of hw rfl) s d phys h
  generalize s.repaired d phys = u at h0
  dsimp only
  split
  · exact h0
  · split
    · rename_i e
      exact keeps_testAgain (hw := sub_of hw rfl) _ _ _ (keeps_mapTile (hw := sub_of hw rfl) _ _ _ (keeps_repairRows _ _ (fun v e => by cases e; exact h0) (sub_of hw rfl) _ e))
    · exact keeps_testAgain (hw := sub_of hw rfl) _ _ _ (keeps_mapOut (hw := sub_of hw rfl) _ _ _ h0)

theorem keeps_loadAgain (s : State) (d : Nat) (h : Keeps w p s) (hw : Sub 0x100 w) : Keeps w p (@State.loadAgain s d)
    := by
  delta State.loadAgain
  repeat' first
    | with_reducible assumption | with_reducible apply keeps_preload | with_reducible refine keeps_foldl ?_ ?_
    | intro _ _ _

theorem keeps_markTile (s : State) (d : Nat) (phys : Nat) (rows : List (Nat × Nat)) (h : Keeps w p s) (hw : Sub 0x4080
    w) : Keeps w p (@State.markTile s d phys rows) := by
  delta State.markTile
  repeat' first
    | with_reducible assumption | with_reducible exact sub_of hw rfl | with_reducible apply keeps_setFld
    | with_reducible refine keeps_ite ?_ ?_ | intro _ _ _ _ | intro _ _ _ | intro _ _
    | (extract_lets +onlyGivenNames x; refine keeps_cut (w := w) (p := p) (v := x) ?_ ?_; rotate_left; clear_value x; revert x; intros; rotate_right; unfold x; clear x)
    | (extract_lets +onlyGivenNames x; clear_value x; revert x; intros)
    | (extract_lets +onlyGivenNames x; revert x; intros) | split
    | with_reducible refine keeps_of_snd ?_ (by assumption) | with_reducible refine keeps_of_fst ?_ (by assumption)
    | with_reducible refine keeps_set_fabric ?_ (sub_of hw rfl)

theorem keeps_tileFault (s : State) (d : Nat) (phys : Nat) (rows : optParam (List (Nat × Nat)) []) (h : Keeps w p s)
    (hw : Sub 0x590418c w) : Keeps w p (@State.tileFault s d phys rows) := by
  delta State.tileFault
  repeat' first
    | with_reducible assumption | with_reducible exact sub_of hw rfl | with_reducible apply keeps_markTile
    | with_reducible apply keeps_report | with_reducible apply keeps_loadAgain | with_reducible apply keeps_writeField
    | with_reducible apply keeps_repairTile | with_reducible apply keeps_requestRestart
    | with_reducible refine keeps_ite ?_ ?_ | (extract_lets +onlyGivenNames x; clear_value x; revert x; intros)
    | split

theorem keeps_showJoined (s : State) (h : Keeps w p s) (hw : Sub 0x80 w) : Keeps w p (@State.showJoined s) := by
  delta State.showJoined
  repeat' first
    | with_reducible assumption | with_reducible apply keeps_setFld

theorem keeps_recheckPairs (s : State) (h : Keeps w p s) (hw : Sub 0x10200c w) : Keeps w p (@State.recheckPairs s) := by
  delta State.recheckPairs
  repeat' first
    | with_reducible assumption | with_reducible apply keeps_request | with_reducible apply keeps_withdraw
    | with_reducible refine keeps_ite ?_ ?_

theorem keeps_setGauge (s : State) (n : Nat) (h : Keeps w p s) (hw : Sub 0x80 w) : Keeps w p (@State.setGauge s n) := by
  delta State.setGauge
  repeat' first
    | with_reducible assumption | with_reducible apply keeps_setFld

theorem keeps_invalidate (s : State) (x1 : Program) (it : Iteration) (h : Keeps w p s) (hw : Sub 0x84180 w) : Keeps w
    p (@State.invalidate s x1 it) := by
  delta State.invalidate
  repeat' first
    | with_reducible assumption | with_reducible exact sub_of hw rfl | with_reducible apply keeps_modIteration
    | with_reducible apply keeps_putHalf | with_reducible apply keeps_finishCopies
    | with_reducible refine keeps_foldl ?_ ?_ | with_reducible refine keeps_ite ?_ ?_ | intro _ _ _ | split

theorem keeps_firstMismatch (s : State) (x1 : Program) (targets : List (Nat × Nat)) (log : Bool) (id : Nat) (h : Keeps
    w p s) (hw : Sub 0x210008c w) : Keeps w p (@State.firstMismatch s x1 targets log id) := by
  delta State.firstMismatch
  repeat' first
    | with_reducible assumption | with_reducible exact sub_of hw rfl | with_reducible apply keeps_setFld
    | with_reducible apply keeps_setGauge | with_reducible apply keeps_report | with_reducible refine keeps_ite ?_ ?_
    | (extract_lets +onlyGivenNames x; clear_value x; revert x; intros)
    | with_reducible refine keeps_set_gauge ?_ (sub_of hw rfl)

theorem keeps_forgetPasses (s : State) (l : List (Nat × Nat)) (h : Keeps w p s) (hw : Sub 0x4000000 w) : Keeps w p
    (@State.forgetPasses s l) := by
  delta State.forgetPasses
  repeat' first
    | with_reducible assumption | (extract_lets +onlyGivenNames x; clear_value x; revert x; intros)
    | with_reducible refine keeps_set_swatch ?_ (sub_of hw rfl)

theorem keeps_mismatch (s : State) (x1 : Program) (it : Iteration) (id : Nat) (kind : Nat) (tiles : List (Nat × Nat))
    (h : Keeps w p s) (hw : Sub 0x618418c w) : Keeps w p (@State.mismatch s x1 it id kind tiles) := by
  delta State.mismatch
  repeat' first
    | with_reducible assumption | with_reducible exact sub_of hw rfl | with_reducible apply keeps_count
    | with_reducible apply keeps_setFld | with_reducible apply keeps_invalidate
    | with_reducible apply keeps_forgetPasses | with_reducible apply keeps_report
    | with_reducible apply keeps_firstMismatch | with_reducible apply keeps_requestRestart
    | with_reducible apply keeps_setGauge | with_reducible refine keeps_ite ?_ ?_ | intro _ _ _ _ | intro _ _ _
    | intro _ _ | (extract_lets +onlyGivenNames x; clear_value x; revert x; intros)
    | with_reducible refine keeps_set_gauge ?_ (sub_of hw rfl)

theorem keeps_gaugeBoundary (s : State) (fn : Nat) (slot : Nat) (h : Keeps w p s) (hw : Sub 0x10208c w) : Keeps w p
    (@State.gaugeBoundary s fn slot) := by
  delta State.gaugeBoundary
  repeat' first
    | with_reducible assumption | with_reducible exact sub_of hw rfl | with_reducible apply keeps_withdraw
    | with_reducible apply keeps_report | with_reducible apply keeps_setGauge | with_reducible refine keeps_ite ?_ ?_

theorem keeps_gaugeFrame (s : State) (x1 : Program) (it : Iteration) (h : Keeps w p s) (hw : Sub 0x80 w) : Keeps w p
    (@State.gaugeFrame s x1 it) := by
  delta State.gaugeFrame
  repeat' first
    | with_reducible assumption | with_reducible apply keeps_setFld | with_reducible refine keeps_ite ?_ ?_

theorem keeps_targetPassed (s : State) (d : Nat) (phys : Nat) (h : Keeps w p s) (hw : Sub 0x2000080 w) : Keeps w p
    (@State.targetPassed s d phys) := by
  delta State.targetPassed
  repeat' first
    | with_reducible assumption | with_reducible exact sub_of hw rfl | with_reducible apply keeps_setFld
    | with_reducible apply keeps_setGauge | with_reducible refine keeps_ite ?_ ?_
    | (extract_lets +onlyGivenNames x; clear_value x; revert x; intros)
    | with_reducible refine keeps_set_gauge ?_ (sub_of hw rfl)

theorem keeps_targetFailed (s : State) (d : Nat) (phys : Nat) (h : Keeps w p s) (hw : Sub 0x2000080 w) : Keeps w p
    (@State.targetFailed s d phys) := by
  delta State.targetFailed
  repeat' first
    | with_reducible assumption | with_reducible exact sub_of hw rfl | with_reducible apply keeps_setGauge
    | with_reducible refine keeps_ite ?_ ?_ | (extract_lets +onlyGivenNames x; clear_value x; revert x; intros)
    | with_reducible refine keeps_set_gauge ?_ (sub_of hw rfl)

end Sys2Proof.Machine
end

