-- ==== Sys2Proof/Laws/KeepsFabric.lean ====
section
/-!
SUPPORT. Laws/KeepsFabric.lean: what each operation and command keeps (the fabric, iterations, redundancy, stalls); `keeps_x` is about `x`, whose
components of State are the bits of its `Sub`.
-/

namespace Sys2Proof.Machine

variable {w : Nat} {p : State}

theorem keeps_setWatch (s : State) (d : Nat) (x2 : Nat) (x : Watch) (h : Keeps w p s) (hw : Sub 0x4000 w) : Keeps w p
    (@State.setWatch s d x2 x) := by
  delta State.setWatch
  repeat' first
    | with_reducible assumption | with_reducible refine keeps_set_fabric ?_ (sub_of hw rfl)

theorem keeps_armFirst (s : State) (x1 : Program) (it : Iteration) (d : Nat) (x4 : Nat) (l : List (Nat × Command)) (h
    : Keeps w p s) (hw : Sub 0x4000 w) : Keeps w p (@State.armFirst s x1 it d x4 l) := by
  delta State.armFirst
  repeat' first
    | with_reducible assumption | with_reducible apply keeps_setWatch | split

theorem keeps_armWatches (s : State) (x1 : Program) (it : Iteration) (h : Keeps w p s) (hw : Sub 0x4000 w) : Keeps w p
    (@State.armWatches s x1 it) := by
  delta State.armWatches
  repeat' first
    | with_reducible assumption | with_reducible apply keeps_armFirst | with_reducible refine keeps_foldl ?_ ?_
    | with_reducible refine keeps_ite ?_ ?_ | intro _ _ _

theorem keeps_nextWatch (s : State) (x1 : Program) (it : Iteration) (d : Nat) (x4 : Nat) (after : Nat) (h : Keeps w p
    s) (hw : Sub 0x4000 w) : Keeps w p (@State.nextWatch s x1 it d x4 after) := by
  delta State.nextWatch
  repeat' first
    | with_reducible assumption | with_reducible exact sub_of hw rfl | with_reducible apply keeps_armFirst
    | with_reducible apply keeps_setWatch | intro _ _ _ _ | intro _ _ _ | intro _ _ | split
    | with_reducible refine keeps_of_snd ?_ (by assumption) | with_reducible refine keeps_of_fst ?_ (by assumption)

theorem keeps_passWatches (s : State) (x1 : Program) (it : Iteration) (hit : Nat → Bool) (h : Keeps w p s) (hw : Sub
    0x4000 w) : Keeps w p (@State.passWatches s x1 it hit) := by
  delta State.passWatches
  repeat' first
    | with_reducible assumption | with_reducible exact sub_of hw rfl | with_reducible apply keeps_nextWatch
    | with_reducible refine keeps_foldl ?_ ?_ | intro _ _ _ _ | intro _ _ _ | intro _ _ | split
    | with_reducible refine keeps_of_snd ?_ (by assumption) | with_reducible refine keeps_of_fst ?_ (by assumption)

theorem keeps_failRuns (s : State) (x1 : Program) (it : Iteration) (sel : Nat → Bool) (code : Nat) (id : Nat) (sev :
    Nat) (h : Keeps w p s) (hw : Sub 0x4000 w) : Keeps w p (@State.failRuns s x1 it sel code id sev) := by
  delta State.failRuns
  repeat' first
    | with_reducible assumption | with_reducible exact sub_of hw rfl | with_reducible apply keeps_modRunning
    | with_reducible apply keeps_modIteration | with_reducible apply keeps_passWatches
    | with_reducible refine keeps_ite ?_ ?_ | intro _ _ _ _ | intro _ _ _ | intro _ _
    | (extract_lets +onlyGivenNames x; refine keeps_cut (w := w) (p := p) (v := x) ?_ ?_; rotate_left; clear_value x; revert x; intros; rotate_right; unfold x; clear x)
    | (extract_lets +onlyGivenNames x; clear_value x; revert x; intros)
    | (extract_lets +onlyGivenNames x; revert x; intros) | split
    | with_reducible refine keeps_of_snd ?_ (by assumption) | with_reducible refine keeps_of_fst ?_ (by assumption)

theorem keeps_failCommand (s : State) (c : CmdRef) (code : Nat) (h : Keeps w p s) (hw : Sub 0x87c408c w) : Keeps w p
    (@State.failCommand s c code) := by
  delta State.failCommand
  repeat' first
    | with_reducible assumption | with_reducible exact sub_of hw rfl | with_reducible apply keeps_stallFault
    | with_reducible apply keeps_report | with_reducible apply keeps_failRuns | split

theorem keeps_setVreg (s : State) (d : Nat) (t : Nat) (reg : Nat) (lane : Nat) (v : Nat) (h : Keeps w p s) (hw : Sub
    0x4000 w) : Keeps w p (@State.setVreg s d t reg lane v) := by
  delta State.setVreg
  repeat' first
    | with_reducible assumption | with_reducible refine keeps_set_fabric ?_ (sub_of hw rfl)

theorem keeps_setAcc (s : State) (d : Nat) (t : Nat) (row : Nat) (col : Nat) (v : Nat) (h : Keeps w p s) (hw : Sub
    0x4000 w) : Keeps w p (@State.setAcc s d t row col v) := by
  delta State.setAcc
  repeat' first
    | with_reducible assumption | with_reducible refine keeps_set_fabric ?_ (sub_of hw rfl)

theorem keeps_draw (s : State) (x1 : Program) (d : Nat) (t : Nat) (lane : Nat) (h : Keeps w p s) (hw : Sub 0x4000 w) :
    Keeps w p (@State.draw s x1 d t lane).2 := by
  delta State.draw
  repeat' first
    | with_reducible assumption | (extract_lets +onlyGivenNames x; clear_value x; revert x; intros) | split
    | with_reducible refine keeps_snd_mk ?_ | with_reducible refine keeps_set_fabric ?_ (sub_of hw rfl)

theorem keeps_issue (s : State) (bundles : List Bundle) (c : CmdRef) (d : Fin 6) (h : Keeps w p s) (hw : Sub 0x10 w) :
    Keeps w p (@State.issue s bundles c d).2 := by
  delta State.issue
  repeat' first
    | with_reducible assumption | with_reducible exact sub_of hw rfl | with_reducible refine keeps_ite ?_ ?_
    | intro _ _ _ _ | intro _ _ _ | intro _ _
    | (extract_lets +onlyGivenNames x; refine keeps_cut (w := w) (p := p) (v := x) ?_ ?_; rotate_left; clear_value x; revert x; intros; rotate_right; unfold x; clear x)
    | (extract_lets +onlyGivenNames x; refine keeps_cut (w := w) (p := p) (v := x.1) ?_ ?_; rotate_left; clear_value x; revert x; intros; rotate_right; unfold x; clear x)
    | (extract_lets +onlyGivenNames x; refine keeps_cut (w := w) (p := p) (v := x.2) ?_ ?_; rotate_left; clear_value x; revert x; intros; rotate_right; unfold x; clear x)
    | (extract_lets +onlyGivenNames x; clear_value x; revert x; intros)
    | (extract_lets +onlyGivenNames x; revert x; intros) | split
    | with_reducible refine keeps_of_snd ?_ (by assumption) | with_reducible refine keeps_of_fst ?_ (by assumption)
    | with_reducible refine keeps_snd_mk ?_ | with_reducible refine keeps_fst_mk ?_
    | with_reducible refine keeps_set_shown ?_ (sub_of hw rfl)

theorem keeps_keepPast (s : State) (c : CmdRef) (h : Keeps w p s) (hw : Sub 0x4000 w) : Keeps w p (@State.keepPast s
    c) := by
  delta State.keepPast
  repeat' first
    | with_reducible assumption | with_reducible exact sub_of hw rfl | with_reducible apply keeps_modRun
    | with_reducible refine keeps_ite ?_ ?_ | intro _ _ _ _ | intro _ _ _ | intro _ _ | split
    | with_reducible refine keeps_of_snd ?_ (by assumption) | with_reducible refine keeps_of_fst ?_ (by assumption)

theorem keeps_issueAll (s : State) (bundles : List Bundle) (h : Keeps w p s) (hw : Sub 0x10 w) : Keeps w p
    (@State.issueAll s bundles).2 := by
  delta State.issueAll
  repeat' first
    | with_reducible assumption | with_reducible exact sub_of hw rfl | with_reducible apply keeps_issue
    | with_reducible refine keeps_foldl ?_ ?_ | with_reducible refine keeps_foldl_fst ?_ ?_
    | with_reducible refine keeps_foldl_snd ?_ ?_ | intro _ _ _ _ | intro _ _ _ | intro _ _
    | (extract_lets +onlyGivenNames x; refine keeps_cut (w := w) (p := p) (v := x) ?_ ?_; rotate_left; clear_value x; revert x; intros; rotate_right; unfold x; clear x)
    | (extract_lets +onlyGivenNames x; refine keeps_cut (w := w) (p := p) (v := x.1) ?_ ?_; rotate_left; clear_value x; revert x; intros; rotate_right; unfold x; clear x)
    | (extract_lets +onlyGivenNames x; refine keeps_cut (w := w) (p := p) (v := x.2) ?_ ?_; rotate_left; clear_value x; revert x; intros; rotate_right; unfold x; clear x)
    | (extract_lets +onlyGivenNames x; clear_value x; revert x; intros)
    | (extract_lets +onlyGivenNames x; revert x; intros) | split
    | with_reducible refine keeps_of_snd ?_ (by assumption) | with_reducible refine keeps_of_fst ?_ (by assumption)
    | with_reducible refine keeps_of_22 ?_ (by assumption) | with_reducible refine keeps_of_222 ?_ (by assumption)
    | with_reducible refine keeps_of_11 ?_ (by assumption) | with_reducible refine keeps_snd_mk ?_
    | with_reducible refine keeps_fst_mk ?_

theorem keeps_put (k : Work) (e : Site) (r l v : Nat) (h : Keeps w p k.s) (hw : Sub 0x87c408c w) : Keeps w p (k.put e
    r l v).s :=
  keeps_setVreg (hw := sub_of hw rfl) _ _ _ _ _ _ h

theorem keeps_inputConvert (k : Work) (e : Site) (a b l ch : Nat) (h : Keeps w p k.s) (hw : Sub 0x87c408c w) : Keeps w
    p (k.inputConvert e a b l ch).s := by
  unfold Work.inputConvert
  split
  · exact h
  · split
    · exact h
    · split
      · exact keeps_put (hw := hw) _ _ _ _ _ h
      · dsimp only
        split
        · exact keeps_put (hw := hw) _ _ _ _ _ h
        · exact keeps_put (hw := hw) _ _ _ _ _ h

theorem keeps_outputConvert (k : Work) (e : Site) (a b l n : Nat) (h : Keeps w p k.s) (hw : Sub 0x87c408c w) : Keeps w
    p (k.outputConvert e a b l n).s := by
  unfold Work.outputConvert
  split
  · exact h
  · rename_i q _
    dsimp only
    have hd := keeps_draw (hw := sub_of hw rfl) k.s e.p e.die e.tile l h
    split <;> split <;> first | exact keeps_put (hw := hw) _ _ _ _ _ hd | exact keeps_put (hw := hw) _ _ _ _ _ h

theorem keeps_mac (k : Work) (e : Site) (a b c d f g i : Nat) (pads : List Nat) (h : Keeps w p k.s) (hw : Sub
    0x87c408c w) : Keeps w p (k.mac e a b c d f g i pads).s := by
  unfold Work.mac
  split
  · exact h
  · dsimp only
    split
    · exact h
    · exact keeps_setAcc (hw := sub_of hw rfl) _ _ _ _ _ _ h

theorem keeps_attn (k : Work) (g : Attn → Work) (h : Keeps w p k.s) (hk : ∀ a, Keeps w p (g a).s) : Keeps w p (k.attn
    g).s := by
  unfold Work.attn
  split
  · exact hk _
  · exact h

theorem keeps_mark (k : Work) (e : Site) (b : Bool) (m v : Nat) (h : Keeps w p k.s) : Keeps w p (k.mark e b m v).s := by
  unfold Work.mark
  split
  · exact h
  · split <;> exact h

theorem keeps_work (k : Work) (e : Site) (o : TileOp) (h : Keeps w p k.s) (hw : Sub 0x87c408c w) : Keeps w p (k.op e
    o).s := by
  have hif : ∀ (c : Prop) [Decidable c] (a : Work), Keeps w p a.s → Keeps w p (if c then a else k.fault).s := by
    intro c _ a ha
    split
    · exact ha
    · exact h
  cases o with
  | readStatus =>
    show Keeps w p (match e.status _ with | some v => k.put e _ _ v | none => k.fault).s
    split
    · exact keeps_put (hw := hw) _ _ _ _ _ h
    · exact h
  | loadWord => exact hif _ _ (keeps_put (hw := hw) _ _ _ _ _ h)
  | storeWord => exact hif _ _ h
  | scalarLoad => exact hif _ _ (keeps_set_fabric h (sub_of hw rfl))
  | scalarStore => exact hif _ _ h
  | pull => exact hif _ _ h
  | inputConvert => exact keeps_inputConvert (hw := hw) _ _ _ _ _ _ h
  | outputConvert => exact keeps_outputConvert (hw := hw) _ _ _ _ _ _ h
  | macElement => exact keeps_mac (hw := hw) _ _ _ _ _ _ _ _ _ _ h
  | accRead => exact keeps_put (hw := hw) _ _ _ _ _ h
  | fma => exact keeps_put (hw := hw) _ _ _ _ _ h
  | bf16Add => exact keeps_put (hw := hw) _ _ _ _ _ h
  | bf16Mul => exact keeps_put (hw := hw) _ _ _ _ _ h
  | bf16Fma => exact keeps_put (hw := hw) _ _ _ _ _ h
  | int32Add => exact keeps_put (hw := hw) _ _ _ _ _ h
  | int32Mul => exact keeps_put (hw := hw) _ _ _ _ _ h
  | select => exact keeps_put (hw := hw) _ _ _ _ _ h
  | depthwise => exact hif _ _ (keeps_put (hw := hw) _ _ _ _ _ h)
  | attendRow => exact keeps_attn _ _ h fun _ => h
  | finishKey => exact keeps_attn _ _ h fun _ => h
  | appendLatent => exact keeps_attn _ _ h fun _ => h
  | markAdd => exact keeps_mark _ _ _ _ _ h
  | markSet => exact keeps_mark _ _ _ _ _ h

theorem keeps_works (l : List TileOp) (e : Site) (k : Work) (h : Keeps w p k.s) (hw : Sub 0x87c408c w) : Keeps w p
    (l.foldl (fun k o => k.step e o) k).s := by
  induction l generalizing k with
  | nil => exact h
  | cons o l ih => exact ih (k.step e o) (keeps_work (hw := hw) k e o h)

theorem keeps_bundle (s : State) (b : Bundle) (h : Keeps w p s) (hw : Sub 0x87c408c w) : Keeps w p (@State.bundle s
    b).1 := by
  delta State.bundle
  split
  · exact h
  · dsimp only
    split
    · exact h
    · have h1 := fun e r f => keeps_modRun (hw := sub_of hw rfl) _ b.ref f (keeps_works (hw := hw) b.ops e ⟨s, r, [], [], false⟩ h)
      exact keeps_ite (keeps_failCommand (hw := sub_of hw rfl) _ _ _ (h1 _ _ _)) (h1 _ _ _)

theorem keeps_readRange (s : State) (base : Nat) (x : Nat × Nat) (ecc : EccResult) (safety : Bool) (h : Keeps w p s)
    (hw : Sub 0xbfe418c w) : Keeps w p (@State.readRange s base x ecc safety).1 := by
  delta State.readRange
  repeat' first
    | with_reducible assumption | with_reducible exact sub_of hw rfl | with_reducible apply keeps_eccRead
    | with_reducible refine keeps_ite ?_ ?_ | intro _ _ _ _ | intro _ _ _ | intro _ _ | split
    | with_reducible refine keeps_of_snd ?_ (by assumption) | with_reducible refine keeps_of_fst ?_ (by assumption)
    | with_reducible refine keeps_of_22 ?_ (by assumption) | with_reducible refine keeps_of_222 ?_ (by assumption)
    | with_reducible refine keeps_of_11 ?_ (by assumption) | with_reducible refine keeps_snd_mk ?_
    | with_reducible refine keeps_fst_mk ?_

theorem keeps_readSource (s : State) (x1 : Program) (it : Iteration) (k : Command) (r : CmdRun) (e : Engine) (d : Nat)
    (steps : List Nat) (aux : Bool) (ecc : EccResult) (h : Keeps w p s) (hw : Sub 0xbfe418c w) : Keeps w p
    (@State.readSource s x1 it k r e d steps aux ecc).1 := by
  delta State.readSource
  repeat' first
    | with_reducible assumption | with_reducible exact sub_of hw rfl | with_reducible apply keeps_readRange
    | with_reducible refine keeps_foldl ?_ ?_ | with_reducible refine keeps_foldl_fst ?_ ?_
    | with_reducible refine keeps_foldl_snd ?_ ?_ | with_reducible refine keeps_ite ?_ ?_ | intro _ _ _ _
    | intro _ _ _ | intro _ _
    | (extract_lets +onlyGivenNames x; refine keeps_cut (w := w) (p := p) (v := x) ?_ ?_; rotate_left; clear_value x; revert x; intros; rotate_right; unfold x; clear x)
    | (extract_lets +onlyGivenNames x; refine keeps_cut (w := w) (p := p) (v := x.1) ?_ ?_; rotate_left; clear_value x; revert x; intros; rotate_right; unfold x; clear x)
    | (extract_lets +onlyGivenNames x; refine keeps_cut (w := w) (p := p) (v := x.2) ?_ ?_; rotate_left; clear_value x; revert x; intros; rotate_right; unfold x; clear x)
    | (extract_lets +onlyGivenNames x; clear_value x; revert x; intros)
    | (extract_lets +onlyGivenNames x; revert x; intros) | split
    | with_reducible refine keeps_of_snd ?_ (by assumption) | with_reducible refine keeps_of_fst ?_ (by assumption)
    | with_reducible refine keeps_of_22 ?_ (by assumption) | with_reducible refine keeps_of_222 ?_ (by assumption)
    | with_reducible refine keeps_of_11 ?_ (by assumption) | with_reducible refine keeps_snd_mk ?_
    | with_reducible refine keeps_fst_mk ?_

theorem keeps_readJob (s : State) (engines : List EngineRead) (c : CmdRef) (die : Nat) (entry : Nat) (h : Keeps w p s)
    (hw : Sub 0xbfe418c w) : Keeps w p (@State.readJob s engines c die entry) := by
  delta State.readJob
  repeat' first
    | with_reducible assumption | with_reducible exact sub_of hw rfl | with_reducible apply keeps_readSource
    | with_reducible apply keeps_failRuns | with_reducible refine keeps_ite ?_ ?_ | intro _ _ _ _ | intro _ _ _
    | intro _ _
    | (extract_lets +onlyGivenNames x; refine keeps_cut (w := w) (p := p) (v := x) ?_ ?_; rotate_left; clear_value x; revert x; intros; rotate_right; unfold x; clear x)
    | (extract_lets +onlyGivenNames x; refine keeps_cut (w := w) (p := p) (v := x.1) ?_ ?_; rotate_left; clear_value x; revert x; intros; rotate_right; unfold x; clear x)
    | (extract_lets +onlyGivenNames x; refine keeps_cut (w := w) (p := p) (v := x.2) ?_ ?_; rotate_left; clear_value x; revert x; intros; rotate_right; unfold x; clear x)
    | (extract_lets +onlyGivenNames x; clear_value x; revert x; intros)
    | (extract_lets +onlyGivenNames x; revert x; intros) | split
    | with_reducible refine keeps_of_snd ?_ (by assumption) | with_reducible refine keeps_of_fst ?_ (by assumption)
    | with_reducible refine keeps_of_22 ?_ (by assumption) | with_reducible refine keeps_of_222 ?_ (by assumption)
    | with_reducible refine keeps_of_11 ?_ (by assumption)

theorem keeps_readJobs (s : State) (engines : List EngineRead) (c : CmdRef) (h : Keeps w p s) (hw : Sub 0xbfe418c w) :
    Keeps w p (@State.readJobs s engines c) := by
  delta State.readJobs
  repeat' first
    | with_reducible assumption | with_reducible exact sub_of hw rfl | with_reducible apply keeps_readJob
    | with_reducible refine keeps_foldl ?_ ?_ | intro _ _ _ _ | intro _ _ _ | intro _ _ | split
    | with_reducible refine keeps_of_snd ?_ (by assumption) | with_reducible refine keeps_of_fst ?_ (by assumption)

theorem keeps_runJob (s : State) (c : CmdRef) (die : Nat) (entry : Nat) (h : Keeps w p s) (hw : Sub 0x87c408c w) :
    Keeps w p (@State.runJob s c die entry) := by
  delta State.runJob
  repeat' first
    | with_reducible assumption | with_reducible exact sub_of hw rfl | with_reducible apply keeps_modRun
    | with_reducible apply keeps_failCommand | intro _ _ _ _ | intro _ _ _ | intro _ _ | split
    | with_reducible refine keeps_of_snd ?_ (by assumption) | with_reducible refine keeps_of_fst ?_ (by assumption)

theorem keeps_runJobs (s : State) (c : CmdRef) (h : Keeps w p s) (hw : Sub 0x87c408c w) : Keeps w p (@State.runJobs s
    c) := by
  delta State.runJobs
  repeat' first
    | with_reducible assumption | with_reducible exact sub_of hw rfl | with_reducible apply keeps_runJob
    | with_reducible refine keeps_foldl ?_ ?_ | intro _ _ _ _ | intro _ _ _ | intro _ _ | split
    | with_reducible refine keeps_of_snd ?_ (by assumption) | with_reducible refine keeps_of_fst ?_ (by assumption)

theorem keeps_arrive (s : State) (c : CmdRef) (h : Keeps w p s) (hw : Sub 0x87c408c w) : Keeps w p (@State.arrive s c)
    := by
  delta State.arrive
  repeat' first
    | with_reducible assumption | with_reducible exact sub_of hw rfl | with_reducible apply keeps_modRun
    | with_reducible apply keeps_failCommand | with_reducible refine keeps_foldl ?_ ?_
    | with_reducible refine keeps_ite ?_ ?_ | intro _ _ _ _ | intro _ _ _ | intro _ _
    | (extract_lets +onlyGivenNames x; refine keeps_cut (w := w) (p := p) (v := x) ?_ ?_; rotate_left; clear_value x; revert x; intros; rotate_right; unfold x; clear x)
    | (extract_lets +onlyGivenNames x; clear_value x; revert x; intros)
    | (extract_lets +onlyGivenNames x; revert x; intros) | split
    | with_reducible refine keeps_of_snd ?_ (by assumption) | with_reducible refine keeps_of_fst ?_ (by assumption)

theorem keeps_endJobs (s : State) (c : CmdRef) (h : Keeps w p s) (hw : Sub 0x4000 w) : Keeps w p (@State.endJobs s c)
    := by
  delta State.endJobs
  repeat' first
    | with_reducible assumption | with_reducible exact sub_of hw rfl | with_reducible apply keeps_modRun
    | intro _ _ _ _ | intro _ _ _ | intro _ _ | split | with_reducible refine keeps_of_snd ?_ (by assumption)
    | with_reducible refine keeps_of_fst ?_ (by assumption)

theorem keeps_completeWrites (s : State) (h : Keeps w p s) (hw : Sub 0x24100 w) : Keeps w p (@State.completeWrites s)
    := by
  delta State.completeWrites
  repeat' first
    | with_reducible assumption | with_reducible exact sub_of hw rfl | with_reducible apply keeps_devWrite
    | with_reducible apply keeps_unpoison | with_reducible refine keeps_foldl ?_ ?_
    | with_reducible refine keeps_ite ?_ ?_ | intro _ _ _ _ | intro _ _ _ | intro _ _
    | (extract_lets +onlyGivenNames x; refine keeps_cut (w := w) (p := p) (v := x) ?_ ?_; rotate_left; clear_value x; revert x; intros; rotate_right; unfold x; clear x)
    | (extract_lets +onlyGivenNames x; clear_value x; revert x; intros)
    | (extract_lets +onlyGivenNames x; revert x; intros) | split
    | with_reducible refine keeps_of_snd ?_ (by assumption) | with_reducible refine keeps_of_fst ?_ (by assumption)
    | with_reducible refine keeps_set_fabric ?_ (sub_of hw rfl)

theorem keeps_countBusy (s : State) (h : Keeps w p s) (hw : Sub 0x80 w) : Keeps w p (@State.countBusy s) := by
  delta State.countBusy
  repeat' first
    | with_reducible assumption | with_reducible apply keeps_count | with_reducible refine keeps_foldl ?_ ?_
    | intro _ _ _

theorem keeps_execFabricBeat (bundles : List Bundle) (engines : List EngineRead) (s : State) (h : Keeps w p s) (hw :
    Sub 0xbfe419c w) : OutKeepsOrFault w p (@execFabricBeat bundles engines s) := by
  delta execFabricBeat
  repeat' first
    | with_reducible assumption | with_reducible exact sub_of hw rfl | with_reducible refine orFault_next ?_
    | with_reducible exact orFault_fault | with_reducible apply keeps_issueAll | with_reducible apply keeps_keepPast
    | with_reducible apply keeps_failCommand | with_reducible apply keeps_bundle | with_reducible apply keeps_readJobs
    | with_reducible apply keeps_countBusy | with_reducible apply keeps_runJobs
    | with_reducible apply keeps_completeWrites | with_reducible apply keeps_arrive
    | with_reducible apply keeps_endJobs | with_reducible apply keeps_reap | with_reducible refine keeps_foldl ?_ ?_
    | with_reducible refine keeps_foldl_fst ?_ ?_ | with_reducible refine orFault_ite ?_ ?_ | intro _ _ _
    | (extract_lets +onlyGivenNames x; clear_value x; revert x; intros)
    | with_reducible refine keeps_set_fabric ?_ (sub_of hw rfl)

theorem keeps_modWatch (s : State) (x1 : Program) (it : Iteration) (k : Nat) (c : Command) (g : Watch → Watch) (h :
    Keeps w p s) (hw : Sub 0x4000 w) : Keeps w p (@State.modWatch s x1 it k c g) := by
  delta State.modWatch
  repeat' first
    | with_reducible assumption | with_reducible apply keeps_setWatch | with_reducible refine keeps_foldl ?_ ?_
    | with_reducible refine keeps_ite ?_ ?_ | intro _ _ _

theorem keeps_watchCommit (s : State) (x1 : Program) (it : Iteration) (k : Nat) (c : Command) (h : Keeps w p s) (hw :
    Sub 0x4000 w) : Keeps w p (@State.watchCommit s x1 it k c) := by
  delta State.watchCommit
  repeat' first
    | with_reducible assumption | with_reducible apply keeps_modWatch | with_reducible apply keeps_nextWatch
    | with_reducible refine keeps_foldl ?_ ?_ | with_reducible refine keeps_ite ?_ ?_ | intro _ _ _

theorem keeps_execWatchDeviation (die : Fin 6) (watch : TracedWatch) (s : State) (h : Keeps w p s) (hw : Sub 0xdfc418c
    w) : OutKeeps w p (@execWatchDeviation die watch s) := by
  delta execWatchDeviation
  repeat' first
    | with_reducible assumption | with_reducible exact sub_of hw rfl | with_reducible refine outKeeps_next ?_
    | with_reducible apply keeps_report | with_reducible apply keeps_nextWatch | with_reducible apply keeps_setWatch
    | with_reducible apply keeps_tileFault | with_reducible apply keeps_stallFault
    | with_reducible refine keeps_ite ?_ ?_ | with_reducible refine outKeeps_ite ?_ ?_ | intro _ _ _ _ | intro _ _ _
    | intro _ _
    | (extract_lets +onlyGivenNames x; refine keeps_cut (w := w) (p := p) (v := x) ?_ ?_; rotate_left; clear_value x; revert x; intros; rotate_right; unfold x; clear x)
    | (extract_lets +onlyGivenNames x; clear_value x; revert x; intros)
    | (extract_lets +onlyGivenNames x; revert x; intros) | split
    | with_reducible refine keeps_of_snd ?_ (by assumption) | with_reducible refine keeps_of_fst ?_ (by assumption)

theorem keeps_seedLanes (s : State) (x1 : Program) (h : Keeps w p s) (hw : Sub 0x4000 w) : Keeps w p (@State.seedLanes
    s x1) := by
  delta State.seedLanes
  repeat' first
    | with_reducible assumption | with_reducible refine keeps_set_fabric ?_ (sub_of hw rfl)

theorem keeps_packageJoined (s : State) (fn : Nat) (r : Running) (h : Keeps w p s) (hw : Sub 0x20c0080 w) : Keeps w p
    (@State.packageJoined s fn r) := by
  delta State.packageJoined
  repeat' first
    | with_reducible assumption | with_reducible exact sub_of hw rfl | with_reducible apply keeps_finish
    | with_reducible refine keeps_foldl ?_ ?_ | with_reducible refine keeps_ite ?_ ?_ | intro _ _ _ _ | intro _ _ _
    | intro _ _ | (extract_lets +onlyGivenNames x; clear_value x; revert x; intros) | split
    | with_reducible refine keeps_set_pair_gauge ?_ (sub_of hw rfl)

theorem keeps_execIterationStart (fn : Fin 32) (slot : Fin 16) (s : State) (h : Keeps w p s) (hw : Sub 0x61c608c w) :
    OutKeeps w p (@execIterationStart fn slot s) := by
  delta execIterationStart
  repeat' first
    | with_reducible assumption | with_reducible exact sub_of hw rfl | with_reducible refine outKeeps_next ?_
    | with_reducible apply keeps_modRunning | with_reducible apply keeps_packageJoined
    | with_reducible apply keeps_seedLanes | with_reducible apply keeps_gaugeBoundary
    | with_reducible apply keeps_modProgram | with_reducible apply keeps_bookAt
    | with_reducible apply keeps_armWatches | with_reducible refine keeps_ite ?_ ?_
    | with_reducible refine outKeeps_ite ?_ ?_ | split

theorem keeps_execCommandStart (c : CmdRef) (s : State) (h : Keeps w p s) (hw : Sub 0x87c408c w) : OutKeeps w p
    (@execCommandStart c s) := by
  delta execCommandStart
  repeat' first
    | with_reducible assumption | with_reducible exact sub_of hw rfl | with_reducible refine outKeeps_next ?_
    | with_reducible apply keeps_modRun | with_reducible apply keeps_modWatch | with_reducible apply keeps_failCommand
    | with_reducible refine outKeeps_ite ?_ ?_
    | (extract_lets +onlyGivenNames x; refine keeps_cut (w := w) (p := p) (v := x) ?_ ?_; rotate_left; clear_value x; revert x; intros; rotate_right; unfold x; clear x)
    | split

theorem keeps_execWideRerunDecision (c : CmdRef) (s : State) (h : Keeps w p s) (hw : Sub 0x4000 w) : OutKeeps w p
    (@execWideRerunDecision c s) := by
  delta execWideRerunDecision
  repeat' first
    | with_reducible assumption | with_reducible refine outKeeps_next ?_ | with_reducible apply keeps_modRun
    | with_reducible refine outKeeps_ite ?_ ?_ | split

theorem keeps_applyOverlay (s : State) (t : Tbl (Option Byte)) (h : Keeps w p s) (hw : Sub 0x100 w) : Keeps w p
    (@State.applyOverlay s t) := by
  exact keeps_memOverlay h (sub_of hw rfl)

theorem keeps_applyMarks (s : State) (l : List MarkOp) (h : Keeps w p s) (hw : Sub 0x20080080 w) : Keeps w p
    (@State.applyMarks s l) := by
  delta State.applyMarks
  repeat' first
    | with_reducible assumption | with_reducible apply keeps_setMarker | with_reducible apply keeps_addMarker
    | with_reducible refine keeps_foldl ?_ ?_ | with_reducible refine keeps_ite ?_ ?_ | intro _ _ _

theorem keeps_commitCounters (s : State) (x1 : Program) (it : Iteration) (c : Command) (r : CmdRun) (h : Keeps w p s)
    (hw : Sub 0x80 w) : Keeps w p (@State.commitCounters s x1 it c r) := by
  delta State.commitCounters
  repeat' first
    | with_reducible assumption | with_reducible apply keeps_count | with_reducible refine keeps_foldl ?_ ?_
    | with_reducible refine keeps_ite ?_ ?_ | intro _ _ _ | split

theorem keeps_commitAttn (s : State) (x1 : Program) (r : CmdRun) (h : Keeps w p s) (hw : Sub 0x50010c w) : Keeps w p
    (@State.commitAttn s x1 r) := by
  delta State.commitAttn
  repeat' first
    | with_reducible assumption | with_reducible exact sub_of hw rfl | with_reducible apply keeps_commitPages
    | with_reducible apply keeps_writeRows | with_reducible apply keeps_commitLength
    | with_reducible refine keeps_ite ?_ ?_ | split

theorem keeps_execCommandCommit (c : CmdRef) (s : State) (h : Keeps w p s) (hw : Sub 0x2258418c w) : OutKeeps w p
    (@execCommandCommit c s) := by
  delta execCommandCommit
  repeat' first
    | with_reducible assumption | with_reducible exact sub_of hw rfl | with_reducible refine outKeeps_next ?_
    | with_reducible apply keeps_applyOverlay | with_reducible apply keeps_commitAttn
    | with_reducible apply keeps_commitCounters | with_reducible apply keeps_modRun
    | with_reducible apply keeps_modRunning | with_reducible apply keeps_watchCommit
    | with_reducible apply keeps_modIteration | with_reducible apply keeps_count | with_reducible apply keeps_reap
    | with_reducible apply keeps_applyMarks | with_reducible refine keeps_ite ?_ ?_
    | with_reducible refine outKeeps_ite ?_ ?_ | split

theorem keeps_execEngineJobStart (c : CmdRef) (job : Nat) (s : State) (h : Keeps w p s) (hw : Sub 0x4000 w) : OutKeeps
    w p (@execEngineJobStart c job s) := by
  delta execEngineJobStart
  repeat' first
    | with_reducible assumption | with_reducible exact sub_of hw rfl | with_reducible refine outKeeps_next ?_
    | with_reducible apply keeps_modRun | with_reducible refine outKeeps_ite ?_ ?_
    | (extract_lets +onlyGivenNames x; clear_value x; revert x; intros) | split

theorem keeps_enterChunks (s : State) (c : CmdRef) (x2 : Program) (x3 : Window) (i : Nat) (l : List Byte) (h : Keeps w
    p s) (hw : Sub 0x4000 w) : Keeps w p (@State.enterChunks s c x2 x3 i l) := by
  delta State.enterChunks
  repeat' first
    | with_reducible assumption | with_reducible apply keeps_modIteration

theorem keeps_windowIn (s : State) (x1 : Program) (it : Iteration) (k : Command) (x4 : Window) (ecc : EccResult) (h :
    Keeps w p s) (hw : Sub 0xbfe418c w) : Keeps w p (@State.windowIn s x1 it k x4 ecc).1 := by
  delta State.windowIn
  repeat' first
    | with_reducible assumption | with_reducible apply keeps_eccRead
    | (extract_lets +onlyGivenNames x; clear_value x; revert x; intros) | split
    | with_reducible refine keeps_of_fst ?_ (by assumption)

theorem keeps_countBytes (s : State) (fn : Nat) (size : Nat) (h : Keeps w p s) (hw : Sub 0x80 w) : Keeps w p
    (@State.countBytes s fn size) := by
  delta State.countBytes
  repeat' first
    | with_reducible assumption | with_reducible apply keeps_count | with_reducible refine keeps_ite ?_ ?_

theorem keeps_sendTo (s : State) (c : CmdRef) (l : List Arrival) (h : Keeps w p s) (hw : Sub 0x4000 w) : Keeps w p
    (@State.sendTo s c l) := by
  delta State.sendTo
  repeat' first
    | with_reducible assumption | with_reducible exact sub_of hw rfl | with_reducible apply keeps_modRun
    | intro _ _ _ _ | intro _ _ _ | intro _ _ | split | with_reducible refine keeps_of_snd ?_ (by assumption)
    | with_reducible refine keeps_of_fst ?_ (by assumption)

theorem keeps_moveIn (s : State) (c : CmdRef) (x2 : Program) (it : Iteration) (k : Command) (x5 : Window) (ecc :
    EccResult) (h : Keeps w p s) (hw : Sub 0xbfe418c w) : Keeps w p (@State.moveIn s c x2 it k x5 ecc) := by
  delta State.moveIn
  repeat' first
    | with_reducible assumption | with_reducible exact sub_of hw rfl | with_reducible apply keeps_windowIn
    | with_reducible apply keeps_failCommand | with_reducible apply keeps_failRuns | with_reducible apply keeps_sendTo
    | with_reducible refine keeps_ite ?_ ?_

theorem keeps_moveRelay (s : State) (c : CmdRef) (r : CmdRun) (x3 : Window) (h : Keeps w p s) (hw : Sub 0x4000 w) :
    Keeps w p (@State.moveRelay s c r x3) := by
  delta State.moveRelay
  repeat' first
    | with_reducible assumption | with_reducible apply keeps_sendTo

theorem keeps_sendOut (s : State) (x1 : Window) (addr : Nat) (l : List Byte) (h : Keeps w p s) (hw : Sub 0x4000 w) :
    Keeps w p (@State.sendOut s x1 addr l) := by
  delta State.sendOut
  repeat' first
    | with_reducible assumption | with_reducible exact sub_of hw rfl | split
    | with_reducible refine keeps_of_snd ?_ (by assumption) | with_reducible refine keeps_of_fst ?_ (by assumption)
    | with_reducible refine keeps_set_fabric ?_ (sub_of hw rfl)

theorem keeps_moveOut (s : State) (c : CmdRef) (x2 : Program) (it : Iteration) (x4 : Window) (i : Nat) (h : Keeps w p
    s) (hw : Sub 0x4100 w) : Keeps w p (@State.moveOut s c x2 it x4 i) := by
  delta State.moveOut
  repeat' first
    | with_reducible assumption | with_reducible exact sub_of hw rfl | with_reducible apply keeps_enterChunks
    | with_reducible apply keeps_sendOut | with_reducible apply keeps_clearReady
    | with_reducible apply keeps_modIteration | with_reducible refine keeps_ite ?_ ?_ | split

theorem keeps_execWindowBookedBeat (c : CmdRef) (window : Nat) (ecc : EccResult) (s : State) (h : Keeps w p s) (hw :
    Sub 0xbfe418c w) : OutKeeps w p (@execWindowBookedBeat c window ecc s) := by
  delta execWindowBookedBeat
  repeat' first
    | with_reducible assumption | with_reducible exact sub_of hw rfl | with_reducible refine outKeeps_next ?_
    | with_reducible apply keeps_countBytes | with_reducible apply keeps_moveOut
    | with_reducible apply keeps_modIteration | with_reducible apply keeps_moveRelay
    | with_reducible apply keeps_moveIn | with_reducible refine outKeeps_ite ?_ ?_
    | (extract_lets +onlyGivenNames x; refine keeps_cut (w := w) (p := p) (v := x) ?_ ?_; rotate_left; clear_value x; revert x; intros; rotate_right; unfold x; clear x)
    | split

theorem keeps_execPurlDataRelease (c : CmdRef) (present : Bool) (s : State) (h : Keeps w p s) (hw : Sub 0x87c408c w) :
    OutKeeps w p (@execPurlDataRelease c present s) := by
  delta execPurlDataRelease
  repeat' first
    | with_reducible assumption | with_reducible refine outKeeps_next ?_ | with_reducible apply keeps_failCommand
    | with_reducible refine outKeeps_ite ?_ ?_ | split

theorem keeps_releaseHalves (s : State) (fn : Nat) (slot : Nat) (iter : Nat) (h : Keeps w p s) (hw : Sub 0x4100 w) :
    Keeps w p (@State.releaseHalves s fn slot iter) := by
  delta State.releaseHalves
  repeat' first
    | with_reducible assumption | with_reducible apply keeps_putHalf | with_reducible refine keeps_foldl ?_ ?_
    | with_reducible refine keeps_ite ?_ ?_ | intro _ _ _ | split

theorem keeps_execOutboundWriteComplete (c : CmdRef) (window : Nat) (s : State) (h : Keeps w p s) (hw : Sub 0x4180 w)
    : OutKeeps w p (@execOutboundWriteComplete c window s) := by
  delta execOutboundWriteComplete
  repeat' first
    | with_reducible assumption | with_reducible exact sub_of hw rfl | with_reducible refine outKeeps_next ?_
    | with_reducible apply keeps_modIteration | with_reducible apply keeps_tally | with_reducible apply keeps_fillHalf
    | with_reducible apply keeps_releaseHalves | with_reducible refine keeps_ite ?_ ?_
    | with_reducible refine outKeeps_ite ?_ ?_
    | (extract_lets +onlyGivenNames x; refine keeps_cut (w := w) (p := p) (v := x) ?_ ?_; rotate_left; clear_value x; revert x; intros; rotate_right; unfold x; clear x)
    | (extract_lets +onlyGivenNames x; clear_value x; revert x; intros) | split

theorem keeps_sample (s : State) (id : Nat) (h : Keeps w p s) (hw : Sub 0xc100 w) : Keeps w p (@State.sample s id).2.2
    := by
  delta State.sample
  repeat' first
    | with_reducible assumption | with_reducible exact sub_of hw rfl | with_reducible apply keeps_streamRead
    | with_reducible apply keeps_clearReady | with_reducible apply keeps_setBuffer
    | (extract_lets +onlyGivenNames x; clear_value x; revert x; intros) | split
    | with_reducible refine keeps_of_222 ?_ (by assumption)

theorem keeps_handoverFail (s : State) (x1 : Program) (it : Iteration) (k : Command) (h : Keeps w p s) (hw : Sub
    0x87c408c w) : Keeps w p (@State.handoverFail s x1 it k) := by
  delta State.handoverFail
  repeat' first
    | with_reducible assumption | with_reducible exact sub_of hw rfl | with_reducible apply keeps_stallFault
    | with_reducible apply keeps_report | with_reducible apply keeps_failRuns

theorem keeps_execHandoverBookedRead (c : CmdRef) (buffer : Fin 1024) (s : State) (h : Keeps w p s) (hw : Sub
    0x87cc18c w) : OutKeeps w p (@execHandoverBookedRead c buffer s) := by
  delta execHandoverBookedRead
  repeat' first
    | with_reducible assumption | with_reducible exact sub_of hw rfl | with_reducible refine outKeeps_next ?_
    | with_reducible apply keeps_sample | with_reducible apply keeps_modIteration
    | with_reducible apply keeps_handoverFail | with_reducible apply keeps_tally
    | with_reducible refine outKeeps_ite ?_ ?_ | (extract_lets +onlyGivenNames x; subst x) | split
    | with_reducible refine keeps_of_22 ?_ (by assumption)

theorem keeps_execCommandKillBeat (fn : Fin 32) (slot : Fin 16) (s : State) (h : Keeps w p s) (hw : Sub 0x5c408c w) :
    OutKeeps w p (@execCommandKillBeat fn slot s) := by
  delta execCommandKillBeat
  repeat' first
    | with_reducible assumption | with_reducible exact sub_of hw rfl | with_reducible refine outKeeps_next ?_
    | with_reducible apply keeps_killProgram | with_reducible refine outKeeps_ite ?_ ?_ | split

theorem keeps_decideStep (s : State) (n : Nat) (h : Keeps w p s) (hw : Sub 0x4000 w) : Keeps w p (@State.decideStep s
    n) := by
  delta State.decideStep
  repeat' first
    | with_reducible assumption | with_reducible refine keeps_set_fabric ?_ (sub_of hw rfl)

theorem keeps_execBeatStepChange (s : State) (h : Keeps w p s) (hw : Sub 0x4014408c w) : OutKeeps w p
    (@execBeatStepChange s) := by
  delta execBeatStepChange
  repeat' first
    | with_reducible assumption | with_reducible exact sub_of hw rfl | with_reducible refine outKeeps_next ?_
    | with_reducible apply keeps_checkSteps | with_reducible apply keeps_report | with_reducible apply keeps_tally
    | with_reducible refine outKeeps_ite ?_ ?_ | (extract_lets +onlyGivenNames x; clear_value x; revert x; intros)
    | split | with_reducible refine keeps_set_fabric ?_ (sub_of hw rfl)
    | with_reducible refine keeps_set_power ?_ (sub_of hw rfl)

theorem keeps_execTallyClear (mask : Nat) (s : State) (h : Keeps w p s) (hw : Sub 0x80 w) : OutKeeps w p
    (@execTallyClear mask s) := by
  delta execTallyClear
  repeat' first
    | with_reducible assumption | with_reducible refine outKeeps_next ?_ | with_reducible apply keeps_setFld
    | with_reducible refine keeps_foldl ?_ ?_ | with_reducible refine keeps_ite ?_ ?_ | intro _ _ _

theorem keeps_execClrRerun (die : Fin 6) (s : State) (h : Keeps w p s) (hw : Sub 0x80 w) : OutKeeps w p (@execClrRerun
    die s) := by
  delta execClrRerun
  repeat' first
    | with_reducible assumption | with_reducible refine outKeeps_next ?_ | with_reducible apply keeps_setFld

theorem keeps_execClrNan (die : Fin 6) (s : State) (h : Keeps w p s) (hw : Sub 0x80 w) : OutKeeps w p (@execClrNan die
    s) := by
  delta execClrNan
  repeat' first
    | with_reducible assumption | with_reducible refine outKeeps_next ?_ | with_reducible apply keeps_setFld

theorem keeps_execClrCentreOnly (die : Fin 6) (s : State) (h : Keeps w p s) (hw : Sub 0x80 w) : OutKeeps w p
    (@execClrCentreOnly die s) := by
  delta execClrCentreOnly
  repeat' first
    | with_reducible assumption | with_reducible refine outKeeps_next ?_ | with_reducible apply keeps_setFld

theorem keeps_execClrStemClip (die : Fin 6) (s : State) (h : Keeps w p s) (hw : Sub 0x80 w) : OutKeeps w p
    (@execClrStemClip die s) := by
  delta execClrStemClip
  repeat' first
    | with_reducible assumption | with_reducible refine outKeeps_next ?_ | with_reducible apply keeps_setFld

theorem keeps_takePages (s : State) (c : CmdRef) (it : Iteration) (k : Command) (a : Attn) (q : Pool) (avail : List
    Nat) (h : Keeps w p s) (hw : Sub 0x404000 w) : Keeps w p (@State.takePages s c it k a q avail) := by
  delta State.takePages
  repeat' first
    | with_reducible assumption | with_reducible exact sub_of hw rfl | with_reducible apply keeps_setPool
    | with_reducible apply keeps_modRun | with_reducible refine keeps_ite ?_ ?_ | intro _ _ _ _ | intro _ _ _
    | intro _ _
    | (extract_lets +onlyGivenNames x; refine keeps_cut (w := w) (p := p) (v := x) ?_ ?_; rotate_left; clear_value x; revert x; intros; rotate_right; unfold x; clear x)
    | (extract_lets +onlyGivenNames x; clear_value x; revert x; intros)
    | (extract_lets +onlyGivenNames x; revert x; intros) | split
    | with_reducible refine keeps_of_snd ?_ (by assumption) | with_reducible refine keeps_of_fst ?_ (by assumption)

theorem keeps_starve (s : State) (c : CmdRef) (x2 : Program) (it : Iteration) (k : Command) (a : Attn) (q : Pool)
    (need : Nat) (avail : Nat) (h : Keeps w p s) (hw : Sub 0x50408c w) : Keeps w p (@State.starve s c x2 it k a q need
    avail) := by
  delta State.starve
  repeat' first
    | with_reducible assumption | with_reducible exact sub_of hw rfl | with_reducible apply keeps_count
    | with_reducible apply keeps_unstarve | with_reducible apply keeps_failRuns
    | with_reducible apply keeps_modIteration | with_reducible apply keeps_modRunning
    | with_reducible apply keeps_setPool | with_reducible apply keeps_report | with_reducible apply keeps_noteVictim
    | with_reducible refine keeps_foldl ?_ ?_ | intro _ _ _
    | (extract_lets +onlyGivenNames x; refine keeps_cut (w := w) (p := p) (v := x) ?_ ?_; rotate_left; clear_value x; revert x; intros; rotate_right; unfold x; clear x)
    | (extract_lets +onlyGivenNames x; clear_value x; revert x; intros) | split

theorem keeps_execKvAllocBeat (c : CmdRef) (s : State) (h : Keeps w p s) (hw : Sub 0x50408c w) : OutKeeps w p
    (@execKvAllocBeat c s) := by
  delta execKvAllocBeat
  repeat' first
    | with_reducible assumption | with_reducible exact sub_of hw rfl | with_reducible refine outKeeps_next ?_
    | with_reducible apply keeps_takePages | with_reducible apply keeps_starve
    | with_reducible refine outKeeps_ite ?_ ?_ | split

theorem keeps_setStarved (s : State) (pool : Nat) (old : Starved) (new : List Starved) (h : Keeps w p s) (hw : Sub
    0x400000 w) : Keeps w p (@State.setStarved s pool old new) := by
  delta State.setStarved
  repeat' first
    | with_reducible assumption | with_reducible exact sub_of hw rfl | with_reducible apply keeps_setPool
    | with_reducible refine keeps_ite ?_ ?_ | intro _ _ _ _ | intro _ _ _ | intro _ _ | split
    | with_reducible refine keeps_of_snd ?_ (by assumption) | with_reducible refine keeps_of_fst ?_ (by assumption)

theorem keeps_execVictimDropDone (pool : Fin 256) (s : State) (h : Keeps w p s) (hw : Sub 0x450018c w) : OutKeeps w p
    (@execVictimDropDone pool s) := by
  delta execVictimDropDone
  repeat' first
    | with_reducible assumption | with_reducible exact sub_of hw rfl | with_reducible refine outKeeps_next ?_
    | with_reducible apply keeps_dropVictim | with_reducible apply keeps_bookAt
    | with_reducible apply keeps_setStarved | with_reducible refine keeps_foldl ?_ ?_
    | with_reducible refine outKeeps_ite ?_ ?_ | intro _ _ _
    | (extract_lets +onlyGivenNames x; refine keeps_cut (w := w) (p := p) (v := x) ?_ ?_; rotate_left; clear_value x; revert x; intros; rotate_right; unfold x; clear x)
    | (extract_lets +onlyGivenNames x; clear_value x; revert x; intros) | split

theorem keeps_execPageStarvedReissue (pool : Fin 256) (s : State) (h : Keeps w p s) (hw : Sub 0x450608c w) : OutKeeps
    w p (@execPageStarvedReissue pool s) := by
  delta execPageStarvedReissue
  repeat' first
    | with_reducible assumption | with_reducible exact sub_of hw rfl | with_reducible refine outKeeps_next ?_
    | with_reducible apply keeps_setStarved | with_reducible apply keeps_seedLanes
    | with_reducible apply keeps_gaugeBoundary | with_reducible apply keeps_modProgram
    | with_reducible apply keeps_modRunning | with_reducible apply keeps_bookAt
    | with_reducible apply keeps_armWatches | with_reducible refine keeps_foldl ?_ ?_
    | with_reducible refine keeps_ite ?_ ?_ | with_reducible refine outKeeps_ite ?_ ?_
    | (extract_lets +onlyGivenNames x; refine keeps_cut (w := w) (p := p) (v := x) ?_ ?_; rotate_left; clear_value x; revert x; intros; rotate_right; unfold x; clear x)
    | split

theorem keeps_execClrStarve (die : Fin 6) (s : State) (h : Keeps w p s) (hw : Sub 0x80 w) : OutKeeps w p
    (@execClrStarve die s) := by
  delta execClrStarve
  repeat' first
    | with_reducible assumption | with_reducible refine outKeeps_next ?_ | with_reducible apply keeps_setFld

theorem keeps_execClrDropped (die : Fin 6) (s : State) (h : Keeps w p s) (hw : Sub 0x80 w) : OutKeeps w p
    (@execClrDropped die s) := by
  delta execClrDropped
  repeat' first
    | with_reducible assumption | with_reducible refine outKeeps_next ?_ | with_reducible apply keeps_setFld

theorem keeps_startProgram (s : State) (x1 : Program) (x : Desc) (t : Ticket) (h : Keeps w p s) (hw : Sub 0x414608c w)
    : Keeps w p (@State.startProgram s x1 x t) := by
  delta State.startProgram
  repeat' first
    | with_reducible assumption | with_reducible exact sub_of hw rfl | with_reducible apply keeps_modProgram
    | with_reducible apply keeps_arriveOwn | with_reducible apply keeps_bookAt | with_reducible apply keeps_report
    | with_reducible apply keeps_recheckPairs | with_reducible refine keeps_ite ?_ ?_

theorem keeps_execExecStart (d : DescRef) (s : State) (h : Keeps w p s) (hw : Sub 0x41c608c w) : OutKeeps w p
    (@execExecStart d s) := by
  delta execExecStart
  repeat' first
    | with_reducible assumption | with_reducible exact sub_of hw rfl | with_reducible refine outKeeps_next ?_
    | with_reducible apply keeps_begin | with_reducible apply keeps_finish | with_reducible apply keeps_startProgram
    | intro _ _ _ _ | split

theorem keeps_execExecKill (d : DescRef) (killBeat : Nat) (s : State) (h : Keeps w p s) (hw : Sub 0x84080 w) :
    OutKeeps w p (@execExecKill d killBeat s) := by
  delta execExecKill
  repeat' first
    | with_reducible assumption | with_reducible exact sub_of hw rfl | with_reducible refine outKeeps_next ?_
    | with_reducible apply keeps_begin | with_reducible apply keeps_finish | with_reducible apply keeps_modRunning
    | intro _ _ _ _ | (extract_lets +onlyGivenNames x; clear_value x; revert x; intros) | split

theorem keeps_completeStart (s : State) (x1 : Program) (r : Running) (h : Keeps w p s) (hw : Sub 0x58608c w) : Keeps w
    p (@State.completeStart s x1 r) := by
  delta State.completeStart
  repeat' first
    | with_reducible assumption | with_reducible exact sub_of hw rfl | with_reducible apply keeps_recheckPairs
    | with_reducible apply keeps_unstarve | with_reducible apply keeps_endStart | split

theorem keeps_settleStart (s : State) (fn : Nat) (slot : Nat) (h : Keeps w p s) (hw : Sub 0x58608c w) : Keeps w p
    (@State.settleStart s fn slot) := by
  delta State.settleStart
  repeat' first
    | with_reducible assumption | with_reducible apply keeps_completeStart | with_reducible refine keeps_ite ?_ ?_
    | split

theorem keeps_errorOver (s : State) (h : Keeps w p s) (hw : Sub 0x10200c w) : Keeps w p (@State.errorOver s) := by
  delta State.errorOver
  repeat' first
    | with_reducible assumption | with_reducible apply keeps_withdraw | with_reducible refine keeps_ite ?_ ?_

theorem keeps_endGood (s : State) (x1 : Program) (r : Running) (it : Iteration) (h : Keeps w p s) (hw : Sub 0x2018608c
    w) : Keeps w p (@State.endGood s x1 r it) := by
  delta State.endGood
  repeat' first
    | with_reducible assumption | with_reducible exact sub_of hw rfl | with_reducible apply keeps_modProgram
    | with_reducible apply keeps_modRunning | with_reducible apply keeps_count | with_reducible apply keeps_errorOver
    | with_reducible apply keeps_gaugeFrame | with_reducible apply keeps_addMarker
    | with_reducible refine keeps_ite ?_ ?_
    | (extract_lets +onlyGivenNames x; refine keeps_cut (w := w) (p := p) (v := x) ?_ ?_; rotate_left; clear_value x; revert x; intros; rotate_right; unfold x; clear x)
    | split

theorem keeps_endFailed (s : State) (x1 : Program) (f : Nat × Nat × Nat) (h : Keeps w p s) (hw : Sub 0x4000 w) : Keeps
    w p (@State.endFailed s x1 f) := by
  delta State.endFailed
  repeat' first
    | with_reducible assumption | with_reducible apply keeps_modProgram | with_reducible apply keeps_modRunning

theorem keeps_execIterationEnd (fn : Fin 32) (slot : Fin 16) (s : State) (h : Keeps w p s) (hw : Sub 0x2058608c w) :
    OutKeeps w p (@execIterationEnd fn slot s) := by
  delta execIterationEnd
  repeat' first
    | with_reducible assumption | with_reducible exact sub_of hw rfl | with_reducible refine outKeeps_next ?_
    | with_reducible apply keeps_modRunning | with_reducible apply keeps_endGood
    | with_reducible apply keeps_endFailed | with_reducible apply keeps_settleStart
    | with_reducible refine outKeeps_ite ?_ ?_ | split

theorem keeps_execAgreementDigest (c : CmdRef) (entry : Nat) (s : State) (h : Keeps w p s) (hw : Sub 0x4000 w) :
    OutKeeps w p (@execAgreementDigest c entry s) := by
  delta execAgreementDigest
  repeat' first
    | with_reducible assumption | with_reducible refine outKeeps_next ?_ | with_reducible apply keeps_modRun
    | with_reducible refine outKeeps_ite ?_ ?_ | split

theorem keeps_inputDisagree (s : State) (x1 : Program) (it : Iteration) (k : Command) (a : Agree) (h : Keeps w p s)
    (hw : Sub 0x618418c w) : Keeps w p (@State.inputDisagree s x1 it k a) := by
  delta State.inputDisagree
  repeat' first
    | with_reducible assumption | with_reducible exact sub_of hw rfl | with_reducible apply keeps_failRuns
    | with_reducible apply keeps_report | with_reducible apply keeps_mismatch

theorem keeps_execAgreementVerdict (c : CmdRef) (entry : Nat) (delivered : Bool) (equal : Bool) (s : State) (h : Keeps
    w p s) (hw : Sub 0x618418c w) : OutKeeps w p (@execAgreementVerdict c entry delivered equal s) := by
  delta execAgreementVerdict
  repeat' first
    | with_reducible assumption | with_reducible exact sub_of hw rfl | with_reducible refine outKeeps_next ?_
    | with_reducible apply keeps_report | with_reducible apply keeps_failRuns | with_reducible apply keeps_modRun
    | with_reducible apply keeps_inputDisagree | with_reducible refine outKeeps_ite ?_ ?_
    | (extract_lets +onlyGivenNames x; clear_value x; revert x; intros) | split

theorem keeps_dropCovering (s : State) (c : CmdRef) (sel : Covering → Bool) (h : Keeps w p s) (hw : Sub 0x4000 w) :
    Keeps w p (@State.dropCovering s c sel) := by
  delta State.dropCovering
  repeat' first
    | with_reducible assumption | with_reducible apply keeps_modIteration

theorem keeps_gaugeDiffers (s : State) (x1 : Program) (it : Iteration) (k : Command) (live : Bool) (kind : Nat) (tiles
    : List (Nat × Nat)) (h : Keeps w p s) (hw : Sub 0x618418c w) : Keeps w p (@State.gaugeDiffers s x1 it k live kind
    tiles) := by
  delta State.gaugeDiffers
  repeat' first
    | with_reducible assumption | with_reducible exact sub_of hw rfl | with_reducible apply keeps_releaseHalves
    | with_reducible apply keeps_report | with_reducible apply keeps_modIteration
    | with_reducible apply keeps_modRunning | with_reducible apply keeps_mismatch
    | with_reducible refine keeps_ite ?_ ?_

theorem keeps_execGaugeChunkVerdict (g : GaugeCmp) (window : Nat) (chunk : Nat) (s : State) (h : Keeps w p s) (hw :
    Sub 0x618418c w) : OutKeeps w p (@execGaugeChunkVerdict g window chunk s) := by
  delta execGaugeChunkVerdict
  repeat' first
    | with_reducible assumption | with_reducible exact sub_of hw rfl | with_reducible refine outKeeps_next ?_
    | with_reducible apply keeps_dropCovering | with_reducible apply keeps_releaseHalves
    | with_reducible apply keeps_gaugeDiffers | with_reducible refine outKeeps_ite ?_ ?_
    | (extract_lets +onlyGivenNames x; refine keeps_cut (w := w) (p := p) (v := x) ?_ ?_; rotate_left; clear_value x; revert x; intros; rotate_right; unfold x; clear x)
    | (extract_lets +onlyGivenNames x; clear_value x; revert x; intros) | split

theorem keeps_execGaugeSignatureVerdict (g : GaugeCmp) (s : State) (h : Keeps w p s) (hw : Sub 0x618418c w) : OutKeeps
    w p (@execGaugeSignatureVerdict g s) := by
  delta execGaugeSignatureVerdict
  repeat' first
    | with_reducible assumption | with_reducible exact sub_of hw rfl | with_reducible refine outKeeps_next ?_
    | with_reducible apply keeps_dropCovering | with_reducible apply keeps_gaugeDiffers
    | with_reducible apply keeps_releaseHalves | with_reducible refine outKeeps_ite ?_ ?_
    | (extract_lets +onlyGivenNames x; refine keeps_cut (w := w) (p := p) (v := x) ?_ ?_; rotate_left; clear_value x; revert x; intros; rotate_right; unfold x; clear x)
    | split

theorem keeps_execGaugeMissingTimeout (c : CmdRef) (s : State) (h : Keeps w p s) (hw : Sub 0x618418c w) : OutKeeps w p
    (@execGaugeMissingTimeout c s) := by
  delta execGaugeMissingTimeout
  repeat' first
    | with_reducible assumption | with_reducible exact sub_of hw rfl | with_reducible refine outKeeps_next ?_
    | with_reducible apply keeps_gaugeDiffers | with_reducible apply keeps_dropCovering
    | with_reducible refine outKeeps_ite ?_ ?_ | split

theorem keeps_execGaugeSwatchTimeout (s : State) (h : Keeps w p s) (hw : Sub 0x10008c w) : OutKeeps w p
    (@execGaugeSwatchTimeout s) := by
  delta execGaugeSwatchTimeout
  repeat' first
    | with_reducible assumption | with_reducible exact sub_of hw rfl | with_reducible refine outKeeps_next ?_
    | with_reducible apply keeps_requestRestart | with_reducible apply keeps_report
    | with_reducible apply keeps_setGauge | with_reducible refine outKeeps_ite ?_ ?_

theorem keeps_execClrCnt (s : State) (h : Keeps w p s) (hw : Sub 0x80 w) : OutKeeps w p (@execClrCnt s) := by
  delta execClrCnt
  repeat' first
    | with_reducible assumption | with_reducible refine outKeeps_next ?_ | with_reducible apply keeps_setFld

theorem keeps_setGoals (s : State) (slots : List Nat) (g : Nat → Nat) (h : Keeps w p s) (hw : Sub 0x2000000 w) : Keeps
    w p (@State.setGoals s slots g) := by
  delta State.setGoals
  repeat' first
    | with_reducible assumption | (extract_lets +onlyGivenNames x; clear_value x; revert x; intros)
    | with_reducible refine keeps_set_gauge ?_ (sub_of hw rfl)

theorem keeps_setSplits (s : State) (slot : Nat) (m : Nat) (h : Keeps w p s) (hw : Sub 0x2004080 w) : Keeps w p
    (@State.setSplits s slot m) := by
  delta State.setSplits
  repeat' first
    | with_reducible assumption | with_reducible exact sub_of hw rfl | with_reducible apply keeps_modProgram
    | with_reducible apply keeps_showJoined | with_reducible refine keeps_set_gauge ?_ (sub_of hw rfl)

theorem keeps_applyPair (s : State) (slot : Nat) (c : PairChange) (h : Keeps w p s) (hw : Sub 0x210618c w) : Keeps w p
    (@State.applyPair s slot c) := by
  delta State.applyPair
  repeat' first
    | with_reducible assumption | with_reducible exact sub_of hw rfl | with_reducible apply keeps_setSplits
    | with_reducible apply keeps_report | with_reducible apply keeps_recheckPairs | with_reducible apply keeps_preload
    | with_reducible apply keeps_modProgram | with_reducible refine keeps_ite ?_ ?_
    | (extract_lets +onlyGivenNames x; refine keeps_cut (w := w) (p := p) (v := x) ?_ ?_; rotate_left; clear_value x; revert x; intros; rotate_right; unfold x; clear x)
    | split

theorem keeps_beginPair (s : State) (t : Ticket) (split : Bool) (mask : Nat) (slots : List Nat) (x5 : Nat) (h : Keeps
    w p s) (hw : Sub 0x218618c w) : Keeps w p (@State.beginPair s t split mask slots x5) := by
  delta State.beginPair
  repeat' first
    | with_reducible assumption | with_reducible exact sub_of hw rfl | with_reducible apply keeps_modProgram
    | with_reducible apply keeps_applyPair | with_reducible apply keeps_pairDone
    | with_reducible refine keeps_foldl ?_ ?_ | with_reducible refine keeps_ite ?_ ?_ | intro _ _ _ | split

theorem keeps_packageChange (s : State) (t : Ticket) (split : Bool) (h : Keeps w p s) (hw : Sub 0x20c0080 w) : Keeps w
    p (@State.packageChange s t split) := by
  delta State.packageChange
  repeat' first
    | with_reducible assumption | with_reducible exact sub_of hw rfl | with_reducible apply keeps_finish
    | with_reducible apply keeps_setPair | with_reducible refine keeps_foldl ?_ ?_
    | with_reducible refine keeps_ite ?_ ?_ | intro _ _ _ _ | intro _ _ _ | intro _ _
    | (extract_lets +onlyGivenNames x; refine keeps_cut (w := w) (p := p) (v := x) ?_ ?_; rotate_left; clear_value x; revert x; intros; rotate_right; unfold x; clear x)
    | (extract_lets +onlyGivenNames x; clear_value x; revert x; intros)
    | (extract_lets +onlyGivenNames x; revert x; intros) | with_reducible refine keeps_set_gauge ?_ (sub_of hw rfl)

theorem keeps_execSplit (d : DescRef) (s : State) (h : Keeps w p s) (hw : Sub 0x21c618c w) : OutKeeps w p (@execSplit
    d s) := by
  delta execSplit
  repeat' first
    | with_reducible assumption | with_reducible exact sub_of hw rfl | with_reducible refine outKeeps_next ?_
    | with_reducible apply keeps_begin | with_reducible apply keeps_packageChange | with_reducible apply keeps_finish
    | with_reducible apply keeps_beginPair | with_reducible apply keeps_setGoals
    | with_reducible refine keeps_ite ?_ ?_ | intro _ _ _ _

theorem keeps_execJoin (d : DescRef) (s : State) (h : Keeps w p s) (hw : Sub 0x21c618c w) : OutKeeps w p (@execJoin d
    s) := by
  delta execJoin
  repeat' first
    | with_reducible assumption | with_reducible exact sub_of hw rfl | with_reducible refine outKeeps_next ?_
    | with_reducible apply keeps_begin | with_reducible apply keeps_packageChange | with_reducible apply keeps_finish
    | with_reducible apply keeps_setGoals | with_reducible apply keeps_beginPair
    | with_reducible refine keeps_ite ?_ ?_ | intro _ _ _ _
    | (extract_lets +onlyGivenNames x; clear_value x; revert x; intros)
    | with_reducible refine keeps_set_gauge ?_ (sub_of hw rfl)

theorem keeps_resyncPool (s : State) (q : Pool) (h : Keeps w p s) (hw : Sub 0x100 w) : Keeps w p (@State.resyncPool s
    q) := by
  delta State.resyncPool
  repeat' first
    | with_reducible assumption | with_reducible refine keeps_memCopy ?_ (sub_of hw rfl)

theorem keeps_execJoinResyncDone (d : DescRef) (s : State) (h : Keeps w p s) (hw : Sub 0x218618c w) : OutKeeps w p
    (@execJoinResyncDone d s) := by
  delta execJoinResyncDone
  repeat' first
    | with_reducible assumption | with_reducible exact sub_of hw rfl | with_reducible refine outKeeps_next ?_
    | with_reducible apply keeps_resyncPool | with_reducible apply keeps_beginPair
    | with_reducible refine keeps_foldl ?_ ?_ | intro _ _ _
    | (extract_lets +onlyGivenNames x; clear_value x; revert x; intros) | split
    | with_reducible refine keeps_set_gauge ?_ (sub_of hw rfl)

theorem keeps_execPairChangeBoundary (fn : Fin 32) (slot : Fin 16) (s : State) (h : Keeps w p s) (hw : Sub 0x218618c
    w) : OutKeeps w p (@execPairChangeBoundary fn slot s) := by
  delta execPairChangeBoundary
  repeat' first
    | with_reducible assumption | with_reducible exact sub_of hw rfl | with_reducible refine outKeeps_next ?_
    | with_reducible apply keeps_modProgram | with_reducible apply keeps_pairDone
    | with_reducible apply keeps_applyPair | with_reducible refine outKeeps_ite ?_ ?_ | split

theorem keeps_execJoinWarmupEnd (fn : Fin 32) (slot : Fin 16) (s : State) (h : Keeps w p s) (hw : Sub 0x18608c w) :
    OutKeeps w p (@execJoinWarmupEnd fn slot s) := by
  delta execJoinWarmupEnd
  repeat' first
    | with_reducible assumption | with_reducible exact sub_of hw rfl | with_reducible refine outKeeps_next ?_
    | with_reducible apply keeps_recheckPairs | with_reducible apply keeps_modProgram
    | with_reducible apply keeps_pairDone
    | (extract_lets +onlyGivenNames x; refine keeps_cut (w := w) (p := p) (v := x) ?_ ?_; rotate_left; clear_value x; revert x; intros; rotate_right; unfold x; clear x)
    | (extract_lets +onlyGivenNames x; clear_value x; revert x; intros) | split

theorem keeps_openStall (s : State) (k : Nat) (h : Keeps w p s) (hw : Sub 0x30008c w) : Keeps w p (@State.openStall s
    k) := by
  delta State.openStall
  repeat' first
    | with_reducible assumption | with_reducible exact sub_of hw rfl | with_reducible apply keeps_stallCode
    | with_reducible apply keeps_refuse | with_reducible apply keeps_free | with_reducible apply keeps_modStall
    | with_reducible apply keeps_setFld
    | (extract_lets +onlyGivenNames x; refine keeps_cut (w := w) (p := p) (v := x) ?_ ?_; rotate_left; clear_value x; revert x; intros; rotate_right; unfold x; clear x)
    | (extract_lets +onlyGivenNames x; refine keeps_cut (w := w) (p := p) (v := x.1) ?_ ?_; rotate_left; clear_value x; revert x; intros; rotate_right; unfold x; clear x)
    | (extract_lets +onlyGivenNames x; refine keeps_cut (w := w) (p := p) (v := x.2) ?_ ?_; rotate_left; clear_value x; revert x; intros; rotate_right; unfold x; clear x)
    | (extract_lets +onlyGivenNames x; clear_value x; revert x; intros)
    | (extract_lets +onlyGivenNames x; revert x; intros) | split
    | with_reducible refine keeps_of_22 ?_ (by assumption) | with_reducible refine keeps_of_222 ?_ (by assumption)
    | with_reducible refine keeps_of_11 ?_ (by assumption)

theorem keeps_execStallOpen (stall : Fin 32) (s : State) (h : Keeps w p s) (hw : Sub 0x30008c w) : OutKeeps w p
    (@execStallOpen stall s) := by
  delta execStallOpen
  repeat' first
    | with_reducible assumption | with_reducible refine outKeeps_next ?_ | with_reducible apply keeps_openStall
    | with_reducible refine outKeeps_ite ?_ ?_

theorem keeps_zeroHbm (s : State) (a : Nat) (n : Nat) (h : Keeps w p s) (hw : Sub 0x20100 w) : Keeps w p
    (@State.zeroHbm s a n) := by
  delta State.zeroHbm
  repeat' first
    | with_reducible assumption | with_reducible exact sub_of hw rfl | with_reducible apply keeps_unpoison
    | with_reducible refine keeps_memZero ?_ (sub_of hw rfl)

theorem keeps_execStallOpenDone (stall : Fin 32) (s : State) (h : Keeps w p s) (hw : Sub 0x832018c w) : OutKeeps w p
    (@execStallOpenDone stall s) := by
  delta execStallOpenDone
  repeat' first
    | with_reducible assumption | with_reducible exact sub_of hw rfl | with_reducible refine outKeeps_next ?_
    | with_reducible apply keeps_zeroHbm | with_reducible apply keeps_modStall | with_reducible apply keeps_logStall
    | with_reducible apply keeps_setFld | with_reducible apply keeps_stallCode | with_reducible apply keeps_report
    | with_reducible apply keeps_setStall | with_reducible refine keeps_foldl ?_ ?_
    | with_reducible refine outKeeps_ite ?_ ?_ | intro _ _ _

theorem keeps_drainStall (s : State) (k : Nat) (h : Keeps w p s) (hw : Sub 0x78608c w) : Keeps w p (@State.drainStall
    s k) := by
  delta State.drainStall
  repeat' first
    | with_reducible assumption | with_reducible exact sub_of hw rfl | with_reducible apply keeps_settleStart
    | with_reducible apply keeps_modRunning | with_reducible apply keeps_modStall
    | with_reducible refine keeps_foldl ?_ ?_ | intro _ _ _

theorem keeps_closeStall (s : State) (k : Nat) (h : Keeps w p s) (hw : Sub 0x78608c w) : Keeps w p (@State.closeStall
    s k) := by
  delta State.closeStall
  repeat' first
    | with_reducible assumption | with_reducible exact sub_of hw rfl | with_reducible apply keeps_setStall
    | with_reducible apply keeps_setFld | with_reducible apply keeps_holdArea | with_reducible apply keeps_drainStall
    | with_reducible apply keeps_modStall
    | (extract_lets +onlyGivenNames x; refine keeps_cut (w := w) (p := p) (v := x) ?_ ?_; rotate_left; clear_value x; revert x; intros; rotate_right; unfold x; clear x)
    | (extract_lets +onlyGivenNames x; clear_value x; revert x; intros) | split

theorem keeps_execStallClose (stall : Fin 32) (s : State) (h : Keeps w p s) (hw : Sub 0x78608c w) : OutKeeps w p
    (@execStallClose stall s) := by
  delta execStallClose
  repeat' first
    | with_reducible assumption | with_reducible refine outKeeps_next ?_ | with_reducible apply keeps_closeStall

theorem keeps_execStallDrained (stall : Fin 32) (s : State) (h : Keeps w p s) (hw : Sub 0x200000 w) : OutKeeps w p
    (@execStallDrained stall s) := by
  delta execStallDrained
  repeat' first
    | with_reducible assumption | with_reducible refine outKeeps_next ?_ | with_reducible apply keeps_setStall
    | with_reducible refine outKeeps_ite ?_ ?_

theorem keeps_abortCkpt (s : State) (k : Nat) (h : Keeps w p s) (hw : Sub 0x280080 w) : Keeps w p (@State.abortCkpt s
    k) := by
  delta State.abortCkpt
  repeat' first
    | with_reducible assumption | with_reducible exact sub_of hw rfl | with_reducible apply keeps_stallCode
    | with_reducible apply keeps_finish | with_reducible apply keeps_modStall | split

theorem keeps_execStallDrainGraceTimeout (stall : Fin 32) (s : State) (h : Keeps w p s) (hw : Sub 0x7c408c w) :
    OutKeeps w p (@execStallDrainGraceTimeout stall s) := by
  delta execStallDrainGraceTimeout
  repeat' first
    | with_reducible assumption | with_reducible exact sub_of hw rfl | with_reducible refine outKeeps_next ?_
    | with_reducible apply keeps_setStall | with_reducible apply keeps_killFunction
    | with_reducible refine outKeeps_ite ?_ ?_

theorem keeps_unloadFunction (s : State) (fn : Nat) (h : Keeps w p s) (hw : Sub 0x21a418c w) : Keeps w p
    (@State.unloadFunction s fn) := by
  delta State.unloadFunction
  repeat' first
    | with_reducible assumption | with_reducible exact sub_of hw rfl | with_reducible apply keeps_unload
    | with_reducible apply keeps_clearShed | with_reducible refine keeps_foldl ?_ ?_ | intro _ _ _ | split

theorem keeps_clearMarkers (s : State) (fn : Nat) (h : Keeps w p s) (hw : Sub 0x20080080 w) : Keeps w p
    (@State.clearMarkers s fn) := by
  delta State.clearMarkers
  repeat' first
    | with_reducible assumption | with_reducible apply keeps_setMarker | with_reducible refine keeps_foldl ?_ ?_
    | with_reducible refine keeps_ite ?_ ?_ | intro _ _ _

theorem keeps_zeroTile (s : State) (d : Nat) (t : Nat) (h : Keeps w p s) (hw : Sub 0x100 w) : Keeps w p
    (@State.zeroTile s d t) := by
  delta State.zeroTile
  repeat' first
    | with_reducible assumption | with_reducible refine keeps_memZero ?_ (sub_of hw rfl)

theorem keeps_zeroQuarters (s : State) (k : Nat) (h : Keeps w p s) (hw : Sub 0x100 w) : Keeps w p (@State.zeroQuarters
    s k) := by
  delta State.zeroQuarters
  repeat' first
    | with_reducible assumption | with_reducible apply keeps_zeroTile | with_reducible refine keeps_foldl ?_ ?_
    | with_reducible refine keeps_ite ?_ ?_ | intro _ _ _

theorem keeps_clearStall (s : State) (k : Nat) (h : Keeps w p s) (hw : Sub 0x227e418c w) : Keeps w p
    (@State.clearStall s k) := by
  delta State.clearStall
  repeat' first
    | with_reducible assumption | with_reducible exact sub_of hw rfl | with_reducible apply keeps_killFunction
    | with_reducible apply keeps_stopRings | with_reducible apply keeps_abortCkpt
    | with_reducible apply keeps_clearMarkers | with_reducible apply keeps_unloadFunction
    | with_reducible apply keeps_modStall | with_reducible refine keeps_set_pools ?_ (sub_of hw rfl)

theorem keeps_scrubStall (s : State) (k : Nat) (h : Keeps w p s) (hw : Sub 0x20100 w) : Keeps w p (@State.scrubStall s
    k) := by
  delta State.scrubStall
  repeat' first
    | with_reducible assumption | with_reducible exact sub_of hw rfl | with_reducible apply keeps_zeroQuarters
    | with_reducible apply keeps_zeroHbm

theorem keeps_shutStall (s : State) (k : Nat) (h : Keeps w p s) (hw : Sub 0x830008c w) : Keeps w p (@State.shutStall s
    k) := by
  delta State.shutStall
  repeat' first
    | with_reducible assumption | with_reducible exact sub_of hw rfl | with_reducible apply keeps_logStall
    | with_reducible apply keeps_stallCode | with_reducible apply keeps_report | with_reducible apply keeps_modStall
    | with_reducible apply keeps_setFld | with_reducible refine keeps_ite ?_ ?_

theorem keeps_execStallCloseDone (stall : Fin 32) (s : State) (h : Keeps w p s) (hw : Sub 0x2a7e618c w) : OutKeeps w p
    (@execStallCloseDone stall s) := by
  delta execStallCloseDone
  repeat' first
    | with_reducible assumption | with_reducible exact sub_of hw rfl | with_reducible refine outKeeps_next ?_
    | with_reducible apply keeps_restore | with_reducible apply keeps_shutStall
    | with_reducible apply keeps_scrubStall | with_reducible apply keeps_clearStall
    | with_reducible refine outKeeps_ite ?_ ?_

theorem keeps_execCheckpoint (d : DescRef) (s : State) (h : Keeps w p s) (hw : Sub 0x78608c w) : OutKeeps w p
    (@execCheckpoint d s) := by
  delta execCheckpoint
  repeat' first
    | with_reducible assumption | with_reducible exact sub_of hw rfl | with_reducible refine outKeeps_next ?_
    | with_reducible apply keeps_begin | with_reducible apply keeps_stallCode | with_reducible apply keeps_finish
    | with_reducible apply keeps_modStall | with_reducible apply keeps_drainStall
    | with_reducible refine keeps_ite ?_ ?_ | intro _ _ _ _

theorem keeps_reachBoundary (s : State) (k : Nat) (c : Ckpt) (h : Keeps w p s) (hw : Sub 0x200004 w) : Keeps w p
    (@State.reachBoundary s k c) := by
  delta State.reachBoundary
  repeat' first
    | with_reducible assumption | with_reducible exact sub_of hw rfl | with_reducible apply keeps_stamp
    | with_reducible apply keeps_modStall | with_reducible refine keeps_ite ?_ ?_ | intro _ _ _ _ | intro _ _ _
    | intro _ _
    | (extract_lets +onlyGivenNames x; refine keeps_cut (w := w) (p := p) (v := x) ?_ ?_; rotate_left; clear_value x; revert x; intros; rotate_right; unfold x; clear x)
    | (extract_lets +onlyGivenNames x; refine keeps_cut (w := w) (p := p) (v := x.1) ?_ ?_; rotate_left; clear_value x; revert x; intros; rotate_right; unfold x; clear x)
    | (extract_lets +onlyGivenNames x; refine keeps_cut (w := w) (p := p) (v := x.2) ?_ ?_; rotate_left; clear_value x; revert x; intros; rotate_right; unfold x; clear x)
    | (extract_lets +onlyGivenNames x; clear_value x; revert x; intros)
    | (extract_lets +onlyGivenNames x; revert x; intros) | split
    | with_reducible refine keeps_of_snd ?_ (by assumption) | with_reducible refine keeps_of_fst ?_ (by assumption)
    | with_reducible refine keeps_of_22 ?_ (by assumption) | with_reducible refine keeps_of_222 ?_ (by assumption)
    | with_reducible refine keeps_of_11 ?_ (by assumption)

theorem keeps_writeCkpt (s : State) (k : Nat) (addr : Nat) (drain : Bool) (h : Keeps w p s) (hw : Sub 0x8200204 w) :
    Keeps w p (@State.writeCkpt s k addr drain) := by
  delta State.writeCkpt
  repeat' first
    | with_reducible assumption | with_reducible exact sub_of hw rfl | with_reducible apply keeps_modStall
    | with_reducible apply keeps_hostWrite | with_reducible apply keeps_logStall

theorem keeps_ckptTokens (s : State) (k : Nat) (h : Keeps w p s) (hw : Sub 0x20000 w) : ∀ t, @State.ckptTokens s k =
    some t → Keeps w p t := by
  delta State.ckptTokens
  intro t e
  split at e
  · exact keeps_chargeBulk (hw := sub_of hw rfl) _ _ _ _ h _ e
  · cases e

theorem keeps_execCheckpointBoundary (stall : Fin 32) (s : State) (h : Keeps w p s) (hw : Sub 0x82a0284 w) : OutKeeps
    w p (@execCheckpointBoundary stall s) := by
  delta execCheckpointBoundary
  dsimp only
  split
  · exact outKeeps_next h
  · rename_i c _
    split
    · exact outKeeps_next (keeps_modStall (hw := sub_of hw rfl) _ _ _ h)
    · rename_i x _
      refine outKeeps_ite (outKeeps_next h) ?_
      have h1 : Keeps w p (s.reachBoundary stall.val c) := keeps_reachBoundary (hw := sub_of hw rfl) _ _ _ h
      refine outKeeps_ite (outKeeps_next (keeps_finish (hw := sub_of hw rfl) _ _ _ _ _ h1)) (outKeeps_ite
        (outKeeps_next (keeps_stallCode (hw := sub_of hw rfl) _ _ _ (keeps_finish (hw := sub_of hw rfl) _ _ _ _ _ h1))) ?_)
      split
      · rename_i t e
        exact outKeeps_next (keeps_finish (hw := sub_of hw rfl) _ _ _ _ _ (keeps_writeCkpt (hw := sub_of hw rfl) _ _ _ _ (keeps_ckptTokens (hw := sub_of hw rfl) _ _ h1 _ e)))
      · exact outKeeps_next h1

theorem keeps_execVfFlr (vf : Fin 32) (s : State) (h : Keeps w p s) (hw : Sub 0x80000 w) : OutKeeps w p (@execVfFlr vf
    s) := by
  delta execVfFlr
  repeat' first
    | with_reducible assumption | with_reducible refine outKeeps_next ?_ | with_reducible apply keeps_flr
    | with_reducible refine outKeeps_ite ?_ ?_

end Sys2Proof.Machine
end

