-- ==== Sys2Proof/Laws/KeepsIslands.lean ====
section
/-!
SUPPORT. Laws/KeepsIslands.lean: what each operation and command keeps (error records, the planner, the islands, starts, modes, restarts); `keeps_x` is about `x`, whose
components of State are the bits of its `Sub`.
-/

namespace Sys2Proof.Machine

variable {w : Nat} {p : State}

theorem keeps_modErrq (s : State) (g : ErrQueue → ErrQueue) (h : Keeps w p s) (hw : Sub 0x100000 w) : Keeps w p
    (@State.modErrq s g) := by
  delta State.modErrq
  repeat' first
    | with_reducible assumption | with_reducible refine keeps_set_safety ?_ (sub_of hw rfl)

theorem keeps_hostLog (s : State) (r : ErrRec) (handling : Nat) (h : Keeps w p s) (hw : Sub 0x180280 w) : Keeps w p
    (@State.hostLog s r handling) := by
  delta State.hostLog
  repeat' first
    | with_reducible assumption | with_reducible exact sub_of hw rfl | with_reducible apply keeps_modErrq
    | with_reducible apply keeps_hostWrite | with_reducible apply keeps_sendMsix | with_reducible apply keeps_setFld
    | with_reducible refine keeps_ite ?_ ?_

theorem keeps_enableErrlog (s : State) (h : Keeps w p s) (hw : Sub 0x80 w) : Keeps w p (@State.enableErrlog s) := by
  delta State.enableErrlog
  repeat' first
    | with_reducible assumption | with_reducible apply keeps_setFld | with_reducible refine keeps_ite ?_ ?_

theorem keeps_execErrlogEnable (s : State) (h : Keeps w p s) (hw : Sub 0x80 w) : OutKeeps w p (@execErrlogEnable s) :=
    by
  delta execErrlogEnable
  repeat' first
    | with_reducible assumption | with_reducible refine outKeeps_next ?_ | with_reducible apply keeps_enableErrlog

theorem keeps_countAgreement (s : State) (h : Keeps w p s) (hw : Sub 0x4000 w) : Keeps w p (@State.countAgreement s)
    := by
  delta State.countAgreement
  repeat' first
    | with_reducible assumption | (extract_lets +onlyGivenNames x; clear_value x; revert x; intros)
    | with_reducible refine keeps_set_fabric ?_ (sub_of hw rfl)

theorem keeps_applyRequest (s : State) (r : ErrRec) (h : Keeps w p s) (hw : Sub 0x10600c w) : Keeps w p
    (@State.applyRequest s r) := by
  delta State.applyRequest
  repeat' first
    | with_reducible assumption | with_reducible exact sub_of hw rfl | with_reducible apply keeps_request
    | with_reducible apply keeps_countAgreement | with_reducible refine keeps_ite ?_ ?_ | split

theorem keeps_applyRecord (s : State) (r : ErrRec) (h : Keeps w p s) (hw : Sub 0x10600c w) : Keeps w p
    (@State.applyRecord s r) := by
  delta State.applyRecord
  repeat' first
    | with_reducible assumption | with_reducible exact sub_of hw rfl | with_reducible apply keeps_applyRequest
    | with_reducible apply keeps_setAuthority | with_reducible apply keeps_requestRestart
    | with_reducible apply keeps_heartbeat | with_reducible refine keeps_ite ?_ ?_

theorem keeps_closeOutput (s : State) (r : ErrRec) (h : Keeps w p s) (hw : Sub 0x10000c w) : Keeps w p
    (@State.closeOutput s r) := by
  delta State.closeOutput
  repeat' first
    | with_reducible assumption | with_reducible exact sub_of hw rfl | with_reducible apply keeps_heartbeat
    | with_reducible apply keeps_setAuthority | with_reducible refine keeps_ite ?_ ?_ | split
    | with_reducible refine keeps_of_snd ?_ (by assumption) | with_reducible refine keeps_of_fst ?_ (by assumption)

theorem keeps_atOnce (s : State) (code : Nat) (h : Keeps w p s) (hw : Sub 0x18628c w) : Keeps w p (@State.atOnce s
    code) := by
  delta State.atOnce
  repeat' first
    | with_reducible assumption | with_reducible exact sub_of hw rfl | with_reducible apply keeps_stamp
    | with_reducible apply keeps_free | with_reducible apply keeps_applyRecord
    | with_reducible apply keeps_fallbackState | with_reducible apply keeps_hostLog
    | with_reducible refine keeps_ite ?_ ?_

theorem keeps_handleNext (s : State) (counts : Bool) (h : Keeps w p s) (hw : Sub 0x10000c w) : Keeps w p
    (@State.handleNext s counts) := by
  delta State.handleNext
  repeat' first
    | with_reducible assumption | with_reducible exact sub_of hw rfl | with_reducible apply keeps_modErrq
    | with_reducible apply keeps_closeOutput | with_reducible refine keeps_ite ?_ ?_ | intro _ _ _ _ | intro _ _ _
    | intro _ _
    | (extract_lets +onlyGivenNames x; refine keeps_cut (w := w) (p := p) (v := x) ?_ ?_; rotate_left; clear_value x; revert x; intros; rotate_right; unfold x; clear x)
    | (extract_lets +onlyGivenNames x; clear_value x; revert x; intros)
    | (extract_lets +onlyGivenNames x; revert x; intros) | split
    | with_reducible refine keeps_of_snd ?_ (by assumption) | with_reducible refine keeps_of_fst ?_ (by assumption)

theorem keeps_countPair (s : State) (r : ErrRec) (h : Keeps w p s) (hw : Sub 0x18628c w) : Keeps w p (@State.countPair
    s r) := by
  delta State.countPair
  repeat' first
    | with_reducible assumption | with_reducible exact sub_of hw rfl | with_reducible apply keeps_atOnce
    | with_reducible apply keeps_modErrq | with_reducible refine keeps_ite ?_ ?_ | split

theorem keeps_enqueue (s : State) (r : ErrRec) (h : Keeps w p s) (hw : Sub 0x18628c w) : Keeps w p (@State.enqueue s
    r) := by
  delta State.enqueue
  repeat' first
    | with_reducible assumption | with_reducible exact sub_of hw rfl | with_reducible apply keeps_hostLog
    | with_reducible apply keeps_modErrq | with_reducible apply keeps_countPair | with_reducible apply keeps_atOnce
    | with_reducible apply keeps_applyRecord | with_reducible apply keeps_handleNext
    | with_reducible refine keeps_ite ?_ ?_

theorem keeps_execErrorRecordEnqueue (s : State) (h : Keeps w p s) (hw : Sub 0x18628c w) : OutKeeps w p
    (@execErrorRecordEnqueue s) := by
  delta execErrorRecordEnqueue
  repeat' first
    | with_reducible assumption | with_reducible exact sub_of hw rfl | with_reducible refine outKeeps_next ?_
    | with_reducible apply keeps_enqueue | with_reducible apply keeps_modErrq
    | (extract_lets +onlyGivenNames x; refine keeps_cut (w := w) (p := p) (v := x) ?_ ?_; rotate_left; clear_value x; revert x; intros; rotate_right; unfold x; clear x)
    | (extract_lets +onlyGivenNames x; clear_value x; revert x; intros)
    | (extract_lets +onlyGivenNames x; revert x; intros) | split

theorem keeps_execErrorHandlingDone (s : State) (h : Keeps w p s) (hw : Sub 0x18628c w) : OutKeeps w p
    (@execErrorHandlingDone s) := by
  delta execErrorHandlingDone
  repeat' first
    | with_reducible assumption | with_reducible exact sub_of hw rfl | with_reducible refine outKeeps_next ?_
    | with_reducible apply keeps_applyRecord | with_reducible apply keeps_modErrq | with_reducible apply keeps_hostLog
    | with_reducible apply keeps_handleNext | with_reducible refine outKeeps_ite ?_ ?_ | split

theorem keeps_modPlanner (s : State) (g : Planner → Planner) (h : Keeps w p s) (hw : Sub 0x20000000 w) : Keeps w p
    (@State.modPlanner s g) := by
  delta State.modPlanner
  repeat' first
    | with_reducible assumption | with_reducible refine keeps_set_planner ?_ (sub_of hw rfl)

theorem keeps_stopCycles (s : State) (h : Keeps w p s) (hw : Sub 0x20000000 w) : Keeps w p (@State.stopCycles s) := by
  delta State.stopCycles
  repeat' first
    | with_reducible assumption | with_reducible apply keeps_modPlanner

theorem keeps_grant (s : State) (b : Nat) (h : Keeps w p s) (hw : Sub 0x20080080 w) : Keeps w p (@State.grant s b) := by
  delta State.grant
  repeat' first
    | with_reducible assumption | with_reducible exact sub_of hw rfl | with_reducible apply keeps_addMarker
    | with_reducible apply keeps_modPlanner

theorem keeps_writeTable (s : State) (b : Nat) (cells : List (List Nat)) (h : Keeps w p s) (hw : Sub 0x100 w) : Keeps
    w p (@State.writeTable s b cells) := by
  delta State.writeTable
  repeat' first
    | with_reducible assumption | with_reducible apply keeps_devWrite

theorem keeps_noteVerdict (s : State) (index : Nat) (x2 : Verdict) (h : Keeps w p s) (hw : Sub 0x20000000 w) : Keeps w
    p (@State.noteVerdict s index x2) := by
  delta State.noteVerdict
  repeat' first
    | with_reducible assumption | with_reducible exact sub_of hw rfl | with_reducible apply keeps_modPlanner
    | intro _ _ _ _ | intro _ _ _ | intro _ _ | split | with_reducible refine keeps_of_snd ?_ (by assumption)
    | with_reducible refine keeps_of_fst ?_ (by assumption)

theorem keeps_feedLanes (x0 : Nat) (x1 : State) (h : Keeps w p x1) (hw : Sub 0x20000000 w) : Keeps w p (@feedLanes x0
    x1) := by
  induction x0 generalizing x1 with
  | zero => exact h
  | succ n ih =>
    unfold feedLanes
    split
    · exact ih _ (keeps_modPlanner (hw := sub_of hw rfl) _ _ h)
    · exact h

theorem keeps_feed (s : State) (h : Keeps w p s) (hw : Sub 0x20000000 w) : Keeps w p (@State.feed s) := by
  delta State.feed
  repeat' first
    | with_reducible assumption | with_reducible apply keeps_feedLanes | with_reducible refine keeps_ite ?_ ?_ | split

theorem keeps_laneOut (s : State) (l : Nat) (h : Keeps w p s) (hw : Sub 0x2010000c w) : Keeps w p (@State.laneOut s l)
    := by
  delta State.laneOut
  repeat' first
    | with_reducible assumption | with_reducible exact sub_of hw rfl | with_reducible apply keeps_modPlanner
    | with_reducible apply keeps_report | with_reducible refine keeps_ite ?_ ?_

theorem keeps_planEnable (s : State) (h : Keeps w p s) (hw : Sub 0x2018008c w) : Keeps w p (@State.planEnable s) := by
  delta State.planEnable
  repeat' first
    | with_reducible assumption | with_reducible exact sub_of hw rfl | with_reducible apply keeps_refuse
    | with_reducible apply keeps_stopCycles | with_reducible apply keeps_setFld | with_reducible apply keeps_grant
    | with_reducible refine keeps_ite ?_ ?_ | (extract_lets +onlyGivenNames x; clear_value x; revert x; intros)
    | with_reducible refine keeps_set_safety ?_ (sub_of hw rfl)

theorem keeps_execPlanEnable (s : State) (h : Keeps w p s) (hw : Sub 0x2018008c w) : OutKeeps w p (@execPlanEnable s)
    := by
  delta execPlanEnable
  repeat' first
    | with_reducible assumption | with_reducible refine outKeeps_next ?_ | with_reducible apply keeps_planEnable

theorem keeps_planDisable (s : State) (h : Keeps w p s) (hw : Sub 0x20000080 w) : Keeps w p (@State.planDisable s) := by
  delta State.planDisable
  repeat' first
    | with_reducible assumption | with_reducible exact sub_of hw rfl | with_reducible apply keeps_stopCycles
    | with_reducible apply keeps_setFld

theorem keeps_execPlanDisable (s : State) (h : Keeps w p s) (hw : Sub 0x20000080 w) : OutKeeps w p (@execPlanDisable
    s) := by
  delta execPlanDisable
  repeat' first
    | with_reducible assumption | with_reducible refine outKeeps_next ?_ | with_reducible apply keeps_planDisable

theorem keeps_clearStats (s : State) (mask : Nat) (h : Keeps w p s) (hw : Sub 0x80 w) : Keeps w p (@State.clearStats s
    mask) := by
  delta State.clearStats
  repeat' first
    | with_reducible assumption | with_reducible apply keeps_setFld | with_reducible refine keeps_foldl ?_ ?_
    | with_reducible refine keeps_ite ?_ ?_ | intro _ _ _

theorem keeps_execClrPlanStat (n : Fin 8) (s : State) (h : Keeps w p s) (hw : Sub 0x80 w) : OutKeeps w p
    (@execClrPlanStat n s) := by
  delta execClrPlanStat
  repeat' first
    | with_reducible assumption | with_reducible refine outKeeps_next ?_ | with_reducible apply keeps_clearStats

theorem keeps_activate (s : State) (h : Keeps w p s) (hw : Sub 0x20080080 w) : Keeps w p (@State.activate s) := by
  delta State.activate
  repeat' first
    | with_reducible assumption | with_reducible exact sub_of hw rfl | with_reducible apply keeps_grant
    | with_reducible apply keeps_modPlanner | split

theorem keeps_olderFusion (s : State) (h : Keeps w p s) (hw : Sub 0x80 w) : Keeps w p (@State.olderFusion s) := by
  delta State.olderFusion
  repeat' first
    | with_reducible assumption | with_reducible apply keeps_tally | with_reducible refine keeps_ite ?_ ?_
    | (extract_lets +onlyGivenNames x; clear_value x; revert x; intros) | split

theorem keeps_execPlanCycleStart (s : State) (h : Keeps w p s) (hw : Sub 0x2018008c w) : OutKeeps w p
    (@execPlanCycleStart s) := by
  delta execPlanCycleStart
  repeat' first
    | with_reducible assumption | with_reducible exact sub_of hw rfl | with_reducible refine outKeeps_next ?_
    | with_reducible apply keeps_olderFusion | with_reducible apply keeps_activate
    | with_reducible apply keeps_modPlanner | with_reducible apply keeps_report
    | with_reducible refine keeps_ite ?_ ?_ | with_reducible refine outKeeps_ite ?_ ?_

theorem keeps_execSnapshotPublish (s : State) (h : Keeps w p s) (hw : Sub 0x20080080 w) : OutKeeps w p
    (@execSnapshotPublish s) := by
  delta execSnapshotPublish
  dsimp only
  split
  · exact outKeeps_next h
  · rename_i b _
    have h1 : ∀ f, Keeps w p (s.modPlanner f) := fun f => keeps_modPlanner (hw := sub_of hw rfl) _ _ h
    split
    · split
      · exact outKeeps_next (h1 _)
      · split
        · exact outKeeps_next h
        · split
          · exact outKeeps_next (keeps_set_host h (sub_of hw rfl))
          · generalize (1 : Nat) = u
            split
            · refine outKeeps_next ?_
              generalize s.marker _ + 4294967295 = v
              exact keeps_setMarker (hw := sub_of hw rfl) _ _ _ (h1 _)
            · exact outKeeps_next h
    · exact outKeeps_next h

theorem keeps_execSnapshotBuildDone (s : State) (h : Keeps w p s) (hw : Sub 0x2018018c w) : OutKeeps w p
    (@execSnapshotBuildDone s) := by
  delta execSnapshotBuildDone
  repeat' first
    | with_reducible assumption | with_reducible exact sub_of hw rfl | with_reducible refine outKeeps_next ?_
    | with_reducible apply keeps_grant | with_reducible apply keeps_report | with_reducible apply keeps_modPlanner
    | with_reducible apply keeps_writeTable | (extract_lets +onlyGivenNames x; clear_value x; revert x; intros)
    | split

theorem keeps_takeCandidate (s : State) (c : Candidate) (h : Keeps w p s) (hw : Sub 0x20000080 w) : Keeps w p
    (@State.takeCandidate s c) := by
  delta State.takeCandidate
  repeat' first
    | with_reducible assumption | with_reducible exact sub_of hw rfl | with_reducible apply keeps_modPlanner
    | with_reducible apply keeps_count | with_reducible refine keeps_ite ?_ ?_ | split

theorem keeps_takeBlock (s : State) (size : Nat) (block : List Byte) (h : Keeps w p s) (hw : Sub 0x2010008c w) : Keeps
    w p (@State.takeBlock s size block) := by
  delta State.takeBlock
  repeat' first
    | with_reducible assumption | with_reducible exact sub_of hw rfl | with_reducible apply keeps_report
    | with_reducible apply keeps_feed | with_reducible apply keeps_takeCandidate
    | with_reducible refine keeps_foldl ?_ ?_ | with_reducible refine keeps_ite ?_ ?_ | intro _ _ _

theorem keeps_execProposalTake (s : State) (h : Keeps w p s) (hw : Sub 0x2010418c w) : OutKeeps w p (@execProposalTake
    s) := by
  delta execProposalTake
  repeat' first
    | with_reducible assumption | with_reducible exact sub_of hw rfl | with_reducible refine outKeeps_next ?_
    | with_reducible apply keeps_takeBlock | with_reducible apply keeps_clearReady | split

theorem keeps_askStore (s : State) (slot : Nat) (isWrite : Bool) (h : Keeps w p s) (hw : Sub 0x20000 w) : Keeps w p
    (@State.askStore s slot isWrite) := by
  delta State.askStore
  repeat' first
    | with_reducible assumption | with_reducible exact sub_of hw rfl | with_reducible apply keeps_askMemory | split
    | with_reducible refine keeps_of_snd ?_ (by assumption) | with_reducible refine keeps_of_fst ?_ (by assumption)

theorem keeps_insertCandidate (s : State) (lane : Nat) (key : Nat) (c : Candidate) (h : Keeps w p s) (hw : Sub
    0x20020180 w) : Keeps w p (@State.insertCandidate s lane key c) := by
  delta State.insertCandidate
  repeat' first
    | with_reducible assumption | with_reducible exact sub_of hw rfl | with_reducible apply keeps_modPlanner
    | with_reducible apply keeps_count | with_reducible apply keeps_askStore | with_reducible apply keeps_unpoison
    | with_reducible apply keeps_devWrite | with_reducible refine keeps_ite ?_ ?_
    | (extract_lets +onlyGivenNames x; refine keeps_cut (w := w) (p := p) (v := x) ?_ ?_; rotate_left; clear_value x; revert x; intros; rotate_right; unfold x; clear x)
    | split

theorem keeps_execCandidateCheckDone (lane : Fin 64) (s : State) (h : Keeps w p s) (hw : Sub 0x20020180 w) : OutKeeps
    w p (@execCandidateCheckDone lane s) := by
  delta execCandidateCheckDone
  repeat' first
    | with_reducible assumption | with_reducible exact sub_of hw rfl | with_reducible refine outKeeps_next ?_
    | with_reducible apply keeps_modPlanner | with_reducible apply keeps_noteVerdict
    | with_reducible apply keeps_count | with_reducible apply keeps_insertCandidate | with_reducible apply keeps_feed
    | split

theorem keeps_writePlan (s : State) (y : PlanCycle) (outcome : Nat) (epoch : Nat) (unchecked : Nat) (e : Published) (h
    : Keeps w p s) (hw : Sub 0x100104 w) : Keeps w p (@State.writePlan s y outcome epoch unchecked e) := by
  delta State.writePlan
  repeat' first
    | with_reducible assumption | with_reducible exact sub_of hw rfl | with_reducible apply keeps_stamp
    | with_reducible apply keeps_devWrite | intro _ _ _ _ | intro _ _ _ | intro _ _
    | (extract_lets +onlyGivenNames x; refine keeps_cut (w := w) (p := p) (v := x) ?_ ?_; rotate_left; clear_value x; revert x; intros; rotate_right; unfold x; clear x)
    | (extract_lets +onlyGivenNames x; clear_value x; revert x; intros) | split
    | with_reducible refine keeps_of_snd ?_ (by assumption)
    | with_reducible refine keeps_set_safety ?_ (sub_of hw rfl)

theorem keeps_noPath (s : State) (y : PlanCycle) (unchecked : Nat) (h : Keeps w p s) (hw : Sub 0x2010010c w) : Keeps w
    p (@State.noPath s y unchecked) := by
  delta State.noPath
  repeat' first
    | with_reducible assumption | with_reducible exact sub_of hw rfl | with_reducible apply keeps_modPlanner
    | with_reducible apply keeps_report | with_reducible apply keeps_writePlan

theorem keeps_countOutcome (s : State) (outcome : Nat) (h : Keeps w p s) (hw : Sub 0x2010200c w) : Keeps w p
    (@State.countOutcome s outcome) := by
  delta State.countOutcome
  repeat' first
    | with_reducible assumption | with_reducible exact sub_of hw rfl | with_reducible apply keeps_modPlanner
    | with_reducible apply keeps_lower

theorem keeps_checkStored (s : State) (b : Nat) (e : Published) (h : Keeps w p s) (hw : Sub 0x20020000 w) : Keeps w p
    (@State.checkStored s b e).2 := by
  delta State.checkStored
  repeat' first
    | with_reducible assumption | with_reducible exact sub_of hw rfl | with_reducible apply keeps_noteVerdict
    | with_reducible apply keeps_askStore
    | (extract_lets +onlyGivenNames x; refine keeps_cut (w := w) (p := p) (v := x) ?_ ?_; rotate_left; clear_value x; revert x; intros; rotate_right; unfold x; clear x)
    | (extract_lets +onlyGivenNames x; refine keeps_cut (w := w) (p := p) (v := x.1) ?_ ?_; rotate_left; clear_value x; revert x; intros; rotate_right; unfold x; clear x)
    | (extract_lets +onlyGivenNames x; refine keeps_cut (w := w) (p := p) (v := x.2) ?_ ?_; rotate_left; clear_value x; revert x; intros; rotate_right; unfold x; clear x)
    | (extract_lets +onlyGivenNames x; clear_value x; revert x; intros)
    | (extract_lets +onlyGivenNames x; revert x; intros) | split
    | with_reducible refine keeps_of_snd ?_ (by assumption) | with_reducible refine keeps_of_fst ?_ (by assumption)
    | with_reducible refine keeps_snd_mk ?_ | with_reducible refine keeps_fst_mk ?_

theorem keeps_publish (s : State) (y : PlanCycle) (b : Nat) (outcome : Nat) (epoch : Nat) (unchecked : Nat) (agrees :
    Bool) (e : Published) (h : Keeps w p s) (hw : Sub 0x2012210c w) : Keeps w p (@State.publish s y b outcome epoch
    unchecked agrees e) := by
  delta State.publish
  repeat' first
    | with_reducible assumption | with_reducible exact sub_of hw rfl | with_reducible apply keeps_checkStored
    | with_reducible apply keeps_modPlanner | with_reducible apply keeps_writePlan
    | with_reducible apply keeps_countOutcome | with_reducible apply keeps_report
    | with_reducible refine keeps_ite ?_ ?_
    | (extract_lets +onlyGivenNames x; refine keeps_cut (w := w) (p := p) (v := x.1) ?_ ?_; rotate_left; clear_value x; revert x; intros; rotate_right; unfold x; clear x)
    | (extract_lets +onlyGivenNames x; refine keeps_cut (w := w) (p := p) (v := x.2) ?_ ?_; rotate_left; clear_value x; revert x; intros; rotate_right; unfold x; clear x)
    | with_reducible refine keeps_of_22 ?_ (by assumption) | with_reducible refine keeps_of_222 ?_ (by assumption)
    | with_reducible refine keeps_of_11 ?_ (by assumption)

theorem keeps_extractMin (s : State) (h : Keeps w p s) (hw : Sub 0x20000000 w) : ∀ a t, @State.extractMin s = some (a,
    t) → Keeps w p t := by
  intro a t e
  unfold State.extractMin at e
  split at e
  · cases e
  · cases e
    exact keeps_modPlanner (hw := sub_of hw rfl) _ _ h

theorem keeps_recheck (s : State) (b : Nat) (e : Published) (h : Keeps w p s) (hw : Sub 0x20020080 w) : Keeps w p
    (@State.recheck s b e).2.2 := by
  delta State.recheck
  repeat' first
    | with_reducible assumption | with_reducible exact sub_of hw rfl | with_reducible apply keeps_checkStored
    | with_reducible apply keeps_count
    | (extract_lets +onlyGivenNames x; refine keeps_cut (w := w) (p := p) (v := x) ?_ ?_; rotate_left; clear_value x; revert x; intros; rotate_right; unfold x; clear x)
    | (extract_lets +onlyGivenNames x; refine keeps_cut (w := w) (p := p) (v := x.1) ?_ ?_; rotate_left; clear_value x; revert x; intros; rotate_right; unfold x; clear x)
    | (extract_lets +onlyGivenNames x; refine keeps_cut (w := w) (p := p) (v := x.2) ?_ ?_; rotate_left; clear_value x; revert x; intros; rotate_right; unfold x; clear x)
    | (extract_lets +onlyGivenNames x; clear_value x; revert x; intros)
    | (extract_lets +onlyGivenNames x; revert x; intros) | split
    | with_reducible refine keeps_of_snd ?_ (by assumption) | with_reducible refine keeps_of_fst ?_ (by assumption)
    | with_reducible refine keeps_of_22 ?_ (by assumption) | with_reducible refine keeps_of_222 ?_ (by assumption)
    | with_reducible refine keeps_of_11 ?_ (by assumption) | with_reducible refine keeps_snd_mk ?_
    | with_reducible refine keeps_fst_mk ?_

theorem keeps_recheckLoop (y : PlanCycle) (b : Nat) (epoch : Nat) (unchecked : Nat) (agrees : Bool) (x5 : Nat) (x6 :
    State) (h : Keeps w p x6) (hw : Sub 0x2012218c w) : Keeps w p (@recheckLoop y b epoch unchecked agrees x5 x6) :=
    by
  induction x5 generalizing x6 with
  | zero => exact keeps_noPath (hw := sub_of hw rfl) _ _ _ h
  | succ n ih =>
    unfold recheckLoop
    split
    · exact keeps_noPath (hw := sub_of hw rfl) _ _ _ h
    · rename_i e s' he
      have h1 := keeps_recheck (hw := sub_of hw rfl) s' b e (keeps_extractMin (hw := sub_of hw rfl) _ h _ _ he)
      dsimp only
      split
      · exact keeps_publish (hw := sub_of hw rfl) _ _ _ _ _ _ _ _ h1
      · exact ih _ (keeps_report (hw := sub_of hw rfl) _ _ _ _ _ _ _ h1)

theorem keeps_recheckRoom (s : State) (y : PlanCycle) (h : Keeps w p s) (hw : Sub 0x8 w) : Keeps w p
    (@State.recheckRoom s y).2 := by
  delta State.recheckRoom
  repeat' first
    | with_reducible assumption | with_reducible apply keeps_free

theorem keeps_keepOrNone (s : State) (y : PlanCycle) (b : Nat) (epoch : Nat) (unchecked : Nat) (agrees : Bool) (h :
    Keeps w p s) (hw : Sub 0x2012218c w) : Keeps w p (@State.keepOrNone s y b epoch unchecked agrees) := by
  delta State.keepOrNone
  repeat' first
    | with_reducible assumption | with_reducible exact sub_of hw rfl | with_reducible apply keeps_recheck
    | with_reducible apply keeps_report | with_reducible apply keeps_publish | with_reducible apply keeps_noPath
    | with_reducible refine keeps_ite ?_ ?_
    | (extract_lets +onlyGivenNames x; refine keeps_cut (w := w) (p := p) (v := x) ?_ ?_; rotate_left; clear_value x; revert x; intros; rotate_right; unfold x; clear x)
    | (extract_lets +onlyGivenNames x; refine keeps_cut (w := w) (p := p) (v := x.1) ?_ ?_; rotate_left; clear_value x; revert x; intros; rotate_right; unfold x; clear x)
    | (extract_lets +onlyGivenNames x; refine keeps_cut (w := w) (p := p) (v := x.2) ?_ ?_; rotate_left; clear_value x; revert x; intros; rotate_right; unfold x; clear x)
    | split | with_reducible refine keeps_of_22 ?_ (by assumption)
    | with_reducible refine keeps_of_222 ?_ (by assumption) | with_reducible refine keeps_of_11 ?_ (by assumption)

theorem keeps_execPlanSelection (finalAgrees : Bool) (s : State) (h : Keeps w p s) (hw : Sub 0x2012218c w) : OutKeeps
    w p (@execPlanSelection finalAgrees s) := by
  delta execPlanSelection
  repeat' first
    | with_reducible assumption | with_reducible exact sub_of hw rfl | with_reducible refine outKeeps_next ?_
    | with_reducible apply keeps_modPlanner | with_reducible apply keeps_count | with_reducible apply keeps_noPath
    | with_reducible apply keeps_report | with_reducible apply keeps_tally | with_reducible apply keeps_keepOrNone
    | with_reducible refine keeps_extractMin _ ?_ (sub_of hw rfl) _ _ (by assumption)
    | with_reducible apply keeps_publish | with_reducible apply keeps_recheckRoom
    | with_reducible apply keeps_recheckLoop | with_reducible refine keeps_ite ?_ ?_
    | with_reducible refine outKeeps_ite ?_ ?_
    | (extract_lets +onlyGivenNames x; refine keeps_cut (w := w) (p := p) (v := x) ?_ ?_; rotate_left; clear_value x; revert x; intros; rotate_right; unfold x; clear x)
    | (extract_lets +onlyGivenNames x; clear_value x; revert x; intros) | split

theorem keeps_planDrive (s : State) (h : Keeps w p s) (hw : Sub 0x20000000 w) : Keeps w p (@State.planDrive s) := by
  delta State.planDrive
  repeat' first
    | with_reducible assumption | with_reducible apply keeps_stopCycles | with_reducible apply keeps_modPlanner

theorem keeps_planRestart (s : State) (h : Keeps w p s) (hw : Sub 0x2010200c w) : Keeps w p (@State.planRestart s) := by
  delta State.planRestart
  repeat' first
    | with_reducible assumption | with_reducible exact sub_of hw rfl | with_reducible apply keeps_modPlanner
    | with_reducible apply keeps_lower | with_reducible apply keeps_stopCycles

theorem keeps_islandReport (s : State) (i : Nat) (code : Nat) (sev : Nat) (request : optParam (Option (Nat × Nat))
    none) (h : Keeps w p s) (hw : Sub 0x10000c w) : Keeps w p (@State.islandReport s i code sev request) := by
  delta State.islandReport
  repeat' first
    | with_reducible assumption | with_reducible apply keeps_reportWith

theorem keeps_startPilot (s : State) (i : Nat) (h : Keeps w p s) (hw : Sub 0x100000 w) : Keeps w p (@State.startPilot
    s i) := by
  delta State.startPilot
  repeat' first
    | with_reducible assumption | with_reducible apply keeps_modIsland | with_reducible refine keeps_ite ?_ ?_

theorem keeps_stopPilot (s : State) (i : Nat) (h : Keeps w p s) (hw : Sub 0x100000 w) : Keeps w p (@State.stopPilot s
    i) := by
  delta State.stopPilot
  repeat' first
    | with_reducible assumption | with_reducible apply keeps_modIsland

theorem keeps_startPilots (s : State) (h : Keeps w p s) (hw : Sub 0x100000 w) : Keeps w p (@State.startPilots s) := by
  delta State.startPilots
  repeat' first
    | with_reducible assumption | with_reducible apply keeps_startPilot

theorem keeps_stopPilots (s : State) (h : Keeps w p s) (hw : Sub 0x100000 w) : Keeps w p (@State.stopPilots s) := by
  delta State.stopPilots
  repeat' first
    | with_reducible assumption | with_reducible apply keeps_stopPilot

theorem keeps_judgePilot (s : State) (h : Keeps w p s) (hw : Sub 0x10200c w) : Keeps w p (@State.judgePilot s) := by
  delta State.judgePilot
  repeat' first
    | with_reducible assumption | with_reducible apply keeps_request | with_reducible apply keeps_withdraw
    | with_reducible refine keeps_ite ?_ ?_ | split

theorem keeps_accelCheck (s : State) (code : Nat) (h : Keeps w p s) (hw : Sub 0x10200c w) : Keeps w p
    (@State.accelCheck s code) := by
  delta State.accelCheck
  repeat' first
    | with_reducible assumption | with_reducible apply keeps_request | with_reducible refine keeps_ite ?_ ?_

theorem keeps_takeCommand (s : State) (i : Nat) (code : Nat) (h : Keeps w p s) (hw : Sub 0x10200c w) : Keeps w p
    (@State.takeCommand s i code) := by
  delta State.takeCommand
  repeat' first
    | with_reducible assumption | with_reducible exact sub_of hw rfl | with_reducible apply keeps_newAuthority
    | with_reducible apply keeps_accelCheck | with_reducible apply keeps_judgePilot
    | (extract_lets +onlyGivenNames x; clear_value x; revert x; intros)
    | with_reducible refine keeps_set_safety ?_ (sub_of hw rfl)

theorem keeps_passCommand (s : State) (i : Nat) (code : Nat) (h : Keeps w p s) (hw : Sub 0x10200c w) : Keeps w p
    (@State.passCommand s i code) := by
  delta State.passCommand
  repeat' first
    | with_reducible assumption | with_reducible apply keeps_takeCommand | with_reducible refine keeps_ite ?_ ?_
    | with_reducible refine keeps_set_safety ?_ (sub_of hw rfl)

theorem keeps_shutScan (s : State) (i : Nat) (h : Keeps w p s) (hw : Sub 0x1000080 w) : Keeps w p (@State.shutScan s
    i) := by
  delta State.shutScan
  repeat' first
    | with_reducible assumption | with_reducible exact sub_of hw rfl | with_reducible apply keeps_setFld
    | with_reducible refine keeps_ite ?_ ?_
    | (extract_lets +onlyGivenNames x; refine keeps_cut (w := w) (p := p) (v := x) ?_ ?_; rotate_left; clear_value x; revert x; intros; rotate_right; unfold x; clear x)
    | (extract_lets +onlyGivenNames x; clear_value x; revert x; intros)
    | (extract_lets +onlyGivenNames x; revert x; intros) | split
    | with_reducible refine keeps_of_snd ?_ (by assumption) | with_reducible refine keeps_of_fst ?_ (by assumption)
    | with_reducible refine keeps_set_boot ?_ (sub_of hw rfl)

theorem keeps_islandDown (s : State) (i : Nat) (h : Keeps w p s) (hw : Sub 0x1100080 w) : Keeps w p (@State.islandDown
    s i) := by
  delta State.islandDown
  repeat' first
    | with_reducible assumption | with_reducible exact sub_of hw rfl | with_reducible apply keeps_stopPilot
    | with_reducible apply keeps_modIsland | with_reducible apply keeps_shutScan
    | with_reducible refine keeps_ite ?_ ?_ | intro _ _ _ _ | intro _ _ _ | intro _ _
    | (extract_lets +onlyGivenNames x; refine keeps_cut (w := w) (p := p) (v := x) ?_ ?_; rotate_left; clear_value x; revert x; intros; rotate_right; unfold x; clear x)
    | (extract_lets +onlyGivenNames x; clear_value x; revert x; intros)
    | (extract_lets +onlyGivenNames x; revert x; intros) | split
    | with_reducible refine keeps_of_snd ?_ (by assumption) | with_reducible refine keeps_of_fst ?_ (by assumption)
    | with_reducible refine keeps_set_safety ?_ (sub_of hw rfl)

theorem keeps_islandUp (s : State) (i : Nat) (h : Keeps w p s) (hw : Sub 0x100000 w) : Keeps w p (@State.islandUp s i)
    := by
  delta State.islandUp
  repeat' first
    | with_reducible assumption | with_reducible apply keeps_modIsland | with_reducible apply keeps_startPilot
    | with_reducible refine keeps_ite ?_ ?_ | with_reducible refine keeps_set_safety ?_ (sub_of hw rfl)

theorem keeps_execIslandSupplyFault (island : Fin 2) (s : State) (h : Keeps w p s) (hw : Sub 0x110008c w) : OutKeeps w
    p (@execIslandSupplyFault island s) := by
  delta execIslandSupplyFault
  repeat' first
    | with_reducible assumption | with_reducible exact sub_of hw rfl | with_reducible refine outKeeps_next ?_
    | with_reducible apply keeps_islandDown | with_reducible apply keeps_modIsland
    | with_reducible apply keeps_islandReport | with_reducible refine keeps_ite ?_ ?_

theorem keeps_execIslandSupplyRestored (island : Fin 2) (s : State) (h : Keeps w p s) (hw : Sub 0x1100000 w) :
    OutKeeps w p (@execIslandSupplyRestored island s) := by
  delta execIslandSupplyRestored
  repeat' first
    | with_reducible assumption | with_reducible exact sub_of hw rfl | with_reducible refine outKeeps_next ?_
    | with_reducible apply keeps_modIsland | with_reducible apply keeps_islandUp
    | with_reducible refine keeps_ite ?_ ?_ | with_reducible refine outKeeps_ite ?_ ?_
    | (extract_lets +onlyGivenNames x; clear_value x; revert x; intros)
    | with_reducible refine keeps_set_boot ?_ (sub_of hw rfl)

theorem keeps_gptpTime (s : State) (h : Keeps w p s) (hw : Sub 0x8 w) : Keeps w p (@State.gptpTime s).2 := by
  delta State.gptpTime
  repeat' first
    | with_reducible assumption | with_reducible exact sub_of hw rfl | with_reducible apply keeps_free
    | with_reducible refine keeps_ite ?_ ?_ | split | with_reducible refine keeps_of_snd ?_ (by assumption)
    | with_reducible refine keeps_of_fst ?_ (by assumption) | with_reducible refine keeps_of_22 ?_ (by assumption)
    | with_reducible refine keeps_of_222 ?_ (by assumption) | with_reducible refine keeps_of_11 ?_ (by assumption)
    | with_reducible refine keeps_snd_mk ?_ | with_reducible refine keeps_fst_mk ?_

theorem keeps_execIslandClockAlign (island : Fin 2) (s : State) (h : Keeps w p s) (hw : Sub 0x100008 w) : OutKeeps w p
    (@execIslandClockAlign island s) := by
  delta execIslandClockAlign
  repeat' first
    | with_reducible assumption | with_reducible exact sub_of hw rfl | with_reducible refine outKeeps_next ?_
    | with_reducible apply keeps_modIsland | with_reducible apply keeps_gptpTime
    | with_reducible refine keeps_ite ?_ ?_ | with_reducible refine outKeeps_ite ?_ ?_ | intro _ _ _ _ | intro _ _ _
    | intro _ _
    | (extract_lets +onlyGivenNames x; refine keeps_cut (w := w) (p := p) (v := x) ?_ ?_; rotate_left; clear_value x; revert x; intros; rotate_right; unfold x; clear x)
    | (extract_lets +onlyGivenNames x; refine keeps_cut (w := w) (p := p) (v := x.1) ?_ ?_; rotate_left; clear_value x; revert x; intros; rotate_right; unfold x; clear x)
    | (extract_lets +onlyGivenNames x; refine keeps_cut (w := w) (p := p) (v := x.2) ?_ ?_; rotate_left; clear_value x; revert x; intros; rotate_right; unfold x; clear x)
    | (extract_lets +onlyGivenNames x; clear_value x; revert x; intros)
    | (extract_lets +onlyGivenNames x; revert x; intros) | split
    | with_reducible refine keeps_of_snd ?_ (by assumption) | with_reducible refine keeps_of_fst ?_ (by assumption)
    | with_reducible refine keeps_of_22 ?_ (by assumption) | with_reducible refine keeps_of_222 ?_ (by assumption)
    | with_reducible refine keeps_of_11 ?_ (by assumption)

theorem keeps_execCrossHeartbeat (island : Fin 2) (cross : Bool) (hub : Bool) (s : State) (h : Keeps w p s) (hw : Sub
    0x100000 w) : OutKeeps w p (@execCrossHeartbeat island cross hub s) := by
  delta execCrossHeartbeat
  repeat' first
    | with_reducible assumption | with_reducible refine outKeeps_next ?_ | with_reducible apply keeps_modIsland
    | with_reducible refine outKeeps_ite ?_ ?_

theorem keeps_execCrossHbTimeout (island : Fin 2) (s : State) (h : Keeps w p s) (hw : Sub 0x10200c w) : OutKeeps w p
    (@execCrossHbTimeout island s) := by
  delta execCrossHbTimeout
  repeat' first
    | with_reducible assumption | with_reducible exact sub_of hw rfl | with_reducible refine outKeeps_next ?_
    | with_reducible apply keeps_islandReport | with_reducible apply keeps_modIsland
    | with_reducible apply keeps_takeCommand | with_reducible refine keeps_ite ?_ ?_
    | with_reducible refine outKeeps_ite ?_ ?_

theorem keeps_execLockstepMismatch (island : Fin 2) (s : State) (h : Keeps w p s) (hw : Sub 0x1100080 w) : OutKeeps w
    p (@execLockstepMismatch island s) := by
  delta execLockstepMismatch
  repeat' first
    | with_reducible assumption | with_reducible exact sub_of hw rfl | with_reducible refine outKeeps_next ?_
    | with_reducible apply keeps_islandDown | with_reducible apply keeps_modIsland
    | with_reducible refine keeps_ite ?_ ?_ | with_reducible refine outKeeps_ite ?_ ?_ | intro _ _ _ _ | intro _ _ _
    | intro _ _
    | (extract_lets +onlyGivenNames x; refine keeps_cut (w := w) (p := p) (v := x) ?_ ?_; rotate_left; clear_value x; revert x; intros; rotate_right; unfold x; clear x)
    | (extract_lets +onlyGivenNames x; clear_value x; revert x; intros)
    | (extract_lets +onlyGivenNames x; revert x; intros) | split
    | with_reducible refine keeps_of_snd ?_ (by assumption) | with_reducible refine keeps_of_fst ?_ (by assumption)

theorem keeps_execPeerFailSignal (island : Fin 2) (s : State) (h : Keeps w p s) (hw : Sub 0x10200c w) : OutKeeps w p
    (@execPeerFailSignal island s) := by
  delta execPeerFailSignal
  repeat' first
    | with_reducible assumption | with_reducible exact sub_of hw rfl | with_reducible refine outKeeps_next ?_
    | with_reducible apply keeps_islandReport | with_reducible apply keeps_modIsland
    | with_reducible apply keeps_takeCommand | with_reducible refine keeps_ite ?_ ?_
    | with_reducible refine outKeeps_ite ?_ ?_

theorem keeps_accelStop (s : State) (i : Nat) (code : Nat) (h : Keeps w p s) (hw : Sub 0x10200c w) : Keeps w p
    (@State.accelStop s i code) := by
  delta State.accelStop
  repeat' first
    | with_reducible assumption | with_reducible exact sub_of hw rfl | with_reducible apply keeps_stopPilot
    | with_reducible apply keeps_modIsland | with_reducible apply keeps_takeCommand
    | with_reducible apply keeps_accelCheck | with_reducible refine keeps_ite ?_ ?_

theorem keeps_execIslandAcceleratorThermalStop (island : Fin 2) (s : State) (h : Keeps w p s) (hw : Sub 0x10200c w) :
    OutKeeps w p (@execIslandAcceleratorThermalStop island s) := by
  delta execIslandAcceleratorThermalStop
  repeat' first
    | with_reducible assumption | with_reducible refine outKeeps_next ?_ | with_reducible apply keeps_accelStop

theorem keeps_modPilot (s : State) (i : Nat) (g : Pilot → Pilot) (h : Keeps w p s) (hw : Sub 0x100000 w) : Keeps w p
    (@State.modPilot s i g) := by
  delta State.modPilot
  repeat' first
    | with_reducible assumption | with_reducible apply keeps_modIsland

theorem keeps_execIslandSensorFrame (island : Fin 2) (input : Fin 3) (edge : Nat) (s : State) (h : Keeps w p s) (hw :
    Sub 0x100000 w) : OutKeeps w p (@execIslandSensorFrame island input edge s) := by
  delta execIslandSensorFrame
  repeat' first
    | with_reducible assumption | with_reducible refine outKeeps_next ?_ | with_reducible apply keeps_modPilot
    | with_reducible refine outKeeps_ite ?_ ?_

theorem keeps_pilotLost (s : State) (i : Nat) (h : Keeps w p s) (hw : Sub 0x10000c w) : Keeps w p (@State.pilotLost s
    i) := by
  delta State.pilotLost
  repeat' first
    | with_reducible assumption | with_reducible exact sub_of hw rfl | with_reducible apply keeps_modPilot
    | with_reducible apply keeps_islandReport | with_reducible refine keeps_ite ?_ ?_

theorem keeps_execPilotCycleStart (island : Fin 2) (s : State) (h : Keeps w p s) (hw : Sub 0x10000c w) : OutKeeps w p
    (@execPilotCycleStart island s) := by
  delta execPilotCycleStart
  repeat' first
    | with_reducible assumption | with_reducible exact sub_of hw rfl | with_reducible refine outKeeps_next ?_
    | with_reducible apply keeps_modPilot | with_reducible apply keeps_pilotLost
    | with_reducible refine keeps_ite ?_ ?_ | with_reducible refine outKeeps_ite ?_ ?_

theorem keeps_pilotGood (s : State) (i : Nat) (full : Bool) (h : Keeps w p s) (hw : Sub 0x10200c w) : Keeps w p
    (@State.pilotGood s i full) := by
  delta State.pilotGood
  repeat' first
    | with_reducible assumption | with_reducible exact sub_of hw rfl | with_reducible apply keeps_modPilot
    | with_reducible apply keeps_judgePilot | with_reducible refine keeps_ite ?_ ?_

theorem keeps_execPilotPublish (island : Fin 2) (cont : List Pose) (stop : List Pose) (grid : List Byte) (s : State)
    (h : Keeps w p s) (hw : Sub 0x10200c w) : OutKeeps w p (@execPilotPublish island cont stop grid s) := by
  delta execPilotPublish
  repeat' first
    | with_reducible assumption | with_reducible exact sub_of hw rfl | with_reducible refine outKeeps_next ?_
    | with_reducible apply keeps_modPilot | with_reducible apply keeps_pilotGood
    | with_reducible apply keeps_islandTraj | with_reducible refine outKeeps_ite ?_ ?_
    | (extract_lets +onlyGivenNames x; clear_value x; revert x; intros) | split

theorem keeps_execPilotDeadline (island : Fin 2) (s : State) (h : Keeps w p s) (hw : Sub 0x10000c w) : OutKeeps w p
    (@execPilotDeadline island s) := by
  delta execPilotDeadline
  repeat' first
    | with_reducible assumption | with_reducible exact sub_of hw rfl | with_reducible refine outKeeps_next ?_
    | with_reducible apply keeps_modPilot | with_reducible apply keeps_islandReport
    | with_reducible apply keeps_pilotLost | with_reducible refine keeps_ite ?_ ?_
    | with_reducible refine outKeeps_ite ?_ ?_ | (extract_lets +onlyGivenNames x; clear_value x; revert x; intros)
    | split

theorem keeps_execHubHeartbeat (s : State) (h : Keeps w p s) (hw : Sub 0x100000 w) : OutKeeps w p (@execHubHeartbeat
    s) := by
  delta execHubHeartbeat
  repeat' first
    | with_reducible assumption | with_reducible refine outKeeps_next ?_ | with_reducible apply keeps_modIsland
    | with_reducible refine keeps_foldl ?_ ?_ | with_reducible refine keeps_ite ?_ ?_
    | with_reducible refine outKeeps_ite ?_ ?_ | intro _ _ _
    | (extract_lets +onlyGivenNames x; clear_value x; revert x; intros)
    | with_reducible refine keeps_set_safety ?_ (sub_of hw rfl)

theorem keeps_execHubHeartbeatLost (island : Fin 2) (s : State) (h : Keeps w p s) (hw : Sub 0x10000c w) : OutKeeps w p
    (@execHubHeartbeatLost island s) := by
  delta execHubHeartbeatLost
  repeat' first
    | with_reducible assumption | with_reducible exact sub_of hw rfl | with_reducible refine outKeeps_next ?_
    | with_reducible apply keeps_islandReport | with_reducible apply keeps_modIsland
    | with_reducible refine outKeeps_ite ?_ ?_

theorem keeps_tryHandback (s : State) (h : Keeps w p s) (hw : Sub 0x10000c w) : Keeps w p (@State.tryHandback s) := by
  delta State.tryHandback
  repeat' first
    | with_reducible assumption | with_reducible exact sub_of hw rfl | with_reducible apply keeps_heartbeat
    | with_reducible apply keeps_setAuthority | with_reducible refine keeps_ite ?_ ?_

theorem keeps_disagree (s : State) (i : Nat) (seq : Nat) (h : Keeps w p s) (hw : Sub 0x10000c w) : Keeps w p
    (@State.disagree s i seq) := by
  delta State.disagree
  repeat' first
    | with_reducible assumption | with_reducible apply keeps_islandReport | with_reducible refine keeps_ite ?_ ?_
    | (extract_lets +onlyGivenNames x; refine keeps_cut (w := w) (p := p) (v := x) ?_ ?_; rotate_left; clear_value x; revert x; intros; rotate_right; unfold x; clear x)
    | (extract_lets +onlyGivenNames x; clear_value x; revert x; intros)
    | (extract_lets +onlyGivenNames x; revert x; intros) | with_reducible refine keeps_set_safety ?_ (sub_of hw rfl)

theorem keeps_countRecord (s : State) (seq : Nat) (good : Bool) (h : Keeps w p s) (hw : Sub 0x100000 w) : Keeps w p
    (@State.countRecord s seq good) := by
  delta State.countRecord
  repeat' first
    | with_reducible assumption | split | with_reducible refine keeps_set_safety ?_ (sub_of hw rfl)

theorem keeps_execPlanRecordRelay (island : Fin 2) (s : State) (h : Keeps w p s) (hw : Sub 0x10000c w) : OutKeeps w p
    (@execPlanRecordRelay island s) := by
  delta execPlanRecordRelay
  repeat' first
    | with_reducible assumption | with_reducible exact sub_of hw rfl | with_reducible refine outKeeps_next ?_
    | with_reducible apply keeps_modIsland | with_reducible apply keeps_disagree
    | with_reducible apply keeps_tryHandback | with_reducible apply keeps_countRecord
    | with_reducible refine keeps_ite ?_ ?_ | with_reducible refine outKeeps_ite ?_ ?_
    | (extract_lets +onlyGivenNames x; clear_value x; revert x; intros) | split

theorem keeps_execMainPlanMissing (island : Fin 2) (s : State) (h : Keeps w p s) (hw : Sub 0x10000c w) : OutKeeps w p
    (@execMainPlanMissing island s) := by
  delta execMainPlanMissing
  repeat' first
    | with_reducible assumption | with_reducible refine outKeeps_next ?_ | with_reducible apply keeps_islandReport
    | with_reducible refine outKeeps_ite ?_ ?_ | (extract_lets +onlyGivenNames x; clear_value x; revert x; intros)
    | with_reducible refine keeps_set_safety ?_ (sub_of hw rfl)

theorem keeps_execAuthorityHeartbeat (s : State) (h : Keeps w p s) (hw : Sub 0x100000 w) : OutKeeps w p
    (@execAuthorityHeartbeat s) := by
  delta execAuthorityHeartbeat
  repeat' first
    | with_reducible assumption | with_reducible refine outKeeps_next ?_ | with_reducible apply keeps_heartbeat
    | with_reducible refine keeps_ite ?_ ?_ | split

theorem keeps_noteStarted (s : State) (h : Keeps w p s) (hw : Sub 0x4000 w) : Keeps w p (@State.noteStarted s) := by
  delta State.noteStarted
  repeat' first
    | with_reducible assumption | (extract_lets +onlyGivenNames x; clear_value x; revert x; intros)
    | with_reducible refine keeps_set_fabric ?_ (sub_of hw rfl)

theorem keeps_killAll (s : State) (status : Nat) (sev : Nat) (h : Keeps w p s) (hw : Sub 0x5c408c w) : Keeps w p
    (@State.killAll s status sev) := by
  delta State.killAll
  repeat' first
    | with_reducible assumption | with_reducible apply keeps_killProgram | with_reducible refine keeps_foldl ?_ ?_
    | intro _ _ _

theorem keeps_reloadOne (s : State) (r : Retained) (h : Keeps w p s) (hw : Sub 0x832c10c w) : Keeps w p
    (@State.reloadOne s r) := by
  delta State.reloadOne
  repeat' first
    | with_reducible assumption | with_reducible exact sub_of hw rfl | with_reducible apply keeps_modProgram
    | with_reducible apply keeps_place | (extract_lets +onlyGivenNames x; clear_value x; revert x; intros) | split

theorem keeps_reload (s : State) (h : Keeps w p s) (hw : Sub 0x832c10c w) : Keeps w p (@State.reload s) := by
  delta State.reload
  repeat' first
    | with_reducible assumption | with_reducible apply keeps_reloadOne | with_reducible refine keeps_foldl ?_ ?_
    | intro _ _ _

theorem keeps_restartOne (s : State) (r : Retained) (h : Keeps w p s) (hw : Sub 0x410608c w) : Keeps w p
    (@State.restartOne s r) := by
  delta State.restartOne
  repeat' first
    | with_reducible assumption | with_reducible exact sub_of hw rfl | with_reducible apply keeps_modProgram
    | with_reducible apply keeps_bookAt | with_reducible apply keeps_report | with_reducible apply keeps_recheckPairs
    | with_reducible refine keeps_ite ?_ ?_ | split

theorem keeps_startRetained (s : State) (h : Keeps w p s) (hw : Sub 0x410608c w) : Keeps w p (@State.startRetained s)
    := by
  delta State.startRetained
  repeat' first
    | with_reducible assumption | with_reducible apply keeps_restartOne | with_reducible refine keeps_foldl ?_ ?_
    | intro _ _ _
    | (extract_lets +onlyGivenNames x; refine keeps_cut (w := w) (p := p) (v := x) ?_ ?_; rotate_left; clear_value x; revert x; intros; rotate_right; unfold x; clear x)
    | (extract_lets +onlyGivenNames x; clear_value x; revert x; intros)
    | with_reducible refine keeps_set_fabric ?_ (sub_of hw rfl)

theorem keeps_forceSplits (s : State) (also : Nat) (h : Keeps w p s) (hw : Sub 0x2004080 w) : Keeps w p
    (@State.forceSplits s also) := by
  delta State.forceSplits
  repeat' first
    | with_reducible assumption | with_reducible exact sub_of hw rfl | with_reducible apply keeps_modProgram
    | with_reducible apply keeps_showJoined | with_reducible refine keeps_foldl ?_ ?_ | intro _ _ _
    | (extract_lets +onlyGivenNames x; clear_value x; revert x; intros)
    | with_reducible refine keeps_set_gauge ?_ (sub_of hw rfl)

theorem keeps_makeRepairs (s : State) (h : Keeps w p s) (hw : Sub 0x590418c w) : Keeps w p (@State.makeRepairs s) := by
  delta State.makeRepairs
  repeat' first
    | with_reducible assumption | with_reducible exact sub_of hw rfl | with_reducible apply keeps_writeField
    | with_reducible apply keeps_repairTile | with_reducible refine keeps_foldl ?_ ?_
    | with_reducible refine keeps_ite ?_ ?_ | intro _ _ _

theorem keeps_dieOut (s : State) (d : Nat) (h : Keeps w p s) (hw : Sub 0x10410c w) : Keeps w p (@State.dieOut s d) := by
  delta State.dieOut
  repeat' first
    | with_reducible assumption | with_reducible exact sub_of hw rfl | with_reducible apply keeps_setDie
    | with_reducible apply keeps_report | split | with_reducible refine keeps_of_snd ?_ (by assumption)
    | with_reducible refine keeps_of_fst ?_ (by assumption)

theorem keeps_beginPass (s : State) (h : Keeps w p s) (hw : Sub 0x4000000 w) : Keeps w p (@State.beginPass s) := by
  delta State.beginPass
  repeat' first
    | with_reducible assumption | with_reducible refine keeps_set_swatch ?_ (sub_of hw rfl)

theorem keeps_beginInjection (s : State) (h : Keeps w p s) (hw : Sub 0x4000080 w) : Keeps w p (@State.beginInjection
    s) := by
  delta State.beginInjection
  repeat' first
    | with_reducible assumption | with_reducible exact sub_of hw rfl | with_reducible apply keeps_setFld
    | (extract_lets +onlyGivenNames x; refine keeps_cut (w := w) (p := p) (v := x) ?_ ?_; rotate_left; clear_value x; revert x; intros; rotate_right; unfold x; clear x)
    | (extract_lets +onlyGivenNames x; clear_value x; revert x; intros)
    | (extract_lets +onlyGivenNames x; revert x; intros) | split
    | with_reducible refine keeps_of_snd ?_ (by assumption) | with_reducible refine keeps_of_fst ?_ (by assumption)
    | with_reducible refine keeps_set_swatch ?_ (sub_of hw rfl)

theorem keeps_resetCd (s : State) (h : Keeps w p s) (hw : Sub 0x4000080 w) : Keeps w p (@State.resetCd s) := by
  delta State.resetCd
  repeat' first
    | with_reducible assumption | with_reducible exact sub_of hw rfl | with_reducible apply keeps_resetFld
    | with_reducible apply keeps_applyMap | with_reducible refine keeps_foldl ?_ ?_ | intro _ _ _ _ | intro _ _ _
    | intro _ _
    | (extract_lets +onlyGivenNames x; refine keeps_cut (w := w) (p := p) (v := x) ?_ ?_; rotate_left; clear_value x; revert x; intros; rotate_right; unfold x; clear x)
    | (extract_lets +onlyGivenNames x; clear_value x; revert x; intros)
    | (extract_lets +onlyGivenNames x; revert x; intros) | split
    | with_reducible refine keeps_of_snd ?_ (by assumption) | with_reducible refine keeps_of_fst ?_ (by assumption)

theorem keeps_clearStandings (s : State) (h : Keeps w p s) (hw : Sub 0xe410200c w) : Keeps w p (@State.clearStandings
    s) := by
  delta State.clearStandings
  repeat' first
    | with_reducible assumption | with_reducible exact sub_of hw rfl | with_reducible apply keeps_planRestart
    | with_reducible apply keeps_withdraw | with_reducible refine keeps_ite ?_ ?_
    | (extract_lets +onlyGivenNames x; clear_value x; revert x; intros)
    | with_reducible refine keeps_set_power_thermal ?_ (sub_of hw rfl)
    | with_reducible refine keeps_set_swatch ?_ (sub_of hw rfl)

theorem keeps_raiseFabric (s : State) (h : Keeps w p s) (hw : Sub 0xe592618c w) : Keeps w p (@State.raiseFabric s) := by
  delta State.raiseFabric
  repeat' first
    | with_reducible assumption | with_reducible exact sub_of hw rfl | with_reducible apply keeps_settleQuadrants
    | with_reducible apply keeps_makeRepairs | with_reducible apply keeps_clearStandings
    | with_reducible apply keeps_resetCd | with_reducible apply keeps_setDie | with_reducible apply keeps_dieOut
    | with_reducible refine keeps_foldl ?_ ?_ | intro _ _ _ _ | intro _ _ _ | intro _ _
    | (extract_lets +onlyGivenNames x; refine keeps_cut (w := w) (p := p) (v := x) ?_ ?_; rotate_left; clear_value x; revert x; intros; rotate_right; unfold x; clear x)
    | (extract_lets +onlyGivenNames x; clear_value x; revert x; intros)
    | (extract_lets +onlyGivenNames x; revert x; intros) | split
    | with_reducible refine keeps_of_snd ?_ (by assumption) | with_reducible refine keeps_of_fst ?_ (by assumption)
    | with_reducible refine keeps_set_fabric ?_ (sub_of hw rfl)
    | with_reducible refine keeps_set_memSys ?_ (sub_of hw rfl)
    | with_reducible refine keeps_set_swatch_power ?_ (sub_of hw rfl)

theorem keeps_startMain (s : State) (h : Keeps w p s) (hw : Sub 0xe792618c w) : Keeps w p (@State.startMain s) := by
  delta State.startMain
  repeat' first
    | with_reducible assumption | with_reducible exact sub_of hw rfl | with_reducible apply keeps_beginInjection
    | with_reducible apply keeps_forceSplits | with_reducible apply keeps_raiseFabric

theorem keeps_settleLinks (s : State) (h : Keeps w p s) (hw : Sub 0x2004180 w) : Keeps w p (@State.settleLinks s) := by
  delta State.settleLinks
  repeat' first
    | with_reducible assumption | with_reducible exact sub_of hw rfl | with_reducible apply keeps_setDie
    | with_reducible apply keeps_forceSplits | with_reducible refine keeps_foldl ?_ ?_
    | with_reducible refine keeps_ite ?_ ?_ | intro _ _ _
    | (extract_lets +onlyGivenNames x; clear_value x; revert x; intros)
    | with_reducible refine keeps_set_fabric ?_ (sub_of hw rfl)

theorem keeps_pathRecord (s : State) (row : Nat) (x2 : Nat) (code : Nat) (h : Keeps w p s) (hw : Sub 0x10000c w) :
    Keeps w p (@State.pathRecord s row x2 code) := by
  delta State.pathRecord
  repeat' first
    | with_reducible assumption | with_reducible exact sub_of hw rfl | with_reducible apply keeps_reportWith
    | with_reducible refine keeps_ite ?_ ?_ | split | with_reducible refine keeps_of_snd ?_ (by assumption)
    | with_reducible refine keeps_of_fst ?_ (by assumption)

theorem keeps_pathRecords (s : State) (h : Keeps w p s) (hw : Sub 0x10000c w) : Keeps w p (@State.pathRecords s) := by
  delta State.pathRecords
  repeat' first
    | with_reducible assumption | with_reducible exact sub_of hw rfl | with_reducible apply keeps_pathRecord
    | with_reducible apply keeps_free | with_reducible refine keeps_foldl ?_ ?_
    | with_reducible refine keeps_foldl_fst ?_ ?_ | with_reducible refine keeps_foldl_snd ?_ ?_ | intro _ _ _ _
    | intro _ _ _ | intro _ _
    | (extract_lets +onlyGivenNames x; refine keeps_cut (w := w) (p := p) (v := x) ?_ ?_; rotate_left; clear_value x; revert x; intros; rotate_right; unfold x; clear x)
    | (extract_lets +onlyGivenNames x; refine keeps_cut (w := w) (p := p) (v := x.1) ?_ ?_; rotate_left; clear_value x; revert x; intros; rotate_right; unfold x; clear x)
    | (extract_lets +onlyGivenNames x; refine keeps_cut (w := w) (p := p) (v := x.2) ?_ ?_; rotate_left; clear_value x; revert x; intros; rotate_right; unfold x; clear x)
    | (extract_lets +onlyGivenNames x; clear_value x; revert x; intros)
    | (extract_lets +onlyGivenNames x; revert x; intros) | split
    | with_reducible refine keeps_of_snd ?_ (by assumption) | with_reducible refine keeps_of_fst ?_ (by assumption)
    | with_reducible refine keeps_of_22 ?_ (by assumption) | with_reducible refine keeps_of_222 ?_ (by assumption)
    | with_reducible refine keeps_of_11 ?_ (by assumption) | with_reducible refine keeps_snd_mk ?_
    | with_reducible refine keeps_fst_mk ?_

theorem keeps_endInjection (s : State) (h : Keeps w p s) (hw : Sub 0x410008c w) : Keeps w p (@State.endInjection s) :=
    by
  delta State.endInjection
  repeat' first
    | with_reducible assumption | with_reducible exact sub_of hw rfl | with_reducible apply keeps_beginPass
    | with_reducible apply keeps_pathRecords | with_reducible apply keeps_setFld
    | with_reducible refine keeps_ite ?_ ?_ | split | with_reducible refine keeps_of_snd ?_ (by assumption)
    | with_reducible refine keeps_of_fst ?_ (by assumption)

theorem keeps_resumeMain (s : State) (h : Keeps w p s) (hw : Sub 0xe32e18c w) : Keeps w p (@State.resumeMain s) := by
  delta State.resumeMain
  repeat' first
    | with_reducible assumption | with_reducible exact sub_of hw rfl | with_reducible apply keeps_settleLinks
    | with_reducible apply keeps_recheckPairs | with_reducible apply keeps_startRetained
    | with_reducible apply keeps_reload

theorem keeps_modWear (s : State) (g : Wear → Wear) (h : Keeps w p s) (hw : Sub 0x200000000 w) : Keeps w p
    (@State.modWear s g) := by
  delta State.modWear
  repeat' first
    | with_reducible assumption | with_reducible refine keeps_set_wear ?_ (sub_of hw rfl)

theorem keeps_showWear (s : State) (h : Keeps w p s) (hw : Sub 0x80 w) : Keeps w p (@State.showWear s) := by
  delta State.showWear
  repeat' first
    | with_reducible assumption | with_reducible apply keeps_setFld

theorem keeps_logWear (s : State) (h : Keeps w p s) (hw : Sub 0x20010000c w) : Keeps w p (@State.logWear s) := by
  delta State.logWear
  repeat' first
    | with_reducible assumption | with_reducible exact sub_of hw rfl | with_reducible apply keeps_report
    | with_reducible apply keeps_modWear | with_reducible refine keeps_ite ?_ ?_

theorem keeps_countLife (s : State) (h : Keeps w p s) (hw : Sub 0x200000000 w) : Keeps w p (@State.countLife s) := by
  delta State.countLife
  repeat' first
    | with_reducible assumption | with_reducible apply keeps_modWear

theorem keeps_writeWear (s : State) (clean : Bool) (h : Keeps w p s) (hw : Sub 0x200800000 w) : Keeps w p
    (@State.writeWear s clean) := by
  delta State.writeWear
  repeat' first
    | with_reducible assumption | with_reducible exact sub_of hw rfl | with_reducible apply keeps_modWear
    | with_reducible apply keeps_flashWrite | with_reducible apply keeps_flashErase
    | with_reducible refine keeps_ite ?_ ?_
    | (extract_lets +onlyGivenNames x; refine keeps_cut (w := w) (p := p) (v := x) ?_ ?_; rotate_left; clear_value x; revert x; intros; rotate_right; unfold x; clear x)
    | (extract_lets +onlyGivenNames x; clear_value x; revert x; intros) | split

theorem keeps_parkWear (s : State) (h : Keeps w p s) (hw : Sub 0x20090000c w) : Keeps w p (@State.parkWear s) := by
  delta State.parkWear
  repeat' first
    | with_reducible assumption | with_reducible exact sub_of hw rfl | with_reducible apply keeps_free
    | with_reducible apply keeps_countLife | with_reducible apply keeps_writeWear | with_reducible apply keeps_report
    | with_reducible refine keeps_ite ?_ ?_
    | (extract_lets +onlyGivenNames x; refine keeps_cut (w := w) (p := p) (v := x) ?_ ?_; rotate_left; clear_value x; revert x; intros; rotate_right; unfold x; clear x)
    | (extract_lets +onlyGivenNames x; refine keeps_cut (w := w) (p := p) (v := x.1) ?_ ?_; rotate_left; clear_value x; revert x; intros; rotate_right; unfold x; clear x)
    | (extract_lets +onlyGivenNames x; refine keeps_cut (w := w) (p := p) (v := x.2) ?_ ?_; rotate_left; clear_value x; revert x; intros; rotate_right; unfold x; clear x)
    | (extract_lets +onlyGivenNames x; clear_value x; revert x; intros)
    | (extract_lets +onlyGivenNames x; revert x; intros) | split
    | with_reducible refine keeps_of_snd ?_ (by assumption) | with_reducible refine keeps_of_fst ?_ (by assumption)
    | with_reducible refine keeps_of_22 ?_ (by assumption) | with_reducible refine keeps_of_222 ?_ (by assumption)
    | with_reducible refine keeps_of_11 ?_ (by assumption)

theorem keeps_startWear (s : State) (key : List Byte) (h : Keeps w p s) (hw : Sub 0x20010008c w) : Keeps w p
    (@State.startWear s key) := by
  delta State.startWear
  repeat' first
    | with_reducible assumption | with_reducible exact sub_of hw rfl | with_reducible apply keeps_showWear
    | with_reducible apply keeps_report | with_reducible apply keeps_modWear
    | (extract_lets +onlyGivenNames x; clear_value x; revert x; intros) | split
    | with_reducible refine keeps_set_wear ?_ (sub_of hw rfl)

theorem keeps_entryRequest (s : State) (x : Nat × Nat) (h : Keeps w p s) (hw : Sub 0x10200c w) : Keeps w p
    (@State.entryRequest s x) := by
  delta State.entryRequest
  repeat' first
    | with_reducible assumption | with_reducible exact sub_of hw rfl | with_reducible apply keeps_event
    | with_reducible apply keeps_report | with_reducible refine keeps_ite ?_ ?_
    | (extract_lets +onlyGivenNames x; clear_value x; revert x; intros)
    | (extract_lets +onlyGivenNames x; revert x; intros) | with_reducible refine keeps_set_degrade ?_ (sub_of hw rfl)
    | with_reducible refine keeps_set_safety ?_ (sub_of hw rfl)

theorem keeps_enterDrive (s : State) (h : Keeps w p s) (hw : Sub 0x34102c0c w) : Keeps w p (@State.enterDrive s) := by
  delta State.enterDrive
  repeat' first
    | with_reducible assumption | with_reducible exact sub_of hw rfl | with_reducible apply keeps_event
    | with_reducible apply keeps_setAuthority | with_reducible apply keeps_entryRequest
    | with_reducible apply keeps_planDrive | with_reducible apply keeps_requestRestart
    | with_reducible refine keeps_foldl ?_ ?_ | with_reducible refine keeps_ite ?_ ?_ | intro _ _ _
    | (extract_lets +onlyGivenNames x; clear_value x; revert x; intros)
    | with_reducible refine keeps_set_mode_transition_degrade_since ?_ (sub_of hw rfl)
    | with_reducible refine keeps_set_safety ?_ (sub_of hw rfl)
    | with_reducible refine keeps_set_swatch ?_ (sub_of hw rfl)

theorem keeps_leaveDrive (s : State) (h : Keeps w p s) (hw : Sub 0x2011200c w) : Keeps w p (@State.leaveDrive s) := by
  delta State.leaveDrive
  repeat' first
    | with_reducible assumption | with_reducible exact sub_of hw rfl | with_reducible apply keeps_event
    | with_reducible apply keeps_stopCycles | with_reducible apply keeps_stopPilots
    | with_reducible apply keeps_setAuthority | with_reducible refine keeps_ite ?_ ?_
    | (extract_lets +onlyGivenNames x; clear_value x; revert x; intros)
    | with_reducible refine keeps_set_degrade_safety ?_ (sub_of hw rfl)
    | with_reducible refine keeps_set_timeBase ?_ (sub_of hw rfl)

theorem keeps_logFree (s : State) (kind : Nat) (rom : Bool) (h : Keeps w p s) (hw : Sub 0x820000c w) : Keeps w p
    (@State.logFree s kind rom) := by
  delta State.logFree
  repeat' first
    | with_reducible assumption | with_reducible exact sub_of hw rfl | with_reducible apply keeps_free
    | with_reducible apply keeps_measure

theorem keeps_drainPf (s : State) (h : Keeps w p s) (hw : Sub 0x58608c w) : Keeps w p (@State.drainPf s) := by
  delta State.drainPf
  repeat' first
    | with_reducible assumption | with_reducible exact sub_of hw rfl | with_reducible apply keeps_settleStart
    | with_reducible apply keeps_modRunning | with_reducible refine keeps_foldl ?_ ?_ | intro _ _ _

theorem keeps_scrubTiles (s : State) (h : Keeps w p s) (hw : Sub 0x4100 w) : Keeps w p (@State.scrubTiles s) := by
  delta State.scrubTiles
  repeat' first
    | with_reducible assumption | (extract_lets +onlyGivenNames x; clear_value x; revert x; intros)
    | with_reducible refine keeps_memFilterFabric ?_ (sub_of hw rfl)

theorem keeps_clearPf (s : State) (h : Keeps w p s) (hw : Sub 0x25e418c w) : Keeps w p (@State.clearPf s) := by
  delta State.clearPf
  repeat' first
    | with_reducible assumption | with_reducible exact sub_of hw rfl | with_reducible apply keeps_scrubTiles
    | with_reducible apply keeps_unloadFunction | with_reducible apply keeps_killFunction

theorem keeps_drainForDay (s : State) (k : Nat) (h : Keeps w p s) (hw : Sub 0x78608c w) : Keeps w p
    (@State.drainForDay s k) := by
  delta State.drainForDay
  repeat' first
    | with_reducible assumption | with_reducible exact sub_of hw rfl | with_reducible apply keeps_stallEvent
    | with_reducible apply keeps_drainStall | with_reducible apply keeps_modStall
    | with_reducible apply keeps_holdArea | with_reducible apply keeps_setStall
    | (extract_lets +onlyGivenNames x; refine keeps_cut (w := w) (p := p) (v := x) ?_ ?_; rotate_left; clear_value x; revert x; intros; rotate_right; unfold x; clear x)
    | split

theorem keeps_startDayOpen (s : State) (thenPark : Bool) (h : Keeps w p s) (hw : Sub 0x1078688c w) : Keeps w p
    (@State.startDayOpen s thenPark) := by
  delta State.startDayOpen
  repeat' first
    | with_reducible assumption | with_reducible exact sub_of hw rfl | with_reducible apply keeps_drainForDay
    | with_reducible apply keeps_report | with_reducible apply keeps_startPilots
    | with_reducible refine keeps_foldl ?_ ?_ | intro _ _ _
    | with_reducible refine keeps_set_transition_since ?_ (sub_of hw rfl)

theorem keeps_abortNightClose (s : State) (thenPark : Bool) (h : Keeps w p s) (hw : Sub 0x327f6d8c w) : Keeps w p
    (@State.abortNightClose s thenPark) := by
  delta State.abortNightClose
  repeat' first
    | with_reducible assumption | with_reducible exact sub_of hw rfl | with_reducible apply keeps_leaveDrive
    | with_reducible apply keeps_startDayOpen | with_reducible apply keeps_clearPf
    | with_reducible refine keeps_ite ?_ ?_
    | (extract_lets +onlyGivenNames x; refine keeps_cut (w := w) (p := p) (v := x) ?_ ?_; rotate_left; clear_value x; revert x; intros; rotate_right; unfold x; clear x)
    | with_reducible refine keeps_set_mode ?_ (sub_of hw rfl)

theorem keeps_nightWake (s : State) (thenPark : Bool) (h : Keeps w p s) (hw : Sub 0x327f6d8c w) : Keeps w p
    (@State.nightWake s thenPark) := by
  delta State.nightWake
  repeat' first
    | with_reducible assumption | with_reducible exact sub_of hw rfl | with_reducible apply keeps_abortNightClose
    | with_reducible apply keeps_startDayOpen | with_reducible refine keeps_ite ?_ ?_ | split

theorem keeps_startPark (s : State) (h : Keeps w p s) (hw : Sub 0x1058688c w) : Keeps w p (@State.startPark s) := by
  delta State.startPark
  repeat' first
    | with_reducible assumption | with_reducible exact sub_of hw rfl | with_reducible apply keeps_drainPf
    | with_reducible refine keeps_set_transition_since ?_ (sub_of hw rfl)

theorem keeps_startNightClose (s : State) (h : Keeps w p s) (hw : Sub 0x1058688c w) : Keeps w p
    (@State.startNightClose s) := by
  delta State.startNightClose
  repeat' first
    | with_reducible assumption | with_reducible exact sub_of hw rfl | with_reducible apply keeps_drainPf
    | with_reducible apply keeps_noteStarted | with_reducible refine keeps_set_transition_since ?_ (sub_of hw rfl)

theorem keeps_evalMode (s : State) (m : Nat) (h : Keeps w p s) (hw : Sub 0x1078688c w) : Keeps w p (@State.evalMode s
    m) := by
  delta State.evalMode
  repeat' first
    | with_reducible assumption | with_reducible exact sub_of hw rfl | with_reducible apply keeps_startPark
    | with_reducible apply keeps_refuse | with_reducible apply keeps_refuseAt
    | with_reducible apply keeps_startNightClose | with_reducible apply keeps_startDayOpen
    | with_reducible refine keeps_ite ?_ ?_ | split

theorem keeps_requestMode (s : State) (m : Nat) (h : Keeps w p s) (hw : Sub 0x327f7d8c w) : Keeps w p
    (@State.requestMode s m) := by
  delta State.requestMode
  repeat' first
    | with_reducible assumption | with_reducible exact sub_of hw rfl | with_reducible apply keeps_evalMode
    | with_reducible apply keeps_abortNightClose | with_reducible refine keeps_ite ?_ ?_ | split
    | with_reducible refine keeps_set_deferred ?_ (sub_of hw rfl)

theorem keeps_settleModes (x0 : Nat) (x1 : State) (h : Keeps w p x1) (hw : Sub 0x1078788c w) : Keeps w p (@settleModes
    x0 x1) := by
  induction x0 generalizing x1 with
  | zero => exact h
  | succ n ih =>
    unfold settleModes
    split
    · exact h
    · exact keeps_ite (ih _ (keeps_evalMode (hw := sub_of hw rfl) _ _ (keeps_set_deferred h (sub_of hw rfl)))) h

theorem keeps_settleMode (s : State) (h : Keeps w p s) (hw : Sub 0x1078788c w) : Keeps w p (@State.settleMode s) := by
  delta State.settleMode
  repeat' first
    | with_reducible assumption | with_reducible exact sub_of hw rfl | with_reducible apply keeps_settleModes | split

theorem keeps_execModeReqPark (s : State) (h : Keeps w p s) (hw : Sub 0x327f7d8c w) : OutKeeps w p (@execModeReqPark
    s) := by
  delta execModeReqPark
  repeat' first
    | with_reducible assumption | with_reducible refine outKeeps_next ?_ | with_reducible apply keeps_requestMode

theorem keeps_execModeReqNightMarket (s : State) (h : Keeps w p s) (hw : Sub 0x327f7d8c w) : OutKeeps w p
    (@execModeReqNightMarket s) := by
  delta execModeReqNightMarket
  repeat' first
    | with_reducible assumption | with_reducible refine outKeeps_next ?_ | with_reducible apply keeps_requestMode

theorem keeps_execModeReqDrive (thenPark : Bool) (s : State) (h : Keeps w p s) (hw : Sub 0x327f7d8c w) : OutKeeps w p
    (@execModeReqDrive thenPark s) := by
  delta execModeReqDrive
  repeat' first
    | with_reducible assumption | with_reducible refine outKeeps_next ?_ | with_reducible apply keeps_requestMode

theorem keeps_execNightCloseDone (s : State) (h : Keeps w p s) (hw : Sub 0x3a7f7d8c w) : OutKeeps w p
    (@execNightCloseDone s) := by
  delta execNightCloseDone
  repeat' first
    | with_reducible assumption | with_reducible exact sub_of hw rfl | with_reducible refine outKeeps_next ?_
    | with_reducible apply keeps_killFunction | with_reducible apply keeps_clearPf
    | with_reducible apply keeps_leaveDrive | with_reducible apply keeps_logFree
    | with_reducible apply keeps_settleMode | with_reducible apply keeps_report
    | with_reducible refine outKeeps_ite ?_ ?_
    | (extract_lets +onlyGivenNames x; refine keeps_cut (w := w) (p := p) (v := x) ?_ ?_; rotate_left; clear_value x; revert x; intros; rotate_right; unfold x; clear x)
    | split | with_reducible refine keeps_set_mode ?_ (sub_of hw rfl)
    | with_reducible refine keeps_set_transition_since ?_ (sub_of hw rfl)

theorem keeps_closeForDay (s : State) (k : Nat) (h : Keeps w p s) (hw : Sub 0x2a7e418c w) : Keeps w p
    (@State.closeForDay s k) := by
  delta State.closeForDay
  repeat' first
    | with_reducible assumption | with_reducible exact sub_of hw rfl | with_reducible apply keeps_stallCode
    | with_reducible apply keeps_report | with_reducible apply keeps_killFunction
    | with_reducible apply keeps_stallEvent | with_reducible apply keeps_logStall
    | with_reducible apply keeps_shutStall | with_reducible apply keeps_modStall
    | with_reducible apply keeps_clearStall | with_reducible apply keeps_sealRegion
    | with_reducible apply keeps_holdArea | with_reducible refine keeps_ite ?_ ?_

theorem keeps_execDayOpenStallsCleared (s : State) (h : Keeps w p s) (hw : Sub 0x2a7e498c w) : OutKeeps w p
    (@execDayOpenStallsCleared s) := by
  delta execDayOpenStallsCleared
  repeat' first
    | with_reducible assumption | with_reducible exact sub_of hw rfl | with_reducible refine outKeeps_next ?_
    | with_reducible apply keeps_closeForDay | with_reducible refine keeps_foldl ?_ ?_
    | with_reducible refine outKeeps_ite ?_ ?_ | intro _ _ _
    | (extract_lets +onlyGivenNames x; refine keeps_cut (w := w) (p := p) (v := x) ?_ ?_; rotate_left; clear_value x; revert x; intros; rotate_right; unfold x; clear x)
    | split | with_reducible refine keeps_set_transition ?_ (sub_of hw rfl)

theorem keeps_scrubRegion (s : State) (k : Nat) (h : Keeps w p s) (hw : Sub 0x220100 w) : Keeps w p
    (@State.scrubRegion s k) := by
  delta State.scrubRegion
  repeat' first
    | with_reducible assumption | with_reducible exact sub_of hw rfl | with_reducible apply keeps_modStall
    | with_reducible apply keeps_zeroHbm | with_reducible refine keeps_ite ?_ ?_

theorem keeps_execDayOpenScrubDone (s : State) (h : Keeps w p s) (hw : Sub 0x432690c w) : OutKeeps w p
    (@execDayOpenScrubDone s) := by
  delta execDayOpenScrubDone
  repeat' first
    | with_reducible assumption | with_reducible exact sub_of hw rfl | with_reducible refine outKeeps_next ?_
    | with_reducible apply keeps_restore | with_reducible apply keeps_scrubTiles
    | with_reducible apply keeps_scrubRegion | with_reducible apply keeps_beginPass
    | with_reducible refine keeps_foldl ?_ ?_ | intro _ _ _
    | (extract_lets +onlyGivenNames x; refine keeps_cut (w := w) (p := p) (v := x) ?_ ?_; rotate_left; clear_value x; revert x; intros; rotate_right; unfold x; clear x)
    | split | with_reducible refine keeps_set_transition ?_ (sub_of hw rfl)

theorem keeps_powerDown (s : State) (h : Keeps w p s) (hw : Sub 0x1184180 w) : Keeps w p (@State.powerDown s) := by
  delta State.powerDown
  repeat' first
    | with_reducible assumption | with_reducible exact sub_of hw rfl | with_reducible apply keeps_setDie
    | with_reducible apply keeps_stopRings | with_reducible apply keeps_setFld
    | with_reducible refine keeps_foldl ?_ ?_ | intro _ _ _
    | (extract_lets +onlyGivenNames x; refine keeps_cut (w := w) (p := p) (v := x) ?_ ?_; rotate_left; clear_value x; revert x; intros; rotate_right; unfold x; clear x)
    | (extract_lets +onlyGivenNames x; clear_value x; revert x; intros)
    | with_reducible refine keeps_memNilBoot ?_ (sub_of hw rfl)
    | with_reducible refine keeps_set_host ?_ (sub_of hw rfl)

theorem keeps_enterPark (s : State) (h : Keeps w p s) (hw : Sub 0x301984d8c w) : Keeps w p (@State.enterPark s) := by
  delta State.enterPark
  repeat' first
    | with_reducible assumption | with_reducible exact sub_of hw rfl | with_reducible apply keeps_powerDown
    | with_reducible apply keeps_parkWear | with_reducible apply keeps_report
    | (extract_lets +onlyGivenNames x; refine keeps_cut (w := w) (p := p) (v := x) ?_ ?_; rotate_left; clear_value x; revert x; intros; rotate_right; unfold x; clear x)
    | (extract_lets +onlyGivenNames x; clear_value x; revert x; intros)
    | with_reducible refine keeps_set_transition_wake ?_ (sub_of hw rfl)
    | with_reducible refine keeps_set_mode ?_ (sub_of hw rfl)

theorem keeps_execDayOpenAttested (digestOk : Bool) (s : State) (h : Keeps w p s) (hw : Sub 0x319f87d8c w) : OutKeeps
    w p (@execDayOpenAttested digestOk s) := by
  delta execDayOpenAttested
  repeat' first
    | with_reducible assumption | with_reducible exact sub_of hw rfl | with_reducible refine outKeeps_next ?_
    | with_reducible apply keeps_logFree | with_reducible apply keeps_setFld | with_reducible apply keeps_report
    | with_reducible apply keeps_settleMode | with_reducible apply keeps_enterPark
    | with_reducible apply keeps_stopPilots | with_reducible refine outKeeps_ite ?_ ?_
    | (extract_lets +onlyGivenNames x; refine keeps_cut (w := w) (p := p) (v := x) ?_ ?_; rotate_left; clear_value x; revert x; intros; rotate_right; unfold x; clear x)
    | split | with_reducible refine keeps_set_transition ?_ (sub_of hw rfl)

theorem keeps_execDayOpenDone (s : State) (h : Keeps w p s) (hw : Sub 0x3c7afd8c w) : OutKeeps w p (@execDayOpenDone
    s) := by
  delta execDayOpenDone
  repeat' first
    | with_reducible assumption | with_reducible exact sub_of hw rfl | with_reducible refine outKeeps_next ?_
    | with_reducible apply keeps_startRetained | with_reducible apply keeps_reload
    | with_reducible apply keeps_modStall | with_reducible apply keeps_report | with_reducible apply keeps_enterDrive
    | with_reducible apply keeps_settleMode | with_reducible apply keeps_evalMode
    | with_reducible refine keeps_foldl ?_ ?_ | with_reducible refine keeps_ite ?_ ?_
    | with_reducible refine outKeeps_ite ?_ ?_ | intro _ _ _
    | (extract_lets +onlyGivenNames x; refine keeps_cut (w := w) (p := p) (v := x) ?_ ?_; rotate_left; clear_value x; revert x; intros; rotate_right; unfold x; clear x)
    | split

theorem keeps_execDayOpenLate (s : State) (h : Keeps w p s) (hw : Sub 0x10080c w) : OutKeeps w p (@execDayOpenLate s)
    := by
  delta execDayOpenLate
  repeat' first
    | with_reducible assumption | with_reducible exact sub_of hw rfl | with_reducible refine outKeeps_next ?_
    | with_reducible apply keeps_report | with_reducible refine outKeeps_ite ?_ ?_ | split
    | with_reducible refine keeps_set_transition ?_ (sub_of hw rfl)

theorem keeps_modRestart (s : State) (g : Restart → Restart) (h : Keeps w p s) (hw : Sub 0x100000 w) : Keeps w p
    (@State.modRestart s g) := by
  delta State.modRestart
  repeat' first
    | with_reducible assumption | with_reducible refine keeps_set_safety ?_ (sub_of hw rfl)

theorem keeps_execMainRestartStart (s : State) (h : Keeps w p s) (hw : Sub 0xe7de618c w) : OutKeeps w p
    (@execMainRestartStart s) := by
  delta execMainRestartStart
  repeat' first
    | with_reducible assumption | with_reducible exact sub_of hw rfl | with_reducible refine outKeeps_next ?_
    | with_reducible apply keeps_modRestart | with_reducible apply keeps_event | with_reducible apply keeps_report
    | with_reducible apply keeps_killAll | with_reducible apply keeps_noteStarted
    | with_reducible apply keeps_startMain | with_reducible apply keeps_unloadFunction
    | with_reducible refine outKeeps_ite ?_ ?_

theorem keeps_execMainRestartDone (s : State) (h : Keeps w p s) (hw : Sub 0x8010208c w) : OutKeeps w p
    (@execMainRestartDone s) := by
  delta execMainRestartDone
  repeat' first
    | with_reducible assumption | with_reducible exact sub_of hw rfl | with_reducible refine outKeeps_next ?_
    | with_reducible apply keeps_modRestart | with_reducible apply keeps_event | with_reducible apply keeps_report
    | with_reducible apply keeps_withdraw | with_reducible apply keeps_setFld | with_reducible apply keeps_setGauge
    | with_reducible apply keeps_recheckPairs | with_reducible refine outKeeps_ite ?_ ?_
    | (extract_lets +onlyGivenNames x; clear_value x; revert x; intros) | split
    | with_reducible refine keeps_set_safety_thermal ?_ (sub_of hw rfl)

theorem keeps_execMainRestartFail (s : State) (h : Keeps w p s) (hw : Sub 0x10000c w) : OutKeeps w p
    (@execMainRestartFail s) := by
  delta execMainRestartFail
  repeat' first
    | with_reducible assumption | with_reducible exact sub_of hw rfl | with_reducible refine outKeeps_next ?_
    | with_reducible apply keeps_modRestart | with_reducible apply keeps_event | with_reducible apply keeps_report
    | with_reducible refine outKeeps_ite ?_ ?_

end Sys2Proof.Machine
end

