-- ==== Sys2Proof/Laws/KeepsPower.lean ====
section
/-!
SUPPORT. Laws/KeepsPower.lean: what each operation and command keeps (the time base, messages, swatches, power, cooling, boot); `keeps_x` is about `x`, whose
components of State are the bits of its `Sub`.
-/

namespace Sys2Proof.Machine

variable {w : Nat} {p : State}

theorem keeps_modTime (s : State) (g : TimeBase → TimeBase) (h : Keeps w p s) (hw : Sub 0x10000 w) : Keeps w p
    (@State.modTime s g) := by
  delta State.modTime
  repeat' first
    | with_reducible assumption | with_reducible refine keeps_set_timeBase ?_ (sub_of hw rfl)

theorem time_lt (i : Int) : (i % (two64 : Int)).toNat < two64 := by
  have h1 := Int.emod_nonneg i (b := (two64 : Int)) (by decide)
  have h2 := Int.emod_lt_of_pos i (b := (two64 : Int)) (by decide)
  omega

theorem keeps_moveTime (s : State) (offset : Int) (h : Keeps w p s) (hw : Sub 0x400008002 w) : Keeps w p
    (@State.moveTime s offset) := by
  exact keeps_nowStep (time_lt _) h (sub_of hw rfl)

theorem keeps_timeStep (s : State) (offset : Int) (h : Keeps w p s) (hw : Sub 0x40011800e w) : Keeps w p
    (@State.timeStep s offset) := by
  delta State.timeStep
  repeat' first
    | with_reducible assumption | with_reducible exact sub_of hw rfl | with_reducible apply keeps_moveTime
    | with_reducible apply keeps_modTime | with_reducible apply keeps_report | intro _ _ _ _ | intro _ _ _ | intro _ _
    | (extract_lets +onlyGivenNames x; refine keeps_cut (w := w) (p := p) (v := x) ?_ ?_; rotate_left; clear_value x; revert x; intros; rotate_right; unfold x; clear x)
    | (extract_lets +onlyGivenNames x; clear_value x; revert x; intros)
    | (extract_lets +onlyGivenNames x; revert x; intros) | split
    | with_reducible refine keeps_of_snd ?_ (by assumption) | with_reducible refine keeps_of_fst ?_ (by assumption)

theorem keeps_takeSync (s : State) (offset : Int) (freqAdj : Int) (seq : Nat) (h : Keeps w p s) (hw : Sub 0x60011800e
    w) : Keeps w p (@State.takeSync s offset freqAdj seq) := by
  delta State.takeSync
  repeat' first
    | with_reducible assumption | with_reducible exact sub_of hw rfl | with_reducible apply keeps_modTime
    | with_reducible apply keeps_timeStep | with_reducible apply keeps_report | with_reducible refine keeps_ite ?_ ?_
    | with_reducible refine keeps_set_wear ?_ (sub_of hw rfl)

theorem keeps_execGptpSyncRx (mac : Fin 6) (offset : Int) (freqAdj : Int) (cbSeq : Nat) (s : State) (h : Keeps w p s)
    (hw : Sub 0x60011800e w) : OutKeeps w p (@execGptpSyncRx mac offset freqAdj cbSeq s) := by
  delta execGptpSyncRx
  repeat' first
    | with_reducible assumption | with_reducible exact sub_of hw rfl | with_reducible refine outKeeps_next ?_
    | with_reducible apply keeps_modTime | with_reducible apply keeps_takeSync
    | with_reducible refine outKeeps_ite ?_ ?_

theorem keeps_execGptpPdelayReqRx (mac : Fin 6) (s : State) (h : Keeps w p s) (hw : Sub 0x10000 w) : OutKeeps w p
    (@execGptpPdelayReqRx mac s) := by
  delta execGptpPdelayReqRx
  repeat' first
    | with_reducible assumption | with_reducible refine outKeeps_next ?_ | with_reducible apply keeps_modTime
    | with_reducible refine outKeeps_ite ?_ ?_

theorem keeps_execGptpPdelayRespRx (mac : Fin 6) (delay : Nat) (s : State) (h : Keeps w p s) (hw : Sub 0x10000 w) :
    OutKeeps w p (@execGptpPdelayRespRx mac delay s) := by
  delta execGptpPdelayRespRx
  repeat' first
    | with_reducible assumption | with_reducible refine outKeeps_next ?_ | with_reducible apply keeps_modTime
    | with_reducible refine outKeeps_ite ?_ ?_

theorem keeps_execSyncTimeout (s : State) (h : Keeps w p s) (hw : Sub 0x11000c w) : OutKeeps w p (@execSyncTimeout s)
    := by
  delta execSyncTimeout
  repeat' first
    | with_reducible assumption | with_reducible exact sub_of hw rfl | with_reducible refine outKeeps_next ?_
    | with_reducible apply keeps_report | with_reducible apply keeps_modTime
    | with_reducible refine outKeeps_ite ?_ ?_

theorem keeps_execHoldoverLimit (s : State) (h : Keeps w p s) (hw : Sub 0x11000c w) : OutKeeps w p (@execHoldoverLimit
    s) := by
  delta execHoldoverLimit
  repeat' first
    | with_reducible assumption | with_reducible exact sub_of hw rfl | with_reducible refine outKeeps_next ?_
    | with_reducible apply keeps_report | with_reducible apply keeps_modTime
    | with_reducible refine outKeeps_ite ?_ ?_

theorem keeps_tick (s : State) (h : Keeps w p s) (hw : Sub 0x11200e w) : Keeps w p (@State.tick s) := by
  delta State.tick
  have h1 : Keeps w p { s with now := (s.now + 1) % two64 } := keeps_now (Nat.mod_lt _ (by decide)) h (sub_of hw rfl)
  exact keeps_lowerDeferred (hw := sub_of hw rfl) _ (keeps_set_safety (keeps_ite (keeps_modTime (hw := sub_of hw rfl) _ _ h1) h) (sub_of hw rfl))

theorem keeps_execHubTrajSend (s : State) (h : Keeps w p s) (hw : Sub 0x100000 w) : OutKeeps w p (@execHubTrajSend s)
    := by
  delta execHubTrajSend
  repeat' first
    | with_reducible assumption | with_reducible refine outKeeps_next ?_ | with_reducible apply keeps_send
    | with_reducible refine outKeeps_ite ?_ ?_ | (extract_lets +onlyGivenNames x; clear_value x; revert x; intros)
    | split | with_reducible refine keeps_set_safety ?_ (sub_of hw rfl)

theorem keeps_noteStatus (s : State) (k : Nat) (h : Keeps w p s) (hw : Sub 0x100000 w) : Keeps w p (@State.noteStatus
    s k) := by
  delta State.noteStatus
  repeat' first
    | with_reducible assumption | with_reducible exact sub_of hw rfl | with_reducible apply keeps_modIsland
    | with_reducible refine keeps_ite ?_ ?_ | intro _ _ _ _ | intro _ _ _ | intro _ _ | split
    | with_reducible refine keeps_of_snd ?_ (by assumption) | with_reducible refine keeps_of_fst ?_ (by assumption)
    | with_reducible refine keeps_set_safety ?_ (sub_of hw rfl)

theorem keeps_execStatusSend (sender : Fin 3) (s : State) (h : Keeps w p s) (hw : Sub 0x100000 w) : OutKeeps w p
    (@execStatusSend sender s) := by
  delta execStatusSend
  repeat' first
    | with_reducible assumption | with_reducible refine outKeeps_next ?_ | with_reducible apply keeps_noteStatus
    | with_reducible apply keeps_send | with_reducible refine outKeeps_ite ?_ ?_

theorem keeps_rxBad (s : State) (i : Nat) (h : Keeps w p s) (hw : Sub 0x10000c w) : Keeps w p (@State.rxBad s i) := by
  delta State.rxBad
  repeat' first
    | with_reducible assumption | with_reducible exact sub_of hw rfl | with_reducible apply keeps_islandReport
    | with_reducible apply keeps_modIsland | with_reducible refine keeps_ite ?_ ?_

theorem keeps_receive (s : State) (m : CanRx) (kind : Nat) (h : Keeps w p s) (hw : Sub 0x10000c w) : Keeps w p
    (@State.receive s m kind).2 := by
  delta State.receive
  repeat' first
    | with_reducible assumption | with_reducible exact sub_of hw rfl | with_reducible apply keeps_rxBad
    | with_reducible apply keeps_modIsland | (extract_lets +onlyGivenNames x; clear_value x; revert x; intros) | split

theorem keeps_execVehicleState (m : CanRx) (speed : Nat) (yawRate : Nat) (accel : Nat) (gear : Nat) (mrmActive : Bool)
    (s : State) (h : Keeps w p s) (hw : Sub 0x327f6d8c w) : OutKeeps w p (@execVehicleState m speed yawRate accel gear
    mrmActive s) := by
  delta execVehicleState
  repeat' first
    | with_reducible assumption | with_reducible exact sub_of hw rfl | with_reducible refine outKeeps_next ?_
    | with_reducible apply keeps_receive | with_reducible apply keeps_modIsland | with_reducible apply keeps_nightWake
    | with_reducible refine keeps_ite ?_ ?_ | with_reducible refine outKeeps_ite ?_ ?_

theorem keeps_execYield (m : CanRx) (targetRole : Bool) (s : State) (h : Keeps w p s) (hw : Sub 0x14000c w) : OutKeeps
    w p (@execYield m targetRole s) := by
  delta execYield
  repeat' first
    | with_reducible assumption | with_reducible exact sub_of hw rfl | with_reducible refine outKeeps_next ?_
    | with_reducible apply keeps_receive | with_reducible apply keeps_setPair | with_reducible apply keeps_setCommand
    | with_reducible refine outKeeps_ite ?_ ?_

theorem keeps_execCommandTake (m : CanRx) (targetRole : Bool) (peerYielded : Bool) (s : State) (h : Keeps w p s) (hw :
    Sub 0x14000c w) : OutKeeps w p (@execCommandTake m targetRole peerYielded s) := by
  delta execCommandTake
  repeat' first
    | with_reducible assumption | with_reducible exact sub_of hw rfl | with_reducible refine outKeeps_next ?_
    | with_reducible apply keeps_receive | with_reducible apply keeps_setPair | with_reducible apply keeps_setCommand
    | with_reducible apply keeps_report | with_reducible refine outKeeps_ite ?_ ?_

theorem keeps_execCanBusOff (controller : Fin 8) (s : State) (h : Keeps w p s) (hw : Sub 0x10000c w) : OutKeeps w p
    (@execCanBusOff controller s) := by
  delta execCanBusOff
  repeat' first
    | with_reducible assumption | with_reducible refine outKeeps_next ?_ | with_reducible apply keeps_report
    | with_reducible apply keeps_islandReport | with_reducible refine keeps_ite ?_ ?_
    | with_reducible refine outKeeps_ite ?_ ?_ | (extract_lets +onlyGivenNames x; clear_value x; revert x; intros)
    | with_reducible refine keeps_set_safety ?_ (sub_of hw rfl)

theorem keeps_execCanBusOffRecovery (controller : Fin 8) (s : State) (h : Keeps w p s) (hw : Sub 0x100000 w) :
    OutKeeps w p (@execCanBusOffRecovery controller s) := by
  delta execCanBusOffRecovery
  repeat' first
    | with_reducible assumption | with_reducible refine outKeeps_next ?_
    | with_reducible refine keeps_set_safety ?_ (sub_of hw rfl)

theorem keeps_disturb (s : State) (r : SliceRef) (h : Keeps w p s) (hw : Sub 0x4008 w) : Keeps w p (@State.disturb s
    r) := by
  delta State.disturb
  dsimp only
  refine keeps_ite ?_ h
  exact keeps_set_fabric (keeps_freeMany h (sub_of hw rfl)) (sub_of hw rfl)

theorem keeps_execSwatchSliceStart (r : SliceRef) (gapEnd : Nat) (s : State) (h : Keeps w p s) (hw : Sub 0x410408c w)
    : OutKeeps w p (@execSwatchSliceStart r gapEnd s) := by
  delta execSwatchSliceStart
  repeat' first
    | with_reducible assumption | with_reducible exact sub_of hw rfl | with_reducible refine outKeeps_next ?_
    | with_reducible apply keeps_endInjection | with_reducible apply keeps_disturb
    | with_reducible refine keeps_ite ?_ ?_ | with_reducible refine outKeeps_ite ?_ ?_ | intro _ _ _ _ | intro _ _ _
    | intro _ _
    | (extract_lets +onlyGivenNames x; refine keeps_cut (w := w) (p := p) (v := x) ?_ ?_; rotate_left; clear_value x; revert x; intros; rotate_right; unfold x; clear x)
    | (extract_lets +onlyGivenNames x; clear_value x; revert x; intros)
    | (extract_lets +onlyGivenNames x; revert x; intros) | split
    | with_reducible refine keeps_of_snd ?_ (by assumption) | with_reducible refine keeps_of_fst ?_ (by assumption)
    | with_reducible refine keeps_set_swatch ?_ (sub_of hw rfl)

theorem keeps_execSwatchSliceEnd (r : SliceRef) (s : State) (h : Keeps w p s) (hw : Sub 0x4000000 w) : OutKeeps w p
    (@execSwatchSliceEnd r s) := by
  delta execSwatchSliceEnd
  repeat' first
    | with_reducible assumption | with_reducible refine outKeeps_next ?_
    | (extract_lets +onlyGivenNames x; clear_value x; revert x; intros)
    | with_reducible refine keeps_set_swatch ?_ (sub_of hw rfl)

theorem keeps_sliceConsequence (s : State) (r : SliceRef) (rows : List (Nat × Nat)) (h : Keeps w p s) (hw : Sub
    0xaffc618c w) : Keeps w p (@State.sliceConsequence s r rows) := by
  delta State.sliceConsequence
  repeat' first
    | with_reducible assumption | with_reducible exact sub_of hw rfl | with_reducible apply keeps_stallFault
    | with_reducible apply keeps_tileFault | with_reducible apply keeps_targetFailed
    | with_reducible apply keeps_requestRestart | with_reducible apply keeps_laneOut
    | with_reducible apply keeps_report | with_reducible apply keeps_accelStop | with_reducible refine keeps_ite ?_ ?_
    | (extract_lets +onlyGivenNames x; refine keeps_cut (w := w) (p := p) (v := x) ?_ ?_; rotate_left; clear_value x; revert x; intros; rotate_right; unfold x; clear x)
    | (extract_lets +onlyGivenNames x; clear_value x; revert x; intros) | split
    | with_reducible refine keeps_set_swatch ?_ (sub_of hw rfl)
    | with_reducible refine keeps_set_thermal ?_ (sub_of hw rfl)

theorem keeps_rowsFound (s : State) (r : SliceRef) (h : Keeps w p s) (hw : Sub 0x8 w) : Keeps w p (@State.rowsFound s
    r).2 := by
  delta State.rowsFound
  split
  · exact keeps_freeCount h hw
  · exact keeps_freeCount h hw
  · exact keeps_freeCount h hw
  · exact h

theorem keeps_sliceFail (s : State) (r : SliceRef) (h : Keeps w p s) (hw : Sub 0xaffc618c w) : Keeps w p
    (@State.sliceFail s r) := by
  delta State.sliceFail
  repeat' first
    | with_reducible assumption | with_reducible exact sub_of hw rfl | with_reducible apply keeps_rowsFound
    | with_reducible apply keeps_count | with_reducible apply keeps_sliceConsequence
    | with_reducible apply keeps_report | with_reducible refine keeps_ite ?_ ?_
    | (extract_lets +onlyGivenNames x; refine keeps_cut (w := w) (p := p) (v := x.1) ?_ ?_; rotate_left; clear_value x; revert x; intros; rotate_right; unfold x; clear x)
    | (extract_lets +onlyGivenNames x; refine keeps_cut (w := w) (p := p) (v := x.2) ?_ ?_; rotate_left; clear_value x; revert x; intros; rotate_right; unfold x; clear x)
    | with_reducible refine keeps_of_22 ?_ (by assumption) | with_reducible refine keeps_of_222 ?_ (by assumption)
    | with_reducible refine keeps_of_11 ?_ (by assumption) | with_reducible refine keeps_set_swatch ?_ (sub_of hw rfl)

theorem keeps_cover (s : State) (target : Nat) (h : Keeps w p s) (hw : Sub 0x6000080 w) : Keeps w p (@State.cover s
    target) := by
  delta State.cover
  repeat' first
    | with_reducible assumption | with_reducible exact sub_of hw rfl | with_reducible apply keeps_targetPassed
    | with_reducible refine keeps_ite ?_ ?_ | with_reducible refine keeps_set_swatch ?_ (sub_of hw rfl)

theorem keeps_slicePass (s : State) (r : SliceRef) (h : Keeps w p s) (hw : Sub 0x6000080 w) : Keeps w p
    (@State.slicePass s r) := by
  delta State.slicePass
  repeat' first
    | with_reducible assumption | with_reducible exact sub_of hw rfl | with_reducible apply keeps_count
    | with_reducible apply keeps_cover | with_reducible refine keeps_ite ?_ ?_ | split
    | with_reducible refine keeps_set_swatch ?_ (sub_of hw rfl)

theorem keeps_compareSlice (s : State) (r : SliceRef) (ok : Bool) (h : Keeps w p s) (hw : Sub 0x4000008 w) : Keeps w p
    (@State.compareSlice s r ok) := by
  delta State.compareSlice
  repeat' first
    | with_reducible assumption | with_reducible exact sub_of hw rfl | with_reducible apply keeps_free
    | with_reducible refine keeps_ite ?_ ?_
    | (extract_lets +onlyGivenNames x; refine keeps_cut (w := w) (p := p) (v := x) ?_ ?_; rotate_left; clear_value x; revert x; intros; rotate_right; unfold x; clear x)
    | (extract_lets +onlyGivenNames x; refine keeps_cut (w := w) (p := p) (v := x.1) ?_ ?_; rotate_left; clear_value x; revert x; intros; rotate_right; unfold x; clear x)
    | (extract_lets +onlyGivenNames x; refine keeps_cut (w := w) (p := p) (v := x.2) ?_ ?_; rotate_left; clear_value x; revert x; intros; rotate_right; unfold x; clear x)
    | (extract_lets +onlyGivenNames x; clear_value x; revert x; intros)
    | (extract_lets +onlyGivenNames x; revert x; intros) | split
    | with_reducible refine keeps_of_snd ?_ (by assumption) | with_reducible refine keeps_of_fst ?_ (by assumption)
    | with_reducible refine keeps_of_22 ?_ (by assumption) | with_reducible refine keeps_of_222 ?_ (by assumption)
    | with_reducible refine keeps_of_11 ?_ (by assumption) | with_reducible refine keeps_set_swatch ?_ (sub_of hw rfl)

theorem keeps_execSwatchVerdict (r : SliceRef) (signatureOk : Bool) (s : State) (h : Keeps w p s) (hw : Sub 0xaffc618c
    w) : OutKeeps w p (@execSwatchVerdict r signatureOk s) := by
  delta execSwatchVerdict
  repeat' first
    | with_reducible assumption | with_reducible exact sub_of hw rfl | with_reducible refine outKeeps_next ?_
    | with_reducible apply keeps_compareSlice | with_reducible apply keeps_slicePass
    | with_reducible apply keeps_sliceFail | with_reducible apply keeps_report
    | with_reducible refine outKeeps_ite ?_ ?_ | (extract_lets +onlyGivenNames x; clear_value x; revert x; intros)
    | split | with_reducible refine keeps_set_swatch ?_ (sub_of hw rfl)

theorem keeps_execSwatchAbort (r : SliceRef) (s : State) (h : Keeps w p s) (hw : Sub 0xaffc618c w) : OutKeeps w p
    (@execSwatchAbort r s) := by
  delta execSwatchAbort
  repeat' first
    | with_reducible assumption | with_reducible exact sub_of hw rfl | with_reducible refine outKeeps_next ?_
    | with_reducible apply keeps_abortSlice | with_reducible apply keeps_sliceFail
    | with_reducible refine outKeeps_ite ?_ ?_ | (extract_lets +onlyGivenNames x; clear_value x; revert x; intros)
    | split | with_reducible refine keeps_set_swatch ?_ (sub_of hw rfl)

theorem keeps_execSwatchCoverageLate (target : Nat) (s : State) (h : Keeps w p s) (hw : Sub 0x410008c w) : OutKeeps w
    p (@execSwatchCoverageLate target s) := by
  delta execSwatchCoverageLate
  repeat' first
    | with_reducible assumption | with_reducible exact sub_of hw rfl | with_reducible refine outKeeps_next ?_
    | with_reducible apply keeps_report | with_reducible apply keeps_count | with_reducible refine outKeeps_ite ?_ ?_
    | (extract_lets +onlyGivenNames x; clear_value x; revert x; intros)
    | with_reducible refine keeps_set_swatch ?_ (sub_of hw rfl)

theorem keeps_execClrSwatchCnt (n : Fin 4) (s : State) (h : Keeps w p s) (hw : Sub 0x80 w) : OutKeeps w p
    (@execClrSwatchCnt n s) := by
  delta execClrSwatchCnt
  repeat' first
    | with_reducible assumption | with_reducible refine outKeeps_next ?_ | with_reducible apply keeps_setFld

theorem keeps_endBoot (s : State) (h : Keeps w p s) (hw : Sub 0x3179788c w) : Keeps w p (@State.endBoot s) := by
  delta State.endBoot
  repeat' first
    | with_reducible assumption | with_reducible exact sub_of hw rfl | with_reducible apply keeps_leaveDrive
    | with_reducible apply keeps_settleMode | with_reducible refine keeps_ite ?_ ?_
    | (extract_lets +onlyGivenNames x; refine keeps_cut (w := w) (p := p) (v := x) ?_ ?_; rotate_left; clear_value x; revert x; intros; rotate_right; unfold x; clear x)
    | (extract_lets +onlyGivenNames x; clear_value x; revert x; intros)
    | (extract_lets +onlyGivenNames x; revert x; intros) | split
    | with_reducible refine keeps_set_safety ?_ (sub_of hw rfl)
    | with_reducible refine keeps_set_transition_boot ?_ (sub_of hw rfl)

theorem keeps_execSwatchPassDone (s : State) (h : Keeps w p s) (hw : Sub 0x3f7bf98c w) : OutKeeps w p
    (@execSwatchPassDone s) := by
  delta execSwatchPassDone
  repeat' first
    | with_reducible assumption | with_reducible exact sub_of hw rfl | with_reducible refine outKeeps_next ?_
    | with_reducible apply keeps_report | with_reducible apply keeps_endBoot | with_reducible apply keeps_resumeMain
    | with_reducible apply keeps_modRestart | with_reducible refine keeps_ite ?_ ?_
    | with_reducible refine outKeeps_ite ?_ ?_ | intro _ _ _ _ | intro _ _ _ | intro _ _
    | (extract_lets +onlyGivenNames x; refine keeps_cut (w := w) (p := p) (v := x) ?_ ?_; rotate_left; clear_value x; revert x; intros; rotate_right; unfold x; clear x)
    | (extract_lets +onlyGivenNames x; clear_value x; revert x; intros)
    | (extract_lets +onlyGivenNames x; revert x; intros) | split
    | with_reducible refine keeps_of_snd ?_ (by assumption) | with_reducible refine keeps_of_fst ?_ (by assumption)
    | with_reducible refine keeps_set_swatch ?_ (sub_of hw rfl)
    | with_reducible refine keeps_set_transition ?_ (sub_of hw rfl)

theorem keeps_islandLost (s : State) (i : Nat) (code : Nat) (h : Keeps w p s) (hw : Sub 0x10200c w) : Keeps w p
    (@State.islandLost s i code) := by
  delta State.islandLost
  repeat' first
    | with_reducible assumption | with_reducible exact sub_of hw rfl | with_reducible apply keeps_islandReport
    | with_reducible apply keeps_modIsland | with_reducible apply keeps_takeCommand
    | with_reducible refine keeps_ite ?_ ?_

theorem keeps_selfTest (s : State) (cause : Nat) (h : Keeps w p s) (hw : Sub 0x10200c w) : Keeps w p (@State.selfTest
    s cause) := by
  delta State.selfTest
  repeat' first
    | with_reducible assumption | with_reducible exact sub_of hw rfl | with_reducible apply keeps_request

theorem keeps_dieOutAtStart (s : State) (d : Nat) (h : Keeps w p s) (hw : Sub 0x210418c w) : Keeps w p
    (@State.dieOutAtStart s d) := by
  delta State.dieOutAtStart
  repeat' first
    | with_reducible assumption | with_reducible exact sub_of hw rfl | with_reducible apply keeps_forceSplits
    | with_reducible apply keeps_dieOut | with_reducible refine keeps_ite ?_ ?_

theorem keeps_guaranteeUnmet (s : State) (n : Nat) (h : Keeps w p s) (hw : Sub 0x25e418c w) : Keeps w p
    (@State.guaranteeUnmet s n) := by
  delta State.guaranteeUnmet
  repeat' first
    | with_reducible assumption | with_reducible exact sub_of hw rfl | with_reducible apply keeps_shedOne
    | with_reducible apply keeps_report | with_reducible refine keeps_ite ?_ ?_
    | with_reducible refine keeps_set_memSys ?_ (sub_of hw rfl)

theorem keeps_injectConsequence (s : State) (row : Nat) (n : Nat) (cause : Nat) (h : Keeps w p s) (hw : Sub 0xa7de618c
    w) : Keeps w p (@State.injectConsequence s row n cause) := by
  delta State.injectConsequence
  repeat' first
    | with_reducible assumption | with_reducible exact sub_of hw rfl | with_reducible apply keeps_dieOutAtStart
    | with_reducible apply keeps_islandLost | with_reducible apply keeps_forceSplits
    | with_reducible apply keeps_report | with_reducible apply keeps_tileFault | with_reducible apply keeps_retire
    | with_reducible apply keeps_guaranteeUnmet | with_reducible apply keeps_pairLost
    | with_reducible apply keeps_setPair | with_reducible apply keeps_laneOut | with_reducible apply keeps_selfTest
    | with_reducible apply keeps_islandDown | with_reducible refine keeps_ite ?_ ?_
    | (extract_lets +onlyGivenNames x; refine keeps_cut (w := w) (p := p) (v := x) ?_ ?_; rotate_left; clear_value x; revert x; intros; rotate_right; unfold x; clear x)
    | (extract_lets +onlyGivenNames x; clear_value x; revert x; intros) | split
    | with_reducible refine keeps_set_swatch ?_ (sub_of hw rfl)
    | with_reducible refine keeps_set_memSys ?_ (sub_of hw rfl)
    | with_reducible refine keeps_set_thermal ?_ (sub_of hw rfl)

theorem keeps_noteUnreported (s : State) (row : Nat) (x2 : Nat) (h : Keeps w p s) (hw : Sub 0x4000000 w) : Keeps w p
    (@State.noteUnreported s row x2) := by
  delta State.noteUnreported
  repeat' first
    | with_reducible assumption | with_reducible exact sub_of hw rfl | with_reducible refine keeps_ite ?_ ?_ | split
    | with_reducible refine keeps_of_snd ?_ (by assumption) | with_reducible refine keeps_of_fst ?_ (by assumption)
    | with_reducible refine keeps_set_swatch ?_ (sub_of hw rfl)

theorem keeps_execInjectReportTimeout (row : Fin 16) (x1 : Nat) (s : State) (h : Keeps w p s) (hw : Sub 0xa7de618c w)
    : OutKeeps w p (@execInjectReportTimeout row x1 s) := by
  delta execInjectReportTimeout
  repeat' first
    | with_reducible assumption | with_reducible exact sub_of hw rfl | with_reducible refine outKeeps_next ?_
    | with_reducible apply keeps_setFld | with_reducible apply keeps_report
    | with_reducible apply keeps_injectConsequence | with_reducible apply keeps_noteUnreported
    | with_reducible apply keeps_count | with_reducible refine outKeeps_ite ?_ ?_

theorem keeps_setJtag (s : State) (n : Nat) (h : Keeps w p s) (hw : Sub 0x1000000 w) : Keeps w p (@State.setJtag s n)
    := by
  delta State.setJtag
  repeat' first
    | with_reducible assumption | with_reducible refine keeps_set_boot ?_ (sub_of hw rfl)

theorem keeps_execBypass (s : State) (h : Keeps w p s) (hw : Sub 0x1000000 w) : OutKeeps w p (@execBypass s) := by
  delta execBypass
  repeat' first
    | with_reducible assumption | with_reducible refine outKeeps_next ?_ | with_reducible apply keeps_setJtag

theorem keeps_execIdcode (s : State) (h : Keeps w p s) (hw : Sub 0x1000000 w) : OutKeeps w p (@execIdcode s) := by
  delta execIdcode
  repeat' first
    | with_reducible assumption | with_reducible refine outKeeps_next ?_ | with_reducible apply keeps_setJtag

theorem keeps_execSamplePreload (s : State) (h : Keeps w p s) (hw : Sub 0x1000000 w) : OutKeeps w p
    (@execSamplePreload s) := by
  delta execSamplePreload
  repeat' first
    | with_reducible assumption | with_reducible refine outKeeps_next ?_ | with_reducible apply keeps_setJtag

theorem keeps_execExtest (s : State) (h : Keeps w p s) (hw : Sub 0x1000000 w) : OutKeeps w p (@execExtest s) := by
  delta execExtest
  repeat' first
    | with_reducible assumption | with_reducible refine outKeeps_next ?_ | with_reducible apply keeps_setJtag
    | with_reducible refine keeps_ite ?_ ?_

theorem keeps_execInternalScan (s : State) (h : Keeps w p s) (hw : Sub 0x1000000 w) : OutKeeps w p (@execInternalScan
    s) := by
  delta execInternalScan
  repeat' first
    | with_reducible assumption | with_reducible refine outKeeps_next ?_ | with_reducible apply keeps_setJtag
    | with_reducible refine keeps_ite ?_ ?_

theorem keeps_execDebugAccess (s : State) (h : Keeps w p s) (hw : Sub 0x1000000 w) : OutKeeps w p (@execDebugAccess s)
    := by
  delta execDebugAccess
  repeat' first
    | with_reducible assumption | with_reducible refine outKeeps_next ?_ | with_reducible apply keeps_setJtag
    | with_reducible refine keeps_ite ?_ ?_

theorem keeps_clearSecrets (s : State) (left : Nat) (h : Keeps w p s) (hw : Sub 0x1200100 w) : Keeps w p
    (@State.clearSecrets s left) := by
  delta State.clearSecrets
  repeat' first
    | with_reducible assumption | with_reducible exact sub_of hw rfl | with_reducible apply keeps_sealStalls
    | intro _ _ _ _ | intro _ _ _ | intro _ _
    | (extract_lets +onlyGivenNames x; refine keeps_cut (w := w) (p := p) (v := x) ?_ ?_; rotate_left; clear_value x; revert x; intros; rotate_right; unfold x; clear x)
    | (extract_lets +onlyGivenNames x; clear_value x; revert x; intros)
    | (extract_lets +onlyGivenNames x; revert x; intros) | split
    | with_reducible refine keeps_of_snd ?_ (by assumption) | with_reducible refine keeps_of_fst ?_ (by assumption)
    | with_reducible refine keeps_set_stalls_boot ?_ (sub_of hw rfl)

theorem keeps_execScanCleared (allZero : Bool) (s : State) (h : Keeps w p s) (hw : Sub 0x11787d8c w) : OutKeeps w p
    (@execScanCleared allZero s) := by
  delta execScanCleared
  repeat' first
    | with_reducible assumption | with_reducible exact sub_of hw rfl | with_reducible refine outKeeps_next ?_
    | with_reducible apply keeps_free | with_reducible apply keeps_clearSecrets | with_reducible apply keeps_setFld
    | with_reducible apply keeps_settleMode | with_reducible apply keeps_report
    | with_reducible refine keeps_ite ?_ ?_ | with_reducible refine outKeeps_ite ?_ ?_
    | (extract_lets +onlyGivenNames x; refine keeps_cut (w := w) (p := p) (v := x) ?_ ?_; rotate_left; clear_value x; revert x; intros; rotate_right; unfold x; clear x)
    | (extract_lets +onlyGivenNames x; refine keeps_cut (w := w) (p := p) (v := x.1) ?_ ?_; rotate_left; clear_value x; revert x; intros; rotate_right; unfold x; clear x)
    | (extract_lets +onlyGivenNames x; refine keeps_cut (w := w) (p := p) (v := x.2) ?_ ?_; rotate_left; clear_value x; revert x; intros; rotate_right; unfold x; clear x)
    | (extract_lets +onlyGivenNames x; clear_value x; revert x; intros)
    | (extract_lets +onlyGivenNames x; revert x; intros) | split
    | with_reducible refine keeps_of_snd ?_ (by assumption) | with_reducible refine keeps_of_fst ?_ (by assumption)
    | with_reducible refine keeps_of_22 ?_ (by assumption) | with_reducible refine keeps_of_222 ?_ (by assumption)
    | with_reducible refine keeps_of_11 ?_ (by assumption)
    | with_reducible refine keeps_set_transition ?_ (sub_of hw rfl)
    | with_reducible refine keeps_set_mode ?_ (sub_of hw rfl)

theorem keeps_modPower (s : State) (g : Power → Power) (h : Keeps w p s) (hw : Sub 0x40000000 w) : Keeps w p
    (@State.modPower s g) := by
  delta State.modPower
  repeat' first
    | with_reducible assumption | with_reducible refine keeps_set_power ?_ (sub_of hw rfl)

theorem keeps_modThermal (s : State) (g : Thermal → Thermal) (h : Keeps w p s) (hw : Sub 0x80000000 w) : Keeps w p
    (@State.modThermal s g) := by
  delta State.modThermal
  repeat' first
    | with_reducible assumption | with_reducible refine keeps_set_thermal ?_ (sub_of hw rfl)

theorem keeps_modPairOf (s : State) (x1 : Nat) (g : DiodePair → DiodePair) (h : Keeps w p s) (hw : Sub 0x80000000 w) :
    Keeps w p (@State.modPairOf s x1 g) := by
  delta State.modPairOf
  repeat' first
    | with_reducible assumption | with_reducible apply keeps_modThermal

theorem keeps_openLimit (s : State) (stands : Bool) (reason : Nat) (h : Keeps w p s) (hw : Sub 0x8 w) : Keeps w p
    (@State.openLimit s stands reason).2 := by
  delta State.openLimit
  repeat' first
    | with_reducible assumption | with_reducible exact sub_of hw rfl | with_reducible apply keeps_free
    | with_reducible refine keeps_ite ?_ ?_ | split | with_reducible refine keeps_of_snd ?_ (by assumption)
    | with_reducible refine keeps_of_fst ?_ (by assumption) | with_reducible refine keeps_of_22 ?_ (by assumption)
    | with_reducible refine keeps_of_222 ?_ (by assumption) | with_reducible refine keeps_of_11 ?_ (by assumption)
    | with_reducible refine keeps_snd_mk ?_ | with_reducible refine keeps_fst_mk ?_

theorem keeps_budgetAt (s : State) (ahead : Nat) (h : Keeps w p s) (hw : Sub 0x8 w) : Keeps w p (@State.budgetAt s
    ahead).2 := by
  delta State.budgetAt
  repeat' first
    | with_reducible assumption | with_reducible apply keeps_openLimit

theorem keeps_setDomain (s : State) (d : Nat) (on : Bool) (h : Keeps w p s) (hw : Sub 0x80 w) : Keeps w p
    (@State.setDomain s d on) := by
  delta State.setDomain
  repeat' first
    | with_reducible assumption | with_reducible apply keeps_setFld | with_reducible refine keeps_ite ?_ ?_

theorem keeps_failDie (s : State) (d : Nat) (h : Keeps w p s) (hw : Sub 0x87c408c w) : Keeps w p (@State.failDie s d)
    := by
  delta State.failDie
  repeat' first
    | with_reducible assumption | with_reducible apply keeps_failCommand | with_reducible refine keeps_foldl ?_ ?_
    | with_reducible refine keeps_ite ?_ ?_ | intro _ _ _ | split

theorem keeps_dropDie (s : State) (d : Nat) (h : Keeps w p s) (hw : Sub 0x87c418c w) : Keeps w p (@State.dropDie s d)
    := by
  delta State.dropDie
  repeat' first
    | with_reducible assumption | with_reducible exact sub_of hw rfl | with_reducible apply keeps_setDie
    | with_reducible apply keeps_failDie | with_reducible refine keeps_ite ?_ ?_

theorem keeps_unitLost (s : State) (d : Nat) (h : Keeps w p s) (hw : Sub 0x201c408c w) : Keeps w p (@State.unitLost s
    d) := by
  delta State.unitLost
  repeat' first
    | with_reducible assumption | with_reducible exact sub_of hw rfl | with_reducible apply keeps_setDomain
    | with_reducible apply keeps_stopCycles | with_reducible apply keeps_dropLink
    | with_reducible apply keeps_pairLost | with_reducible refine keeps_ite ?_ ?_

theorem keeps_supplyLost (s : State) (i : Nat) (h : Keeps w p s) (hw : Sub 0x110008c w) : Keeps w p (@State.supplyLost
    s i) := by
  delta State.supplyLost
  repeat' first
    | with_reducible assumption | with_reducible exact sub_of hw rfl | with_reducible apply keeps_islandDown
    | with_reducible apply keeps_modIsland | with_reducible apply keeps_islandReport
    | with_reducible refine keeps_ite ?_ ?_

theorem keeps_execIvrFault (domain : Fin 44) (s : State) (h : Keeps w p s) (hw : Sub 0x697c418c w) : OutKeeps w p
    (@execIvrFault domain s) := by
  delta execIvrFault
  repeat' first
    | with_reducible assumption | with_reducible exact sub_of hw rfl | with_reducible refine outKeeps_next ?_
    | with_reducible apply keeps_report | with_reducible apply keeps_modPower | with_reducible apply keeps_dropDie
    | with_reducible apply keeps_requestRestart | with_reducible apply keeps_supplyLost
    | with_reducible apply keeps_unitLost | with_reducible refine outKeeps_ite ?_ ?_

theorem keeps_pushStep (s : State) (old : Nat) (h : Keeps w p s) (hw : Sub 0x40000008 w) : Keeps w p (@State.pushStep
    s old) := by
  delta State.pushStep
  repeat' first
    | with_reducible assumption | with_reducible exact sub_of hw rfl | with_reducible apply keeps_free
    | with_reducible apply keeps_modPower | split

theorem keeps_abandonRaise (s : State) (h : Keeps w p s) (hw : Sub 0x40004000 w) : Keeps w p (@State.abandonRaise s)
    := by
  delta State.abandonRaise
  repeat' first
    | with_reducible assumption | with_reducible exact sub_of hw rfl | with_reducible apply keeps_modPower
    | intro _ _ _ _ | intro _ _ _ | intro _ _
    | (extract_lets +onlyGivenNames x; refine keeps_cut (w := w) (p := p) (v := x) ?_ ?_; rotate_left; clear_value x; revert x; intros; rotate_right; unfold x; clear x)
    | (extract_lets +onlyGivenNames x; clear_value x; revert x; intros)
    | (extract_lets +onlyGivenNames x; revert x; intros) | split
    | with_reducible refine keeps_of_snd ?_ (by assumption) | with_reducible refine keeps_of_fst ?_ (by assumption)
    | with_reducible refine keeps_set_fabric ?_ (sub_of hw rfl)

theorem keeps_lowerTo (s : State) (n : Nat) (h : Keeps w p s) (hw : Sub 0x40004008 w) : Keeps w p (@State.lowerTo s n)
    := by
  delta State.lowerTo
  repeat' first
    | with_reducible assumption | with_reducible exact sub_of hw rfl | with_reducible apply keeps_pushStep
    | with_reducible apply keeps_abandonRaise | with_reducible apply keeps_modPower
    | with_reducible apply keeps_decideStep | with_reducible refine keeps_foldl ?_ ?_
    | with_reducible refine keeps_ite ?_ ?_ | intro _ _ _

theorem keeps_execVoltageRampDone (s : State) (h : Keeps w p s) (hw : Sub 0x40004000 w) : OutKeeps w p
    (@execVoltageRampDone s) := by
  delta execVoltageRampDone
  repeat' first
    | with_reducible assumption | with_reducible exact sub_of hw rfl | with_reducible refine outKeeps_next ?_
    | with_reducible apply keeps_decideStep | with_reducible apply keeps_modPower | split

theorem keeps_execPmbusTelemetryRead (readings : List PmbusReading) (s : State) (h : Keeps w p s) (hw : Sub 0x40000000
    w) : OutKeeps w p (@execPmbusTelemetryRead readings s) := by
  delta execPmbusTelemetryRead
  repeat' first
    | with_reducible assumption | with_reducible refine outKeeps_next ?_ | with_reducible apply keeps_modPower
    | with_reducible refine outKeeps_ite ?_ ?_

theorem keeps_execPwrRailLimit (s : State) (h : Keeps w p s) (hw : Sub 0x4010400c w) : OutKeeps w p (@execPwrRailLimit
    s) := by
  delta execPwrRailLimit
  repeat' first
    | with_reducible assumption | with_reducible exact sub_of hw rfl | with_reducible refine outKeeps_next ?_
    | with_reducible apply keeps_report | with_reducible apply keeps_lowerTo | with_reducible apply keeps_modPower
    | with_reducible refine outKeeps_ite ?_ ?_

theorem keeps_killStall (s : State) (k : Nat) (h : Keeps w p s) (hw : Sub 0x5c408c w) : Keeps w p (@State.killStall s
    k) := by
  delta State.killStall
  repeat' first
    | with_reducible assumption | with_reducible apply keeps_killFunction

theorem keeps_shedPower (s : State) (h : Keeps w p s) (hw : Sub 0x407c608c w) : ∀ t, @State.shedPower s = some t →
    Keeps w p t := by
  intro t e
  have hf := keeps_free (hw := sub_of hw rfl) s 16 h
  delta State.shedPower at e
  dsimp only at e
  generalize s.free 16 = q at e hf
  split at e
  · rw [← Option.some.inj e]
    with_reducible exact keeps_modPower (hw := sub_of hw rfl) _ _ (keeps_stallEvent (hw := sub_of hw rfl) _ _ _ (keeps_modStall (hw := sub_of hw rfl) _ _ _ (keeps_killStall (hw := sub_of hw rfl) _ _ hf)))
  · split at e
    · rw [← Option.some.inj e]
      with_reducible exact keeps_modPower (hw := sub_of hw rfl) _ _ (keeps_modPower (hw := sub_of hw rfl) _ _ hf)
    · split at e
      · rw [← Option.some.inj e]
        with_reducible exact keeps_settleStart (hw := sub_of hw rfl) _ _ _ (keeps_modPower (hw := sub_of hw rfl) _ _ (keeps_modRunning (hw := sub_of hw rfl) _ _ _ _ (keeps_modProgram (hw := sub_of hw rfl) _ _ _ _ hf)))
      · split at e
        · rw [← Option.some.inj e]
          with_reducible exact keeps_lowerTo (hw := sub_of hw rfl) _ _ h
        · split at e
          · rw [← Option.some.inj e]
            with_reducible exact keeps_lowerTo (hw := sub_of hw rfl) _ _ h
          · cases e

theorem keeps_undoShed (s : State) (x : Shed) (h : Keeps w p s) (hw : Sub 0x40284080 w) : Keeps w p (@State.undoShed s
    x) := by
  delta State.undoShed
  repeat' first
    | with_reducible assumption | with_reducible exact sub_of hw rfl | with_reducible apply keeps_stallEvent
    | with_reducible apply keeps_modStall | with_reducible apply keeps_modPower
    | with_reducible apply keeps_modProgram | split

theorem keeps_execShedUndo (s : State) (h : Keeps w p s) (hw : Sub 0x4038408c w) : OutKeeps w p (@execShedUndo s) := by
  delta execShedUndo
  repeat' first
    | with_reducible assumption | with_reducible exact sub_of hw rfl | with_reducible refine outKeeps_next ?_
    | with_reducible apply keeps_report | with_reducible apply keeps_undoShed | with_reducible apply keeps_modPower
    | with_reducible refine outKeeps_ite ?_ ?_ | split

theorem keeps_allStop (s : State) (h : Keeps w p s) (hw : Sub 0x405c408c w) : Keeps w p (@State.allStop s) := by
  delta State.allStop
  repeat' first
    | with_reducible assumption | with_reducible exact sub_of hw rfl | with_reducible apply keeps_lowerTo
    | with_reducible apply keeps_killStall | with_reducible refine keeps_foldl ?_ ?_ | intro _ _ _

theorem keeps_coolantStop (s : State) (h : Keeps w p s) (hw : Sub 0xc05c408c w) : Keeps w p (@State.coolantStop s) := by
  delta State.coolantStop
  repeat' first
    | with_reducible assumption | with_reducible exact sub_of hw rfl | with_reducible apply keeps_modThermal
    | with_reducible apply keeps_allStop | with_reducible apply keeps_setFld | with_reducible apply keeps_report
    | with_reducible refine keeps_ite ?_ ?_

theorem keeps_settlePower (s : State) (h : Keeps w p s) (hw : Sub 0x10200c w) : Keeps w p (@State.settlePower s) := by
  delta State.settlePower
  repeat' first
    | with_reducible assumption | with_reducible apply keeps_lower | with_reducible refine keeps_ite ?_ ?_

theorem keeps_hubOff (s : State) (h : Keeps w p s) (hw : Sub 0x2118008c w) : Keeps w p (@State.hubOff s) := by
  delta State.hubOff
  repeat' first
    | with_reducible assumption | with_reducible exact sub_of hw rfl | with_reducible apply keeps_stopCycles
    | with_reducible apply keeps_dropLink | with_reducible apply keeps_setFld
    | (extract_lets +onlyGivenNames x; refine keeps_cut (w := w) (p := p) (v := x) ?_ ?_; rotate_left; clear_value x; revert x; intros; rotate_right; unfold x; clear x)
    | (extract_lets +onlyGivenNames x; clear_value x; revert x; intros)
    | with_reducible refine keeps_set_boot ?_ (sub_of hw rfl)

theorem keeps_execCoolantStopShutdown (s : State) (h : Keeps w p s) (hw : Sub 0xa97c618c w) : OutKeeps w p
    (@execCoolantStopShutdown s) := by
  delta execCoolantStopShutdown
  repeat' first
    | with_reducible assumption | with_reducible exact sub_of hw rfl | with_reducible refine outKeeps_next ?_
    | with_reducible apply keeps_modThermal | with_reducible apply keeps_dropDie | with_reducible apply keeps_unitLost
    | with_reducible apply keeps_request | with_reducible apply keeps_hubOff | with_reducible refine keeps_foldl ?_ ?_
    | with_reducible refine keeps_ite ?_ ?_ | with_reducible refine outKeeps_ite ?_ ?_ | intro _ _ _

theorem keeps_execCoolantFlowReturned (s : State) (h : Keeps w p s) (hw : Sub 0x8010008c w) : OutKeeps w p
    (@execCoolantFlowReturned s) := by
  delta execCoolantFlowReturned
  repeat' first
    | with_reducible assumption | with_reducible exact sub_of hw rfl | with_reducible refine outKeeps_next ?_
    | with_reducible apply keeps_report | with_reducible apply keeps_setFld | with_reducible apply keeps_modThermal
    | with_reducible apply keeps_requestRestart | with_reducible apply keeps_setDomain
    | with_reducible refine keeps_foldl ?_ ?_ | with_reducible refine outKeeps_ite ?_ ?_ | intro _ _ _

theorem keeps_endStop (s : State) (h : Keeps w p s) (hw : Sub 0x8010200c w) : Keeps w p (@State.endStop s) := by
  delta State.endStop
  repeat' first
    | with_reducible assumption | with_reducible exact sub_of hw rfl | with_reducible apply keeps_settlePower
    | with_reducible apply keeps_modThermal | with_reducible refine keeps_ite ?_ ?_

theorem keeps_tripNow (s : State) (h : Keeps w p s) (hw : Sub 0xc05c408c w) : Keeps w p (@State.tripNow s) := by
  delta State.tripNow
  repeat' first
    | with_reducible assumption | with_reducible exact sub_of hw rfl | with_reducible apply keeps_allStop
    | with_reducible apply keeps_modThermal | with_reducible apply keeps_report

theorem keeps_execThermTripClear (s : State) (h : Keeps w p s) (hw : Sub 0x8010200c w) : OutKeeps w p
    (@execThermTripClear s) := by
  delta execThermTripClear
  repeat' first
    | with_reducible assumption | with_reducible exact sub_of hw rfl | with_reducible refine outKeeps_next ?_
    | with_reducible apply keeps_settlePower | with_reducible apply keeps_modThermal
    | with_reducible refine outKeeps_ite ?_ ?_

theorem keeps_comparePair (s : State) (x1 : Nat) (h : Keeps w p s) (hw : Sub 0x80000000 w) : Keeps w p
    (@State.comparePair s x1) := by
  delta State.comparePair
  repeat' first
    | with_reducible assumption | with_reducible apply keeps_modPairOf | with_reducible refine keeps_ite ?_ ?_

theorem keeps_execDiodeRead (readings : List Int) (s : State) (h : Keeps w p s) (hw : Sub 0xe15c408c w) : OutKeeps w p
    (@execDiodeRead readings s) := by
  delta execDiodeRead
  repeat' first
    | with_reducible assumption | with_reducible exact sub_of hw rfl | with_reducible refine outKeeps_next ?_
    | with_reducible apply keeps_modThermal | with_reducible apply keeps_comparePair
    | with_reducible apply keeps_tripNow | with_reducible apply keeps_hubOff | with_reducible refine keeps_foldl ?_ ?_
    | with_reducible refine keeps_ite ?_ ?_ | with_reducible refine outKeeps_ite ?_ ?_ | intro _ _ _

theorem keeps_execThermPairSuspect (pair : Fin 60) (s : State) (h : Keeps w p s) (hw : Sub 0x8010000c w) : OutKeeps w
    p (@execThermPairSuspect pair s) := by
  delta execThermPairSuspect
  repeat' first
    | with_reducible assumption | with_reducible exact sub_of hw rfl | with_reducible refine outKeeps_next ?_
    | with_reducible apply keeps_report | with_reducible apply keeps_modPairOf
    | with_reducible refine outKeeps_ite ?_ ?_

theorem keeps_execThermPairClear (pair : Fin 60) (s : State) (h : Keeps w p s) (hw : Sub 0x80000000 w) : OutKeeps w p
    (@execThermPairClear pair s) := by
  delta execThermPairClear
  repeat' first
    | with_reducible assumption | with_reducible refine outKeeps_next ?_ | with_reducible apply keeps_modPairOf
    | with_reducible refine outKeeps_ite ?_ ?_

theorem keeps_execThermSensorFault (pair : Fin 60) (s : State) (h : Keeps w p s) (hw : Sub 0x8410000c w) : OutKeeps w
    p (@execThermSensorFault pair s) := by
  delta execThermSensorFault
  repeat' first
    | with_reducible assumption | with_reducible exact sub_of hw rfl | with_reducible refine outKeeps_next ?_
    | with_reducible apply keeps_modPairOf | with_reducible apply keeps_report
    | with_reducible refine outKeeps_ite ?_ ?_ | (extract_lets +onlyGivenNames x; clear_value x; revert x; intros)
    | with_reducible refine keeps_set_swatch ?_ (sub_of hw rfl)

theorem keeps_coolingDegraded (s : State) (h : Keeps w p s) (hw : Sub 0x8010000c w) : Keeps w p
    (@State.coolingDegraded s) := by
  delta State.coolingDegraded
  repeat' first
    | with_reducible assumption | with_reducible exact sub_of hw rfl | with_reducible apply keeps_event
    | with_reducible apply keeps_report | with_reducible apply keeps_modThermal
    | with_reducible refine keeps_ite ?_ ?_

theorem keeps_execCoolingProjection (s : State) (h : Keeps w p s) (hw : Sub 0x8010000c w) : OutKeeps w p
    (@execCoolingProjection s) := by
  delta execCoolingProjection
  repeat' first
    | with_reducible assumption | with_reducible exact sub_of hw rfl | with_reducible refine outKeeps_next ?_
    | with_reducible apply keeps_coolingDegraded | with_reducible apply keeps_modThermal
    | with_reducible apply keeps_report | with_reducible refine keeps_ite ?_ ?_
    | with_reducible refine outKeeps_ite ?_ ?_

theorem keeps_sampleTrend (s : State) (h : Keeps w p s) (hw : Sub 0x80000000 w) : Keeps w p (@State.sampleTrend s) := by
  delta State.sampleTrend
  repeat' first
    | with_reducible assumption | with_reducible apply keeps_modThermal

theorem keeps_takeFlow (s : State) (h : Keeps w p s) (hw : Sub 0xc05c408c w) : Keeps w p (@State.takeFlow s) := by
  delta State.takeFlow
  repeat' first
    | with_reducible assumption | with_reducible exact sub_of hw rfl | with_reducible apply keeps_modThermal
    | with_reducible apply keeps_coolantStop | with_reducible refine keeps_ite ?_ ?_

theorem keeps_execSentFrameRx (input : Fin 3) (raw : Nat) (frameOk : Bool) (s : State) (h : Keeps w p s) (hw : Sub
    0xc05c408c w) : OutKeeps w p (@execSentFrameRx input raw frameOk s) := by
  delta execSentFrameRx
  repeat' first
    | with_reducible assumption | with_reducible exact sub_of hw rfl | with_reducible refine outKeeps_next ?_
    | with_reducible apply keeps_modThermal | with_reducible apply keeps_takeFlow
    | with_reducible apply keeps_sampleTrend | with_reducible refine keeps_ite ?_ ?_
    | with_reducible refine outKeeps_ite ?_ ?_

theorem keeps_execSentInputLost (input : Fin 3) (s : State) (h : Keeps w p s) (hw : Sub 0x8010000c w) : OutKeeps w p
    (@execSentInputLost input s) := by
  delta execSentInputLost
  repeat' first
    | with_reducible assumption | with_reducible exact sub_of hw rfl | with_reducible refine outKeeps_next ?_
    | with_reducible apply keeps_modThermal | with_reducible apply keeps_coolingDegraded
    | with_reducible apply keeps_report | with_reducible refine outKeeps_ite ?_ ?_

theorem keeps_estimateStop (s : State) (h : Keeps w p s) (hw : Sub 0xc05c408c w) : Keeps w p (@State.estimateStop s)
    := by
  delta State.estimateStop
  repeat' first
    | with_reducible assumption | with_reducible exact sub_of hw rfl | with_reducible apply keeps_modThermal
    | with_reducible apply keeps_coolantStop | with_reducible refine keeps_ite ?_ ?_

theorem keeps_missReply (s : State) (d : Nat) (h : Keeps w p s) (hw : Sub 0x4012000c w) : Keeps w p (@State.missReply
    s d) := by
  delta State.missReply
  repeat' first
    | with_reducible assumption | with_reducible exact sub_of hw rfl | with_reducible apply keeps_modPower
    | with_reducible apply keeps_report | with_reducible apply keeps_linkLost | with_reducible refine keeps_ite ?_ ?_

theorem keeps_messageTo (s : State) (d : Nat) (h : Keeps w p s) (hw : Sub 0x40000008 w) : Keeps w p (@State.messageTo
    s d) := by
  delta State.messageTo
  repeat' first
    | with_reducible assumption | with_reducible exact sub_of hw rfl | with_reducible apply keeps_free
    | with_reducible apply keeps_modPower | split

theorem keeps_sendBudgets (s : State) (h : Keeps w p s) (hw : Sub 0x40000008 w) : Keeps w p (@State.sendBudgets s) := by
  delta State.sendBudgets
  repeat' first
    | with_reducible assumption | with_reducible exact sub_of hw rfl | with_reducible apply keeps_modPower
    | with_reducible apply keeps_messageTo | with_reducible refine keeps_foldl ?_ ?_ | intro _ _ _

theorem keeps_setBudget (s : State) (b : Nat) (reason : Nat) (acted : Bool) (h : Keeps w p s) (hw : Sub 0x40000000 w)
    : Keeps w p (@State.setBudget s b reason acted) := by
  delta State.setBudget
  repeat' first
    | with_reducible assumption | with_reducible apply keeps_modPower

theorem keeps_logBudget (s : State) (acted : Bool) (h : Keeps w p s) (hw : Sub 0x4010000c w) : Keeps w p
    (@State.logBudget s acted) := by
  delta State.logBudget
  repeat' first
    | with_reducible assumption | with_reducible exact sub_of hw rfl | with_reducible apply keeps_modPower
    | with_reducible apply keeps_report | with_reducible refine keeps_ite ?_ ?_
    | (extract_lets +onlyGivenNames x; subst x) | split

theorem keeps_execBudgetTick (s : State) (h : Keeps w p s) (hw : Sub 0xc07e608c w) : OutKeeps w p (@execBudgetTick s)
    := by
  delta execBudgetTick
  refine outKeeps_ite h ?_
  have h0 : Keeps w p ((List.range 8).foldl State.missReply s) := by
    with_reducible exact keeps_foldl h fun t a ht => keeps_missReply (hw := sub_of hw rfl) t a ht
  generalize (List.range 8).foldl State.missReply s = t at h0
  have h1 := keeps_estimateStop (hw := sub_of hw rfl) t h0
  dsimp only
  generalize t.estimateStop = u at h1
  have h2 := keeps_budgetAt (hw := sub_of hw rfl) u 0 h1
  generalize u.budgetAt 0 = x at h2
  have h3 := keeps_budgetAt (hw := sub_of hw rfl) x.2 8 h2
  generalize x.2.budgetAt 8 = y at h3
  have fin : ∀ a : Bool × State, Keeps w p a.2 →
      OutKeeps w p (.next (((a.2.setBudget x.1.1 x.1.2 a.1).logBudget a.1).endStop).sendBudgets) := fun a ha => by
    with_reducible exact outKeeps_next (keeps_sendBudgets (hw := sub_of hw rfl) _ (keeps_endStop (hw := sub_of hw rfl) _ (keeps_logBudget (hw := sub_of hw rfl) _ _ (keeps_setBudget (hw := sub_of hw rfl) _ _ _ _ ha))))
  split
  · split
    · rename_i e
      exact fin (true, _) (keeps_report (hw := sub_of hw rfl) _ _ _ _ _ _ _ (keeps_shedPower (hw := sub_of hw rfl) _ h3 _ e))
    · exact fin (false, y.2) h3
  · exact fin (false, y.2) h3

theorem keeps_execBudgetReply (die : Fin 8) (seq : Nat) (demand : Nat) (demandLower : Nat) (measured : Nat) (hottest :
    Int) (flags : Nat) (s : State) (h : Keeps w p s) (hw : Sub 0x40000000 w) : OutKeeps w p (@execBudgetReply die seq
    demand demandLower measured hottest flags s) := by
  delta execBudgetReply
  repeat' first
    | with_reducible assumption | with_reducible refine outKeeps_next ?_ | with_reducible apply keeps_modPower
    | with_reducible refine outKeeps_ite ?_ ?_

theorem keeps_execBudgetMessage (die : Fin 8) (s : State) (h : Keeps w p s) (hw : Sub 0x487c418c w) : OutKeeps w p
    (@execBudgetMessage die s) := by
  delta execBudgetMessage
  repeat' first
    | with_reducible assumption | with_reducible exact sub_of hw rfl | with_reducible refine outKeeps_next ?_
    | with_reducible apply keeps_modPower | with_reducible apply keeps_dropDie | with_reducible apply keeps_free
    | with_reducible refine outKeeps_ite ?_ ?_ | split

theorem keeps_execBudgetMessageTimeout (die : Fin 8) (s : State) (h : Keeps w p s) (hw : Sub 0x40000000 w) : OutKeeps
    w p (@execBudgetMessageTimeout die s) := by
  delta execBudgetMessageTimeout
  repeat' first
    | with_reducible assumption | with_reducible refine outKeeps_next ?_ | with_reducible apply keeps_modPower

theorem keeps_modBoot (s : State) (g : Boot → Boot) (h : Keeps w p s) (hw : Sub 0x1000000 w) : Keeps w p
    (@State.modBoot s g) := by
  delta State.modBoot
  repeat' first
    | with_reducible assumption | with_reducible refine keeps_set_boot ?_ (sub_of hw rfl)

theorem keeps_hubReset (s : State) (h : Keeps w p s) (hw : Sub 0x4ef7ed1c0 w) : Keeps w p (@State.hubReset s) := by
  delta State.hubReset
  repeat' first
    | with_reducible assumption | with_reducible exact sub_of hw rfl | with_reducible apply keeps_sealStalls
    | with_reducible refine keeps_ite ?_ ?_ | intro _ _ _ _ | intro _ _ _ | intro _ _
    | (extract_lets +onlyGivenNames x; refine keeps_cut (w := w) (p := p) (v := x) ?_ ?_; rotate_left; clear_value x; revert x; intros; rotate_right; unfold x; clear x)
    | (extract_lets +onlyGivenNames x; clear_value x; revert x; intros)
    | (extract_lets +onlyGivenNames x; revert x; intros) | split
    | with_reducible refine keeps_of_snd ?_ (by assumption) | with_reducible refine keeps_of_fst ?_ (by assumption)
    | with_reducible refine keeps_set_most ?_ (sub_of hw rfl)

theorem keeps_aonReset (s : State) (h : Keeps w p s) (hw : Sub 0x70011808e w) : Keeps w p (@State.aonReset s) := by
  delta State.aonReset
  repeat' first
    | with_reducible assumption | with_reducible exact sub_of hw rfl | with_reducible apply keeps_moveTime
    | with_reducible apply keeps_resetFld | with_reducible apply keeps_modWear | with_reducible apply keeps_setFld
    | with_reducible apply keeps_report | with_reducible refine keeps_foldl ?_ ?_
    | with_reducible refine keeps_ite ?_ ?_ | intro _ _ _ _ | intro _ _ _ | intro _ _
    | (extract_lets +onlyGivenNames x; refine keeps_cut (w := w) (p := p) (v := x) ?_ ?_; rotate_left; clear_value x; revert x; intros; rotate_right; unfold x; clear x)
    | (extract_lets +onlyGivenNames x; clear_value x; revert x; intros)
    | (extract_lets +onlyGivenNames x; revert x; intros) | split
    | with_reducible refine keeps_of_snd ?_ (by assumption) | with_reducible refine keeps_of_fst ?_ (by assumption)
    | with_reducible refine keeps_set_timeBase_wake ?_ (sub_of hw rfl)

theorem keeps_execAonReset (s : State) (h : Keeps w p s) (hw : Sub 0x70011808e w) : OutKeeps w p (@execAonReset s) := by
  delta execAonReset
  repeat' first
    | with_reducible assumption | with_reducible refine outKeeps_next ?_ | with_reducible apply keeps_aonReset

theorem keeps_bootReport (s : State) (code : Nat) (sev : Nat) (h : Keeps w p s) (hw : Sub 0x10008c w) : Keeps w p
    (@State.bootReport s code sev) := by
  delta State.bootReport
  repeat' first
    | with_reducible assumption | with_reducible exact sub_of hw rfl | with_reducible apply keeps_setFld
    | with_reducible apply keeps_reportWith

theorem keeps_bootStop (s : State) (code : Nat) (sev : Nat) (h : Keeps w p s) (hw : Sub 0x110088c w) : Keeps w p
    (@State.bootStop s code sev) := by
  delta State.bootStop
  repeat' first
    | with_reducible assumption | with_reducible exact sub_of hw rfl | with_reducible apply keeps_modBoot
    | with_reducible apply keeps_bootReport
    | (extract_lets +onlyGivenNames x; refine keeps_cut (w := w) (p := p) (v := x) ?_ ?_; rotate_left; clear_value x; revert x; intros; rotate_right; unfold x; clear x)
    | with_reducible refine keeps_set_transition ?_ (sub_of hw rfl)

theorem keeps_hubPower (s : State) (h : Keeps w p s) (hw : Sub 0x80 w) : Keeps w p (@State.hubPower s) := by
  delta State.hubPower
  repeat' first
    | with_reducible assumption | with_reducible apply keeps_setDomain | with_reducible refine keeps_foldl ?_ ?_
    | intro _ _ _

theorem keeps_applyDevRecord (s : State) (h : Keeps w p s) (hw : Sub 0x412408c w) : Keeps w p (@State.applyDevRecord
    s) := by
  delta State.applyDevRecord
  repeat' first
    | with_reducible assumption | with_reducible exact sub_of hw rfl | with_reducible apply keeps_applyMap
    | with_reducible apply keeps_report | with_reducible apply keeps_setChannel | with_reducible apply keeps_setFld
    | with_reducible refine keeps_foldl ?_ ?_ | with_reducible refine keeps_ite ?_ ?_ | intro _ _ _
    | (extract_lets +onlyGivenNames x; clear_value x; revert x; intros)
    | with_reducible refine keeps_set_fabric ?_ (sub_of hw rfl)

theorem keeps_takeIdentity (s : State) (h : Keeps w p s) (hw : Sub 0x20110008c w) : Keeps w p (@State.takeIdentity s)
    := by
  delta State.takeIdentity
  repeat' first
    | with_reducible assumption | with_reducible exact sub_of hw rfl | with_reducible apply keeps_setFld
    | with_reducible apply keeps_report | with_reducible apply keeps_modBoot | with_reducible apply keeps_showWear
    | with_reducible apply keeps_modWear | with_reducible apply keeps_startWear
    | (extract_lets +onlyGivenNames x; refine keeps_cut (w := w) (p := p) (v := x) ?_ ?_; rotate_left; clear_value x; revert x; intros; rotate_right; unfold x; clear x)
    | (extract_lets +onlyGivenNames x; clear_value x; revert x; intros) | split

theorem keeps_openLog (s : State) (h : Keeps w p s) (hw : Sub 0x820000c w) : Keeps w p (@State.openLog s) := by
  delta State.openLog
  repeat' first
    | with_reducible assumption | with_reducible exact sub_of hw rfl | with_reducible apply keeps_measure
    | with_reducible apply keeps_logFree | with_reducible refine keeps_ite ?_ ?_

theorem keeps_sampleWha (s : State) (h : Keeps w p s) (hw : Sub 0x80 w) : Keeps w p (@State.sampleWha s) := by
  delta State.sampleWha
  repeat' first
    | with_reducible assumption | with_reducible exact sub_of hw rfl | with_reducible apply keeps_setFld
    | (extract_lets +onlyGivenNames x; refine keeps_cut (w := w) (p := p) (v := x) ?_ ?_; rotate_left; clear_value x; revert x; intros; rotate_right; unfold x; clear x)
    | (extract_lets +onlyGivenNames x; clear_value x; revert x; intros)
    | (extract_lets +onlyGivenNames x; revert x; intros) | split
    | with_reducible refine keeps_of_snd ?_ (by assumption) | with_reducible refine keeps_of_fst ?_ (by assumption)

theorem keeps_showBoot (s : State) (h : Keeps w p s) (hw : Sub 0x80 w) : Keeps w p (@State.showBoot s) := by
  delta State.showBoot
  repeat' first
    | with_reducible assumption | with_reducible apply keeps_setFld

theorem keeps_newChallenge (s : State) (h : Keeps w p s) (hw : Sub 0x88 w) : Keeps w p (@State.newChallenge s) := by
  delta State.newChallenge
  repeat' first
    | with_reducible assumption | with_reducible exact sub_of hw rfl | with_reducible apply keeps_free
    | with_reducible apply keeps_setFld | with_reducible refine keeps_foldl ?_ ?_ | intro _ _ _

theorem keeps_shutWindow (s : State) (h : Keeps w p s) (hw : Sub 0x80 w) : Keeps w p (@State.shutWindow s) := by
  delta State.shutWindow
  repeat' first
    | with_reducible assumption | with_reducible apply keeps_setFld | with_reducible refine keeps_foldl ?_ ?_
    | intro _ _ _

theorem keeps_afterWindow (s : State) (h : Keeps w p s) (hw : Sub 0xf792698c w) : Keeps w p (@State.afterWindow s) := by
  delta State.afterWindow
  repeat' first
    | with_reducible assumption | with_reducible exact sub_of hw rfl | with_reducible apply keeps_startPilots
    | with_reducible apply keeps_startMain | with_reducible apply keeps_modBoot
    | with_reducible apply keeps_raiseFabric | with_reducible apply keeps_report
    | (extract_lets +onlyGivenNames x; refine keeps_cut (w := w) (p := p) (v := x) ?_ ?_; rotate_left; clear_value x; revert x; intros; rotate_right; unfold x; clear x)
    | (extract_lets +onlyGivenNames x; subst x) | split
    | with_reducible refine keeps_set_transition ?_ (sub_of hw rfl)
    | with_reducible refine keeps_set_transition_since ?_ (sub_of hw rfl)

theorem keeps_fetchWhb (s : State) (h : Keeps w p s) (hw : Sub 0x100000 w) : Keeps w p (@State.fetchWhb s) := by
  delta State.fetchWhb
  repeat' first
    | with_reducible assumption | with_reducible apply keeps_islandUp | with_reducible refine keeps_ite ?_ ?_

theorem keeps_firstCommand (s : State) (h : Keeps w p s) (hw : Sub 0x100000 w) : Keeps w p (@State.firstCommand s) := by
  delta State.firstCommand
  repeat' first
    | with_reducible assumption | (extract_lets +onlyGivenNames x; clear_value x; revert x; intros)
    | with_reducible refine keeps_set_safety ?_ (sub_of hw rfl)

theorem keeps_hubStart (s : State) (h : Keeps w p s) (hw : Sub 0x2ffb2698c w) : Keeps w p (@State.hubStart s) := by
  delta State.hubStart
  repeat' first
    | with_reducible assumption | with_reducible exact sub_of hw rfl | with_reducible apply keeps_modBoot
    | with_reducible apply keeps_hubPower | with_reducible apply keeps_showBoot | with_reducible apply keeps_islandUp
    | with_reducible apply keeps_firstCommand | with_reducible apply keeps_fetchWhb
    | with_reducible apply keeps_openLog | with_reducible apply keeps_applyDevRecord
    | with_reducible apply keeps_takeIdentity | with_reducible apply keeps_afterWindow
    | with_reducible apply keeps_newChallenge | with_reducible apply keeps_setFld
    | with_reducible refine keeps_ite ?_ ?_

theorem keeps_releaseHub (s : State) (h : Keeps w p s) (hw : Sub 0x2ffb2698c w) : Keeps w p (@State.releaseHub s) := by
  delta State.releaseHub
  repeat' first
    | with_reducible assumption | with_reducible exact sub_of hw rfl | with_reducible apply keeps_hubStart
    | with_reducible apply keeps_modBoot | with_reducible refine keeps_ite ?_ ?_

theorem keeps_bootImage (s : State) (h : Keeps w p s) (hw : Sub 0x2ffb2698c w) : Keeps w p (@State.bootImage s) := by
  delta State.bootImage
  repeat' first
    | with_reducible assumption | with_reducible exact sub_of hw rfl | with_reducible apply keeps_releaseHub
    | with_reducible apply keeps_modBoot | with_reducible apply keeps_setFld | with_reducible apply keeps_bootReport
    | with_reducible apply keeps_setDomain | with_reducible apply keeps_bootStop
    | with_reducible refine keeps_ite ?_ ?_ | split

theorem keeps_bootRom (s : State) (h : Keeps w p s) (hw : Sub 0x2ffb2698c w) : Keeps w p (@State.bootRom s) := by
  delta State.bootRom
  repeat' first
    | with_reducible assumption | with_reducible exact sub_of hw rfl | with_reducible apply keeps_bootStop
    | with_reducible apply keeps_modBoot | with_reducible apply keeps_bootImage
    | with_reducible apply keeps_bootReport | with_reducible refine keeps_ite ?_ ?_

theorem keeps_keepIslands (s : State) (holds : Bool) (h : Keeps w p s) (hw : Sub 0x102000 w) : Keeps w p
    (@State.keepIslands s holds) := by
  delta State.keepIslands
  repeat' first
    | with_reducible assumption | with_reducible exact sub_of hw rfl | with_reducible refine keeps_ite ?_ ?_
    | (extract_lets +onlyGivenNames x; refine keeps_cut (w := w) (p := p) (v := x) ?_ ?_; rotate_left; clear_value x; revert x; intros; rotate_right; unfold x; clear x)
    | (extract_lets +onlyGivenNames x; clear_value x; revert x; intros)
    | (extract_lets +onlyGivenNames x; revert x; intros) | split
    | with_reducible refine keeps_of_snd ?_ (by assumption) | with_reducible refine keeps_of_fst ?_ (by assumption)
    | with_reducible refine keeps_set_safety ?_ (sub_of hw rfl)
    | with_reducible refine keeps_set_degrade_safety ?_ (sub_of hw rfl)

theorem keeps_bootWha (s : State) (h : Keeps w p s) (hw : Sub 0x7fffffdce w) : Keeps w p (@State.bootWha s) := by
  delta State.bootWha
  repeat' first
    | with_reducible assumption | with_reducible exact sub_of hw rfl | with_reducible apply keeps_aonReset
    | with_reducible apply keeps_islandLost | with_reducible apply keeps_hubReset
    | with_reducible apply keeps_islandDown | with_reducible apply keeps_keepIslands
    | with_reducible apply keeps_modBoot | with_reducible apply keeps_bootRom | with_reducible apply keeps_sampleWha
    | (extract_lets +onlyGivenNames x; clear_value x; revert x; intros) | split
    | with_reducible refine keeps_set_mode_transition_since_wake ?_ (sub_of hw rfl)

theorem keeps_execWhaResetRelease (s : State) (h : Keeps w p s) (hw : Sub 0x7fffffdce w) : OutKeeps w p
    (@execWhaResetRelease s) := by
  delta execWhaResetRelease
  repeat' first
    | with_reducible assumption | with_reducible exact sub_of hw rfl | with_reducible refine outKeeps_next ?_
    | with_reducible apply keeps_modBoot | with_reducible apply keeps_free | with_reducible apply keeps_bootWha
    | with_reducible refine keeps_ite ?_ ?_ | with_reducible refine outKeeps_ite ?_ ?_

theorem keeps_execPwrSeqFail (s : State) (h : Keeps w p s) (hw : Sub 0x110088c w) : OutKeeps w p (@execPwrSeqFail s)
    := by
  delta execPwrSeqFail
  repeat' first
    | with_reducible assumption | with_reducible refine outKeeps_next ?_ | with_reducible apply keeps_bootStop
    | with_reducible refine outKeeps_ite ?_ ?_

theorem keeps_execDebugWindowClose (s : State) (h : Keeps w p s) (hw : Sub 0xf792698c w) : OutKeeps w p
    (@execDebugWindowClose s) := by
  delta execDebugWindowClose
  refine outKeeps_ite h ?_
  dsimp only
  split
  · exact keeps_afterWindow (hw := sub_of hw rfl) _ (keeps_modBoot (hw := sub_of hw rfl) _ _ (keeps_shutWindow (hw := sub_of hw rfl) _ h))
  · exact keeps_modBoot (hw := sub_of hw rfl) _ _ (keeps_shutWindow (hw := sub_of hw rfl) _ h)

theorem keeps_execDriveReady (s : State) (h : Keeps w p s) (hw : Sub 0x3d787c8c w) : OutKeeps w p (@execDriveReady s)
    := by
  delta execDriveReady
  repeat' first
    | with_reducible assumption | with_reducible exact sub_of hw rfl | with_reducible refine outKeeps_next ?_
    | with_reducible apply keeps_logFree | with_reducible apply keeps_enterDrive | with_reducible apply keeps_modBoot
    | with_reducible apply keeps_settleMode | with_reducible refine outKeeps_ite ?_ ?_
    | (extract_lets +onlyGivenNames x; clear_value x; revert x; intros)
    | with_reducible refine keeps_set_safety ?_ (sub_of hw rfl)

theorem keeps_execWhbResetRelease (s : State) (h : Keeps w p s) (hw : Sub 0x110208c w) : OutKeeps w p
    (@execWhbResetRelease s) := by
  delta execWhbResetRelease
  repeat' first
    | with_reducible assumption | with_reducible exact sub_of hw rfl | with_reducible refine outKeeps_next ?_
    | with_reducible apply keeps_modBoot | with_reducible apply keeps_islandLost
    | with_reducible apply keeps_islandDown | with_reducible apply keeps_islandUp
    | with_reducible refine keeps_ite ?_ ?_ | with_reducible refine outKeeps_ite ?_ ?_

theorem keeps_execPerstAssert (s : State) (h : Keeps w p s) (hw : Sub 0x118000c w) : OutKeeps w p (@execPerstAssert s)
    := by
  delta execPerstAssert
  repeat' first
    | with_reducible assumption | with_reducible exact sub_of hw rfl | with_reducible refine outKeeps_next ?_
    | with_reducible apply keeps_modBoot | with_reducible apply keeps_dropLink

theorem keeps_execPerstRelease (s : State) (h : Keeps w p s) (hw : Sub 0x1000000 w) : OutKeeps w p (@execPerstRelease
    s) := by
  delta execPerstRelease
  repeat' first
    | with_reducible assumption | with_reducible refine outKeeps_next ?_ | with_reducible apply keeps_modBoot

theorem keeps_execPcieLinkUp (speed : Nat) (width : Nat) (s : State) (h : Keeps w p s) (hw : Sub 0x100080000 w) :
    OutKeeps w p (@execPcieLinkUp speed width s) := by
  delta execPcieLinkUp
  repeat' first
    | with_reducible assumption | with_reducible refine outKeeps_next ?_ | with_reducible refine keeps_ite ?_ ?_
    | with_reducible refine outKeeps_ite ?_ ?_ | (extract_lets +onlyGivenNames x; clear_value x; revert x; intros)
    | with_reducible refine keeps_set_host ?_ (sub_of hw rfl)
    | with_reducible refine keeps_set_wake ?_ (sub_of hw rfl)

theorem keeps_noteCause (s : State) (b : Nat) (h : Keeps w p s) (hw : Sub 0x80 w) : Keeps w p (@State.noteCause s b)
    := by
  delta State.noteCause
  repeat' first
    | with_reducible assumption | with_reducible apply keeps_setFld | with_reducible refine keeps_ite ?_ ?_

theorem keeps_startWake (s : State) (b : Nat) (h : Keeps w p s) (hw : Sub 0x11110080c w) : Keeps w p (@State.startWake
    s b) := by
  delta State.startWake
  repeat' first
    | with_reducible assumption | with_reducible exact sub_of hw rfl | with_reducible apply keeps_report
    | with_reducible apply keeps_modBoot | (extract_lets +onlyGivenNames x; clear_value x; revert x; intros) | split
    | with_reducible refine keeps_set_transition_since_wake ?_ (sub_of hw rfl)

theorem keeps_wakeBy (s : State) (b : Nat) (h : Keeps w p s) (hw : Sub 0x11110088c w) : Keeps w p (@State.wakeBy s b)
    := by
  delta State.wakeBy
  repeat' first
    | with_reducible assumption | with_reducible exact sub_of hw rfl | with_reducible apply keeps_noteCause
    | with_reducible apply keeps_startWake | with_reducible refine keeps_ite ?_ ?_
    | (extract_lets +onlyGivenNames x; refine keeps_cut (w := w) (p := p) (v := x) ?_ ?_; rotate_left; clear_value x; revert x; intros; rotate_right; unfold x; clear x)
    | (extract_lets +onlyGivenNames x; clear_value x; revert x; intros) | split
    | with_reducible refine keeps_set_wake ?_ (sub_of hw rfl)

theorem keeps_execWakeInEdge (pin : Fin 4) (rising : Bool) (s : State) (h : Keeps w p s) (hw : Sub 0x1337f6d8c w) :
    OutKeeps w p (@execWakeInEdge pin rising s) := by
  delta execWakeInEdge
  repeat' first
    | with_reducible assumption | with_reducible exact sub_of hw rfl | with_reducible refine outKeeps_next ?_
    | with_reducible apply keeps_nightWake | with_reducible apply keeps_noteCause | with_reducible apply keeps_wakeBy
    | with_reducible refine outKeeps_ite ?_ ?_

theorem keeps_execPcieWakeIn (s : State) (h : Keeps w p s) (hw : Sub 0x11110088c w) : OutKeeps w p (@execPcieWakeIn s)
    := by
  delta execPcieWakeIn
  repeat' first
    | with_reducible assumption | with_reducible refine outKeeps_next ?_ | with_reducible apply keeps_wakeBy
    | with_reducible refine outKeeps_ite ?_ ?_

theorem keeps_execWakeAlarm (s : State) (h : Keeps w p s) (hw : Sub 0x11110088c w) : OutKeeps w p (@execWakeAlarm s)
    := by
  delta execWakeAlarm
  repeat' first
    | with_reducible assumption | with_reducible refine outKeeps_next ?_ | with_reducible apply keeps_wakeBy
    | with_reducible refine outKeeps_ite ?_ ?_

theorem keeps_parkTrip (s : State) (b : Nat) (h : Keeps w p s) (hw : Sub 0x100000080 w) : Keeps w p (@State.parkTrip s
    b) := by
  delta State.parkTrip
  repeat' first
    | with_reducible assumption | with_reducible exact sub_of hw rfl | with_reducible apply keeps_noteCause
    | with_reducible refine keeps_ite ?_ ?_
    | (extract_lets +onlyGivenNames x; refine keeps_cut (w := w) (p := p) (v := x) ?_ ?_; rotate_left; clear_value x; revert x; intros; rotate_right; unfold x; clear x)
    | (extract_lets +onlyGivenNames x; clear_value x; revert x; intros)
    | with_reducible refine keeps_set_wake ?_ (sub_of hw rfl)

theorem keeps_execThermInTrip (s : State) (h : Keeps w p s) (hw : Sub 0x100000080 w) : OutKeeps w p (@execThermInTrip
    s) := by
  delta execThermInTrip
  repeat' first
    | with_reducible assumption | with_reducible refine outKeeps_next ?_ | with_reducible apply keeps_parkTrip

theorem keeps_execVaonMonitorTrip (s : State) (h : Keeps w p s) (hw : Sub 0x70011808e w) : OutKeeps w p
    (@execVaonMonitorTrip s) := by
  delta execVaonMonitorTrip
  repeat' first
    | with_reducible assumption | with_reducible exact sub_of hw rfl | with_reducible refine outKeeps_next ?_
    | with_reducible apply keeps_parkTrip | with_reducible apply keeps_aonReset | split
    | with_reducible refine keeps_of_snd ?_ (by assumption) | with_reducible refine keeps_of_fst ?_ (by assumption)
    | with_reducible refine keeps_set_wake ?_ (sub_of hw rfl)

theorem keeps_execPcieWakeNRelease (s : State) (h : Keeps w p s) (hw : Sub 0x100000000 w) : OutKeeps w p
    (@execPcieWakeNRelease s) := by
  delta execPcieWakeNRelease
  repeat' first
    | with_reducible assumption | with_reducible refine outKeeps_next ?_ | with_reducible refine outKeeps_ite ?_ ?_
    | split | with_reducible refine keeps_set_wake ?_ (sub_of hw rfl)

theorem keeps_flushErrors (s : State) (h : Keeps w p s) (hw : Sub 0x180280 w) : Keeps w p (@State.flushErrors s) := by
  delta State.flushErrors
  repeat' first
    | with_reducible assumption | with_reducible exact sub_of hw rfl | with_reducible apply keeps_hostLog
    | with_reducible apply keeps_modErrq | with_reducible refine keeps_foldl ?_ ?_ | intro _ _ _

theorem keeps_execParkEntryDone (s : State) (h : Keeps w p s) (hw : Sub 0x7ffffffce w) : OutKeeps w p
    (@execParkEntryDone s) := by
  delta execParkEntryDone
  refine outKeeps_ite h ?_
  have h1 : ∀ t, Keeps w p t → Keeps w p t.leaveDrive.flushErrors.enterPark := fun t ht => by
    repeat' first
      | with_reducible assumption
      | with_reducible apply keeps_enterPark (hw := sub_of hw rfl)
      | with_reducible apply keeps_flushErrors (hw := sub_of hw rfl)
      | with_reducible apply keeps_leaveDrive (hw := sub_of hw rfl)
  have h2 : Keeps w p (s.killFunction 0 0x120 0) := by with_reducible exact keeps_killFunction (hw := sub_of hw rfl) _ _ _ _ h
  generalize s.killFunction 0 0x120 0 = t at h2 ⊢
  have h3 := h1 t h2
  dsimp only
  split
  · with_reducible exact outKeeps_next (keeps_bootWha (hw := sub_of hw rfl) _ (keeps_startWake (hw := sub_of hw rfl) _ _ (keeps_settleMode (hw := sub_of hw rfl) _ (keeps_set_since h3 (sub_of hw rfl)))))
  · with_reducible exact outKeeps_next (keeps_settleMode (hw := sub_of hw rfl) _ (keeps_set_since h3 (sub_of hw rfl)))

theorem keeps_execWearLedgerMinute (monitors : List WearReading) (s : State) (h : Keeps w p s) (hw : Sub 0x20010008c
    w) : OutKeeps w p (@execWearLedgerMinute monitors s) := by
  delta execWearLedgerMinute
  repeat' first
    | with_reducible assumption | with_reducible exact sub_of hw rfl | with_reducible refine outKeeps_next ?_
    | with_reducible apply keeps_countLife | with_reducible apply keeps_modWear | with_reducible apply keeps_showWear
    | with_reducible apply keeps_logWear | with_reducible refine outKeeps_ite ?_ ?_

theorem keeps_execWearRecordHourly (writeOk : Bool) (s : State) (h : Keeps w p s) (hw : Sub 0x20090000c w) : OutKeeps
    w p (@execWearRecordHourly writeOk s) := by
  delta execWearRecordHourly
  repeat' first
    | with_reducible assumption | with_reducible exact sub_of hw rfl | with_reducible refine outKeeps_next ?_
    | with_reducible apply keeps_writeWear | with_reducible apply keeps_countLife | with_reducible apply keeps_report
    | with_reducible refine outKeeps_ite ?_ ?_

theorem keeps_spoilFlash (s : State) (h : Keeps w p s) (hw : Sub 0x1800000 w) : Keeps w p (@State.spoilFlash s) := by
  delta State.spoilFlash
  repeat' first
    | with_reducible assumption | with_reducible exact sub_of hw rfl | with_reducible apply keeps_modBoot
    | with_reducible apply keeps_flashErase | intro _ _ _ _ | intro _ _ _ | intro _ _ | split
    | with_reducible refine keeps_of_snd ?_ (by assumption) | with_reducible refine keeps_of_fst ?_ (by assumption)

theorem keeps_hubStop (s : State) (h : Keeps w p s) (hw : Sub 0x4effed9cc w) : Keeps w p (@State.hubStop s) := by
  delta State.hubStop
  repeat' first
    | with_reducible assumption | with_reducible exact sub_of hw rfl | with_reducible apply keeps_hubReset
    | with_reducible apply keeps_dropLink | with_reducible apply keeps_spoilFlash
    | (extract_lets +onlyGivenNames x; refine keeps_cut (w := w) (p := p) (v := x) ?_ ?_; rotate_left; clear_value x; revert x; intros; rotate_right; unfold x; clear x)
    | split | with_reducible refine keeps_memNil ?_ (sub_of hw rfl)
    | with_reducible refine keeps_set_transition ?_ (sub_of hw rfl)

theorem keeps_execRailLoss (rail : Rail) (s : State) (h : Keeps w p s) (hw : Sub 0x7efffd9ce w) : OutKeeps w p
    (@execRailLoss rail s) := by
  delta execRailLoss
  repeat' first
    | with_reducible assumption | with_reducible exact sub_of hw rfl | with_reducible refine outKeeps_next ?_
    | with_reducible apply keeps_aonReset | with_reducible apply keeps_modBoot | with_reducible apply keeps_supplyLost
    | with_reducible apply keeps_spoilFlash | with_reducible apply keeps_hubStop
    | with_reducible refine keeps_ite ?_ ?_ | split

end Sys2Proof.Machine
end

