-- ==== Sys2Proof/Laws/KeepsRegisters.lean ====
section
/-!
SUPPORT. Laws/KeepsRegisters.lean: what each operation and command keeps (the Ethernet MACs, register accesses, security); `keeps_x` is about `x`, whose
components of State are the bits of its `Sub`.
-/

namespace Sys2Proof.Machine

variable {w : Nat} {p : State}

theorem keeps_setMac (s : State) (n : Nat) (m : MacTx) (h : Keeps w p s) (hw : Sub 0x400000000 w) : Keeps w p
    (@State.setMac s n m) := by
  delta State.setMac
  repeat' first
    | with_reducible assumption | with_reducible refine keeps_set_macTx ?_ (sub_of hw rfl)

theorem keeps_macUp (s : State) (n : Nat) (speed : Nat) (maxFrame : Nat) (h : Keeps w p s) (hw : Sub 0x10008c w) :
    Keeps w p (@State.macUp s n speed maxFrame) := by
  delta State.macUp
  repeat' first
    | with_reducible assumption | with_reducible exact sub_of hw rfl | with_reducible apply keeps_setFld
    | with_reducible apply keeps_refuse | with_reducible refine keeps_ite ?_ ?_

theorem keeps_macDown (s : State) (n : Nat) (h : Keeps w p s) (hw : Sub 0x10008c w) : Keeps w p (@State.macDown s n)
    := by
  delta State.macDown
  repeat' first
    | with_reducible assumption | with_reducible exact sub_of hw rfl | with_reducible apply keeps_refuse
    | with_reducible apply keeps_setFld | with_reducible refine keeps_ite ?_ ?_

theorem keeps_execNetMacEnable (mac : Fin 6) (s : State) (h : Keeps w p s) (hw : Sub 0x10008c w) : OutKeeps w p
    (@execNetMacEnable mac s) := by
  delta execNetMacEnable
  repeat' first
    | with_reducible assumption | with_reducible refine outKeeps_next ?_ | with_reducible apply keeps_macUp

theorem keeps_execNetMacDisable (mac : Fin 6) (s : State) (h : Keeps w p s) (hw : Sub 0x10008c w) : OutKeeps w p
    (@execNetMacDisable mac s) := by
  delta execNetMacDisable
  repeat' first
    | with_reducible assumption | with_reducible refine outKeeps_next ?_ | with_reducible apply keeps_macDown

theorem keeps_execClrNetCnt (mac : Fin 6) (k : Fin 5) (s : State) (h : Keeps w p s) (hw : Sub 0x80 w) : OutKeeps w p
    (@execClrNetCnt mac k s) := by
  delta execClrNetCnt
  repeat' first
    | with_reducible assumption | with_reducible refine outKeeps_next ?_ | with_reducible apply keeps_setFld

theorem keeps_qbvChange (s : State) (n : Nat) (len : Nat) (h : Keeps w p s) (hw : Sub 0x40010008c w) : Keeps w p
    (@State.qbvChange s n len) := by
  delta State.qbvChange
  repeat' first
    | with_reducible assumption | with_reducible exact sub_of hw rfl | with_reducible apply keeps_refuse
    | with_reducible apply keeps_setFld | with_reducible apply keeps_setMac | with_reducible refine keeps_ite ?_ ?_

theorem keeps_execChange (mac : Fin 6) (s : State) (h : Keeps w p s) (hw : Sub 0x40010008c w) : OutKeeps w p
    (@execChange mac s) := by
  delta execChange
  repeat' first
    | with_reducible assumption | with_reducible refine outKeeps_next ?_ | with_reducible apply keeps_qbvChange

theorem keeps_execQbvChangeTime (mac : Fin 6) (s : State) (h : Keeps w p s) (hw : Sub 0x400000080 w) : OutKeeps w p
    (@execQbvChangeTime mac s) := by
  delta execQbvChangeTime
  repeat' first
    | with_reducible assumption | with_reducible exact sub_of hw rfl | with_reducible refine outKeeps_next ?_
    | with_reducible apply keeps_setFld | with_reducible apply keeps_setMac | with_reducible refine outKeeps_ite ?_ ?_
    | (extract_lets +onlyGivenNames x; refine keeps_cut (w := w) (p := p) (v := x) ?_ ?_; rotate_left; clear_value x; revert x; intros; rotate_right; unfold x; clear x)
    | (extract_lets +onlyGivenNames x; clear_value x; revert x; intros) | split

theorem keeps_execQbvGateEntry (mac : Fin 6) (s : State) (h : Keeps w p s) (hw : Sub 0x400000000 w) : OutKeeps w p
    (@execQbvGateEntry mac s) := by
  delta execQbvGateEntry
  repeat' first
    | with_reducible assumption | with_reducible refine outKeeps_next ?_ | with_reducible apply keeps_setMac
    | with_reducible refine outKeeps_ite ?_ ?_

theorem keeps_sendFrame (s : State) (n : Nat) (c : Nat) (line : Nat) (credit : Int) (h : Keeps w p s) (hw : Sub
    0x400000080 w) : Keeps w p (@State.sendFrame s n c line credit) := by
  delta State.sendFrame
  repeat' first
    | with_reducible assumption | with_reducible exact sub_of hw rfl | with_reducible apply keeps_count
    | with_reducible apply keeps_setMac

theorem keeps_execEthFrameTx (mac : Fin 6) (tagged : Bool) (pcp : Fin 8) (bytes : Nat) (queuedAt : Nat) (s : State) (h
    : Keeps w p s) (hw : Sub 0x400000080 w) : OutKeeps w p (@execEthFrameTx mac tagged pcp bytes queuedAt s) := by
  delta execEthFrameTx
  repeat' first
    | with_reducible assumption | with_reducible exact sub_of hw rfl | with_reducible refine outKeeps_next ?_
    | with_reducible apply keeps_count | with_reducible apply keeps_sendFrame
    | with_reducible refine outKeeps_ite ?_ ?_

theorem keeps_qavSet (s : State) (n : Nat) (c : Nat) (en : Nat) (slope : Nat) (h : Keeps w p s) (hw : Sub 0x40010008c
    w) : Keeps w p (@State.qavSet s n c en slope) := by
  delta State.qavSet
  repeat' first
    | with_reducible assumption | with_reducible exact sub_of hw rfl | with_reducible apply keeps_refuse
    | with_reducible apply keeps_setFld | with_reducible apply keeps_setMac | with_reducible refine keeps_ite ?_ ?_

theorem keeps_execQavEnable (mac : Fin 6) (cls : Fin 8) (s : State) (h : Keeps w p s) (hw : Sub 0x40010008c w) :
    OutKeeps w p (@execQavEnable mac cls s) := by
  delta execQavEnable
  repeat' first
    | with_reducible assumption | with_reducible refine outKeeps_next ?_ | with_reducible apply keeps_qavSet

theorem keeps_readWord (s : State) (fn : Nat) (o : Nat) (h : Keeps w p s) (hw : Sub 0x40 w) : Keeps w p
    (@State.readWord s fn o).2 := by
  delta State.readWord
  repeat' first
    | with_reducible assumption | (extract_lets +onlyGivenNames x; clear_value x; revert x; intros) | split
    | with_reducible refine keeps_snd_mk ?_ | with_reducible refine keeps_set_latches ?_ (sub_of hw rfl)

theorem keeps_readWide (s : State) (fn : Nat) (o : Nat) (h : Keeps w p s) (hw : Sub 0x40 w) : Keeps w p
    (@State.readWide s fn o).2 := by
  delta State.readWide
  repeat' first
    | with_reducible assumption | with_reducible apply keeps_readWord | split

theorem keeps_badAccess (s : State) (isWrite : Bool) (h : Keeps w p s) (hw : Sub 0x10002c w) : Keeps w p
    (@State.badAccess s isWrite) := by
  delta State.badAccess
  repeat' first
    | with_reducible assumption | with_reducible exact sub_of hw rfl | with_reducible apply keeps_report
    | with_reducible refine keeps_ite ?_ ?_ | with_reducible refine keeps_set_readData ?_ (sub_of hw rfl)

theorem keeps_execBadAccessWidth (_fn : Fin 32) (offset : Nat) (width : Nat) (isWrite : Bool) (s : State) (h : Keeps w
    p s) (hw : Sub 0x10002c w) : OutKeeps w p (@execBadAccessWidth _fn offset width isWrite s) := by
  delta execBadAccessWidth
  repeat' first
    | with_reducible assumption | with_reducible refine outKeeps_next ?_ | with_reducible apply keeps_badAccess
    | with_reducible refine outKeeps_ite ?_ ?_

theorem keeps_execLatchedReadLow (fn : Fin 32) (offset : Nat) (wide : Bool) (s : State) (h : Keeps w p s) (hw : Sub
    0x10006c w) : OutKeeps w p (@execLatchedReadLow fn offset wide s) := by
  delta execLatchedReadLow
  repeat' first
    | with_reducible assumption | with_reducible exact sub_of hw rfl | with_reducible refine outKeeps_next ?_
    | with_reducible apply keeps_badAccess | with_reducible apply keeps_readWide | with_reducible apply keeps_readWord
    | with_reducible refine outKeeps_ite ?_ ?_ | split | with_reducible refine keeps_set_readData ?_ (sub_of hw rfl)

theorem keeps_xferState (s : State) (n : Nat) (h : Keeps w p s) (hw : Sub 0x80 w) : Keeps w p (@State.xferState s n)
    := by
  delta State.xferState
  repeat' first
    | with_reducible assumption | with_reducible apply keeps_setFld

theorem keeps_xferFail (s : State) (n : Nat) (code : Nat) (h : Keeps w p s) (hw : Sub 0x80 w) : Keeps w p
    (@State.xferFail s n code) := by
  delta State.xferFail
  repeat' first
    | with_reducible assumption | with_reducible apply keeps_setFld | with_reducible apply keeps_xferState

theorem keeps_recoverImage (s : State) (h : Keeps w p s) (hw : Sub 0x2ffb2698c w) : Keeps w p (@State.recoverImage s)
    := by
  delta State.recoverImage
  repeat' first
    | with_reducible assumption | with_reducible exact sub_of hw rfl | with_reducible apply keeps_devWrite
    | with_reducible apply keeps_xferFail | with_reducible apply keeps_xferState | with_reducible apply keeps_setFld
    | with_reducible apply keeps_bootReport | with_reducible apply keeps_releaseHub
    | with_reducible apply keeps_modBoot | with_reducible refine keeps_ite ?_ ?_
    | (extract_lets +onlyGivenNames x; refine keeps_cut (w := w) (p := p) (v := x) ?_ ?_; rotate_left; clear_value x; revert x; intros; rotate_right; unfold x; clear x)
    | (extract_lets +onlyGivenNames x; clear_value x; revert x; intros) | split

theorem keeps_execRecoverImage (s : State) (h : Keeps w p s) (hw : Sub 0x2ffb2698c w) : OutKeeps w p
    (@execRecoverImage s) := by
  delta execRecoverImage
  repeat' first
    | with_reducible assumption | with_reducible refine outKeeps_next ?_ | with_reducible apply keeps_recoverImage

theorem keeps_offerFails (s : State) (code : Nat) (certGood : Bool) (h : Keeps w p s) (hw : Sub 0x10008c w) : Keeps w
    p (@State.offerFails s code certGood) := by
  delta State.offerFails
  repeat' first
    | with_reducible assumption | with_reducible exact sub_of hw rfl | with_reducible apply keeps_xferFail
    | with_reducible apply keeps_report | with_reducible refine keeps_ite ?_ ?_

theorem keeps_startWrite (s : State) (a : Nat) (b : List Byte) (h : Keeps w p s) (hw : Sub 0x1000080 w) : Keeps w p
    (@State.startWrite s a b) := by
  delta State.startWrite
  repeat' first
    | with_reducible assumption | with_reducible exact sub_of hw rfl | with_reducible apply keeps_modBoot
    | with_reducible apply keeps_xferState

theorem keeps_writeImage (s : State) (h : Keeps w p s) (hw : Sub 0x110008c w) : Keeps w p (@State.writeImage s) := by
  delta State.writeImage
  repeat' first
    | with_reducible assumption | with_reducible exact sub_of hw rfl | with_reducible apply keeps_refuse
    | with_reducible apply keeps_offerFails | with_reducible apply keeps_startWrite
    | with_reducible refine keeps_ite ?_ ?_ | (extract_lets +onlyGivenNames x; clear_value x; revert x; intros)
    | split

theorem keeps_execWriteImage (s : State) (h : Keeps w p s) (hw : Sub 0x110008c w) : OutKeeps w p (@execWriteImage s)
    := by
  delta execWriteImage
  repeat' first
    | with_reducible assumption | with_reducible refine outKeeps_next ?_ | with_reducible apply keeps_writeImage

theorem keeps_writeConfig (s : State) (h : Keeps w p s) (hw : Sub 0x110008c w) : Keeps w p (@State.writeConfig s) := by
  delta State.writeConfig
  repeat' first
    | with_reducible assumption | with_reducible exact sub_of hw rfl | with_reducible apply keeps_refuse
    | with_reducible apply keeps_startWrite | with_reducible apply keeps_offerFails
    | with_reducible refine keeps_ite ?_ ?_

theorem keeps_execWriteConfig (s : State) (h : Keeps w p s) (hw : Sub 0x110008c w) : OutKeeps w p (@execWriteConfig s)
    := by
  delta execWriteConfig
  repeat' first
    | with_reducible assumption | with_reducible refine outKeeps_next ?_ | with_reducible apply keeps_writeConfig

theorem keeps_execFlashWriteDone (verified : Bool) (s : State) (h : Keeps w p s) (hw : Sub 0x190008c w) : OutKeeps w p
    (@execFlashWriteDone verified s) := by
  delta execFlashWriteDone
  repeat' first
    | with_reducible assumption | with_reducible exact sub_of hw rfl | with_reducible refine outKeeps_next ?_
    | with_reducible apply keeps_modBoot | with_reducible apply keeps_flashErase
    | with_reducible apply keeps_xferState | with_reducible apply keeps_flashWrite
    | with_reducible apply keeps_xferFail | with_reducible apply keeps_report
    | with_reducible refine outKeeps_ite ?_ ?_ | split

theorem keeps_quoteGo (s : State) (h : Keeps w p s) (hw : Sub 0x110000c w) : Keeps w p (@State.quoteGo s) := by
  delta State.quoteGo
  repeat' first
    | with_reducible assumption | with_reducible exact sub_of hw rfl | with_reducible apply keeps_report
    | with_reducible apply keeps_modBoot | with_reducible refine keeps_ite ?_ ?_

theorem keeps_execQuoteGo (s : State) (h : Keeps w p s) (hw : Sub 0x110000c w) : OutKeeps w p (@execQuoteGo s) := by
  delta execQuoteGo
  repeat' first
    | with_reducible assumption | with_reducible refine outKeeps_next ?_ | with_reducible apply keeps_quoteGo

theorem keeps_execQuoteDone (s : State) (h : Keeps w p s) (hw : Sub 0x110020c w) : OutKeeps w p (@execQuoteDone s) := by
  delta execQuoteDone
  repeat' first
    | with_reducible assumption | with_reducible exact sub_of hw rfl | with_reducible refine outKeeps_next ?_
    | with_reducible apply keeps_modBoot | with_reducible apply keeps_stamp | with_reducible apply keeps_hostWrite
    | with_reducible apply keeps_report | with_reducible refine keeps_ite ?_ ?_
    | (extract_lets +onlyGivenNames x; refine keeps_cut (w := w) (p := p) (v := x) ?_ ?_; rotate_left; clear_value x; revert x; intros; rotate_right; unfold x; clear x)
    | (extract_lets +onlyGivenNames x; clear_value x; revert x; intros) | split

theorem keeps_submit (s : State) (h : Keeps w p s) (hw : Sub 0x110088c w) : Keeps w p (@State.submit s) := by
  delta State.submit
  repeat' first
    | with_reducible assumption | with_reducible exact sub_of hw rfl | with_reducible apply keeps_modBoot
    | with_reducible apply keeps_report | with_reducible apply keeps_newChallenge
    | with_reducible refine keeps_ite ?_ ?_
    | (extract_lets +onlyGivenNames x; refine keeps_cut (w := w) (p := p) (v := x) ?_ ?_; rotate_left; clear_value x; revert x; intros; rotate_right; unfold x; clear x)
    | with_reducible refine keeps_set_transition ?_ (sub_of hw rfl)

theorem keeps_execSubmit (s : State) (h : Keeps w p s) (hw : Sub 0x110088c w) : OutKeeps w p (@execSubmit s) := by
  delta execSubmit
  repeat' first
    | with_reducible assumption | with_reducible refine outKeeps_next ?_ | with_reducible apply keeps_submit

theorem keeps_setOwner (s : State) (g : Nat) (fn : Nat) (h : Keeps w p s) (hw : Sub 0x18008c w) : Keeps w p
    (@State.setOwner s g fn) := by
  delta State.setOwner
  repeat' first
    | with_reducible assumption | with_reducible exact sub_of hw rfl | with_reducible apply keeps_refuse
    | with_reducible apply keeps_setFld | with_reducible apply keeps_putMarker
    | with_reducible refine keeps_foldl ?_ ?_ | with_reducible refine keeps_ite ?_ ?_ | intro _ _ _

theorem keeps_execMarkerOwnerChange (group : Fin 128) (fn : Fin 32) (s : State) (h : Keeps w p s) (hw : Sub 0x18008c
    w) : OutKeeps w p (@execMarkerOwnerChange group fn s) := by
  delta execMarkerOwnerChange
  repeat' first
    | with_reducible assumption | with_reducible refine outKeeps_next ?_ | with_reducible apply keeps_setOwner

theorem keeps_refuseWrite (s : State) (fn : Nat) (r : Reg) (i : Nat) (j : Nat) (hi : Nat) (code : Nat) (h : Keeps w p
    s) (hw : Sub 0x10008c w) : Keeps w p (@State.refuseWrite s fn r i j hi code) := by
  delta State.refuseWrite
  repeat' first
    | with_reducible assumption | with_reducible apply keeps_refuseAt

theorem keeps_enableWith (s : State) (r : Reg) (i : Nat) (j : Nat) (v : Nat) (en : Fld) (op : State → State) (h :
    Keeps w p s) (h1 : ∀ t, Keeps w p t → Keeps w p (op t)) (hw : Sub 0x80 w) : Keeps w p (@State.enableWith s r i j v
    en op) := by
  delta State.enableWith
  repeat' first
    | with_reducible assumption | with_reducible apply keeps_setFld | with_reducible apply keeps_putReg
    | with_reducible refine keeps_ite ?_ ?_ | with_reducible apply h1

theorem keeps_writeEnable (s : State) (r : Reg) (i : Nat) (j : Nat) (v : Nat) (en : Fld) (on : State → State) (off :
    State → State) (h : Keeps w p s) (h1 : ∀ t, Keeps w p t → Keeps w p (on t)) (h2 : ∀ t, Keeps w p t → Keeps w p
    (off t)) (hw : Sub 0x80 w) : Keeps w p (@State.writeEnable s r i j v en on off) := by
  delta State.writeEnable
  repeat' first
    | with_reducible assumption | with_reducible apply keeps_putReg | with_reducible apply keeps_enableWith
    | with_reducible apply keeps_setFld | with_reducible refine keeps_ite ?_ ?_ | with_reducible apply h2

theorem keeps_clearIf (s : State) (v : Nat) (k : Nat) (f : Fld) (i : Nat) (j : Nat) (h : Keeps w p s) (hw : Sub 0x80
    w) : Keeps w p (@State.clearIf s v k f i j) := by
  delta State.clearIf
  repeat' first
    | with_reducible assumption | with_reducible apply keeps_setFld | with_reducible refine keeps_ite ?_ ?_

theorem keeps_writeClear (s : State) (r : Reg) (i : Nat) (v : Nat) (h : Keeps w p s) (hw : Sub 0x80 w) : Keeps w p
    (@State.writeClear s r i v) := by
  delta State.writeClear
  repeat' first
    | with_reducible assumption | with_reducible apply keeps_clearIf | with_reducible apply keeps_clearFaults
    | with_reducible apply keeps_clearStats | with_reducible apply keeps_clearPartStat
    | with_reducible refine keeps_foldl ?_ ?_ | with_reducible refine keeps_ite ?_ ?_ | intro _ _ _
    | (extract_lets +onlyGivenNames x; refine keeps_cut (w := w) (p := p) (v := x) ?_ ?_; rotate_left; clear_value x; revert x; intros; rotate_right; unfold x; clear x)
    | (extract_lets +onlyGivenNames x; clear_value x; revert x; intros) | split

theorem keeps_writeOnes (s : State) (r : Reg) (i : Nat) (j : Nat) (v : Nat) (h : Keeps w p s) (hw : Sub 0x80 w) :
    Keeps w p (@State.writeOnes s r i j v) := by
  delta State.writeOnes
  repeat' first
    | with_reducible assumption | with_reducible apply keeps_setFld | with_reducible refine keeps_foldl ?_ ?_
    | with_reducible refine keeps_ite ?_ ?_ | intro _ _ _

theorem keeps_fusionDisable (s : State) (h : Keeps w p s) (hw : Sub 0x8180 w) : Keeps w p (@State.fusionDisable s) := by
  delta State.fusionDisable
  repeat' first
    | with_reducible assumption | with_reducible exact sub_of hw rfl | with_reducible apply keeps_setFld
    | with_reducible apply keeps_clearInstants

theorem keeps_pairDisable (s : State) (h : Keeps w p s) (hw : Sub 0x1c408c w) : Keeps w p (@State.pairDisable s) := by
  delta State.pairDisable
  repeat' first
    | with_reducible assumption | with_reducible exact sub_of hw rfl | with_reducible apply keeps_setFld
    | with_reducible apply keeps_pairLost | with_reducible apply keeps_setPair | with_reducible refine keeps_ite ?_ ?_

theorem keeps_writeMacCfg (s : State) (n : Nat) (v : Nat) (h : Keeps w p s) (hw : Sub 0x10008c w) : Keeps w p
    (@State.writeMacCfg s n v) := by
  delta State.writeMacCfg
  repeat' first
    | with_reducible assumption | with_reducible exact sub_of hw rfl | with_reducible apply keeps_macUp
    | with_reducible apply keeps_macDown | with_reducible apply keeps_setFld | with_reducible refine keeps_ite ?_ ?_

theorem keeps_setGates (s : State) (n : Nat) (en : Nat) (h : Keeps w p s) (hw : Sub 0x400000080 w) : Keeps w p
    (@State.setGates s n en) := by
  delta State.setGates
  repeat' first
    | with_reducible assumption | with_reducible exact sub_of hw rfl | with_reducible apply keeps_setFld
    | with_reducible apply keeps_setMac | with_reducible refine keeps_ite ?_ ?_

theorem keeps_writeQbvCtrl (s : State) (n : Nat) (v : Nat) (h : Keeps w p s) (hw : Sub 0x40010008c w) : Keeps w p
    (@State.writeQbvCtrl s n v) := by
  delta State.writeQbvCtrl
  repeat' first
    | with_reducible assumption | with_reducible exact sub_of hw rfl | with_reducible apply keeps_qbvChange
    | with_reducible apply keeps_setGates | with_reducible apply keeps_setFld | with_reducible refine keeps_ite ?_ ?_

theorem keeps_writeRingCfg (s : State) (fn : Nat) (ring : Nat) (v : Nat) (h : Keeps w p s) (hw : Sub 0x18008c w) :
    Keeps w p (@State.writeRingCfg s fn ring v) := by
  delta State.writeRingCfg
  repeat' first
    | with_reducible assumption | with_reducible exact sub_of hw rfl | with_reducible apply keeps_enableWith
    | with_reducible apply keeps_ringEnable | with_reducible apply keeps_putReg
    | with_reducible apply keeps_ringDisable | with_reducible refine keeps_ite ?_ ?_ | intro _ _

theorem keeps_writeVector (s : State) (fn : Nat) (word : Nat) (v : Nat) (h : Keeps w p s) (hw : Sub 0x80080 w) : Keeps
    w p (@State.writeVector s fn word v) := by
  delta State.writeVector
  repeat' first
    | with_reducible assumption | with_reducible exact sub_of hw rfl | with_reducible apply keeps_setFld
    | with_reducible apply keeps_sendMsix | with_reducible refine keeps_ite ?_ ?_

theorem keeps_writeXfer (s : State) (v : Nat) (h : Keeps w p s) (hw : Sub 0x2ffb2698c w) : Keeps w p (@State.writeXfer
    s v) := by
  delta State.writeXfer
  repeat' first
    | with_reducible assumption | with_reducible exact sub_of hw rfl | with_reducible apply keeps_setFld
    | with_reducible apply keeps_recoverImage | with_reducible apply keeps_writeImage
    | with_reducible apply keeps_writeConfig
    | (extract_lets +onlyGivenNames x; refine keeps_cut (w := w) (p := p) (v := x) ?_ ?_; rotate_left; clear_value x; revert x; intros; rotate_right; unfold x; clear x)
    | split

theorem keeps_writePairXfer (s : State) (n : Nat) (v : Nat) (h : Keeps w p s) (hw : Sub 0x40080 w) : Keeps w p
    (@State.writePairXfer s n v) := by
  delta State.writePairXfer
  repeat' first
    | with_reducible assumption | with_reducible exact sub_of hw rfl | with_reducible apply keeps_setXfer
    | with_reducible apply keeps_putReg | with_reducible refine keeps_ite ?_ ?_

theorem keeps_writePlanCfg (s : State) (v : Nat) (h : Keeps w p s) (hw : Sub 0x2018008c w) : Keeps w p
    (@State.writePlanCfg s v) := by
  delta State.writePlanCfg
  refine keeps_ite (keeps_ite (keeps_refuse (hw := sub_of hw rfl) _ _ _ _ _ h) (keeps_putReg (hw := sub_of hw rfl) _ _ _ _ _ h)) ?_
  exact keeps_writeEnable (hw := sub_of hw rfl) _ _ _ _ _ _ _ _ h (fun t ht => keeps_planEnable (hw := sub_of hw rfl) t ht) fun t ht => keeps_planDisable (hw := sub_of hw rfl) t ht

theorem keeps_writeUnit (s : State) (r : Reg) (i : Nat) (j : Nat) (hi : Nat) (v : Nat) (h : Keeps w p s) (hw : Sub
    0x4201ee18c w) : Keeps w p (@State.writeUnit s r i j hi v) := by
  delta State.writeUnit
  repeat' first
    | with_reducible assumption | with_reducible exact sub_of hw rfl | with_reducible apply keeps_writeEnable
    | with_reducible apply keeps_ctxEnable | with_reducible apply keeps_ctxDisable
    | with_reducible apply keeps_triggerEnable | with_reducible apply keeps_triggerDisable
    | with_reducible apply keeps_fusionEnable | with_reducible apply keeps_fusionDisable
    | with_reducible apply keeps_writePlanCfg | with_reducible apply keeps_pairEnable
    | with_reducible apply keeps_pairDisable | with_reducible apply keeps_writePairXfer
    | with_reducible apply keeps_writePartCfg | with_reducible apply keeps_writePartRate
    | with_reducible apply keeps_writeStallRate | with_reducible apply keeps_writeMasterMap
    | with_reducible apply keeps_writeMacCfg | with_reducible apply keeps_writeQbvCtrl
    | with_reducible apply keeps_qavSet | with_reducible apply keeps_writeClear | with_reducible apply keeps_writeOnes
    | with_reducible apply keeps_putReg | intro _ _ | split

theorem keeps_applyWrite (s : State) (fn : Nat) (r : Reg) (i : Nat) (j : Nat) (hi : Nat) (v : Nat) (h : Keeps w p s)
    (hw : Sub 0x6fffffd8c w) : Keeps w p (@State.applyWrite s fn r i j hi v) := by
  delta State.applyWrite
  repeat' first
    | with_reducible assumption | with_reducible exact sub_of hw rfl | with_reducible apply keeps_putReg
    | with_reducible apply keeps_writeRingCfg | with_reducible apply keeps_setOwner
    | with_reducible apply keeps_writeEnable | with_reducible apply keeps_enableErrlog
    | with_reducible apply keeps_setFld | with_reducible apply keeps_openStall | with_reducible apply keeps_closeStall
    | with_reducible apply keeps_writeOnes | with_reducible apply keeps_requestMode
    | with_reducible apply keeps_writeXfer | with_reducible apply keeps_quoteGo | with_reducible apply keeps_submit
    | with_reducible apply keeps_writeVector | with_reducible apply keeps_writeUnit
    | with_reducible refine keeps_ite ?_ ?_ | intro _ _
    | (extract_lets +onlyGivenNames x; refine keeps_cut (w := w) (p := p) (v := x) ?_ ?_; rotate_left; clear_value x; revert x; intros; rotate_right; unfold x; clear x)
    | split

theorem keeps_writeReg (s : State) (fn : Nat) (x2 : Place) (v : Nat) (h : Keeps w p s) (hw : Sub 0x6fffffd8c w) :
    Keeps w p (@State.writeReg s fn x2 v) := by
  delta State.writeReg
  repeat' first
    | with_reducible assumption | with_reducible exact sub_of hw rfl | with_reducible apply keeps_refuseWrite
    | with_reducible apply keeps_applyWrite | with_reducible refine keeps_ite ?_ ?_ | split

theorem keeps_writeWord (s : State) (fn : Nat) (o : Nat) (v : Nat) (h : Keeps w p s) (hw : Sub 0x6fffffd8c w) : Keeps
    w p (@State.writeWord s fn o v) := by
  delta State.writeWord
  repeat' first
    | with_reducible assumption | with_reducible apply keeps_writeReg | with_reducible refine keeps_ite ?_ ?_
    | (extract_lets +onlyGivenNames x; clear_value x; revert x; intros) | split

theorem keeps_writeWide (s : State) (fn : Nat) (o : Nat) (v : Nat) (h : Keeps w p s) (hw : Sub 0x6fffffd8c w) : Keeps
    w p (@State.writeWide s fn o v) := by
  delta State.writeWide
  repeat' first
    | with_reducible assumption | with_reducible apply keeps_writeReg | with_reducible apply keeps_writeWord | split

theorem keeps_execRegisterWrite (fn : Fin 32) (offset : Nat) (wide : Bool) (value : Nat) (s : State) (h : Keeps w p s)
    (hw : Sub 0x6fffffdac w) : OutKeeps w p (@execRegisterWrite fn offset wide value s) := by
  delta execRegisterWrite
  repeat' first
    | with_reducible assumption | with_reducible exact sub_of hw rfl | with_reducible refine outKeeps_next ?_
    | with_reducible apply keeps_badAccess | with_reducible apply keeps_writeWide
    | with_reducible apply keeps_writeWord | with_reducible refine outKeeps_ite ?_ ?_

theorem keeps_execSecLockSet (s : State) (h : Keeps w p s) (hw : Sub 0x80 w) : OutKeeps w p (@execSecLockSet s) := by
  delta execSecLockSet
  repeat' first
    | with_reducible assumption | with_reducible refine outKeeps_next ?_ | with_reducible apply keeps_setFld

theorem keeps_sendPending (s : State) (fn : Nat) (h : Keeps w p s) (hw : Sub 0x80080 w) : Keeps w p
    (@State.sendPending s fn) := by
  delta State.sendPending
  repeat' first
    | with_reducible assumption | with_reducible exact sub_of hw rfl | with_reducible apply keeps_sendMsix
    | with_reducible apply keeps_setFld | with_reducible refine keeps_foldl ?_ ?_
    | with_reducible refine keeps_ite ?_ ?_ | intro _ _ _ _ | intro _ _ _ | intro _ _
    | (extract_lets +onlyGivenNames x; refine keeps_cut (w := w) (p := p) (v := x) ?_ ?_; rotate_left; clear_value x; revert x; intros; rotate_right; unfold x; clear x)
    | (extract_lets +onlyGivenNames x; clear_value x; revert x; intros)
    | (extract_lets +onlyGivenNames x; revert x; intros) | split
    | with_reducible refine keeps_of_snd ?_ (by assumption) | with_reducible refine keeps_of_fst ?_ (by assumption)

theorem keeps_execPcieConfigRequest (fn : Fin 32) (busMaster : Option Bool) (numVfs : ConfigWrite) (s : State) (h :
    Keeps w p s) (hw : Sub 0x80080 w) : OutKeeps w p (@execPcieConfigRequest fn busMaster numVfs s) := by
  delta execPcieConfigRequest
  repeat' first
    | with_reducible assumption | with_reducible refine outKeeps_next ?_ | with_reducible apply keeps_sendPending
    | with_reducible refine outKeeps_ite ?_ ?_ | split | with_reducible refine keeps_set_host ?_ (sub_of hw rfl)

end Sys2Proof.Machine
end

