-- ==== Sys2Proof/Laws/State.lean ====
section
/-!
SUPPORT. Laws/State.lean: what each named update of the state leaves and sets, component by component, and what a register
field reads after an update.
-/

namespace Sys2Proof.Machine

/-! ## Register fields -/

theorem Fld.rank_inj {f g : Fld} (h : f.rank = g.rank) : f = g := by
  have h := congrArg Fld.ofNat h
  rwa [Fld.rank, Fld.rank, Fld.ofNat_ctorIdx, Fld.ofNat_ctorIdx] at h

/-- A key names one field of one instance. -/
theorem Fld.key_inj {f g : Fld} {i j k l : Nat} (h : f.key i j = g.key k l) :
    f = g ∧ i % 65536 = k % 65536 ∧ j % 65536 = l % 65536 := by
  unfold Fld.key at h
  exact ⟨Fld.rank_inj (by omega), by omega, by omega⟩

theorem fld_setFld_self (s : State) (f : Fld) (v i j : Nat) : (s.setFld f v i j).fld f i j = v % 2 ^ f.width := by
  unfold State.fld State.setFld
  rw [get_set, if_pos rfl]

theorem fld_setFld_key (s : State) (f g : Fld) (v i j k l : Nat) (h : g.key k l ≠ f.key i j) :
    (s.setFld f v i j).fld g k l = s.fld g k l := by
  unfold State.fld State.setFld
  exact get_set_other _ _ _ _ _ _ h

@[simp] theorem fld_setFld_ne (s : State) (f g : Fld) (v i j k l : Nat) (h : g ≠ f) :
    (s.setFld f v i j).fld g k l = s.fld g k l :=
  fld_setFld_key _ _ _ _ _ _ _ _ fun e => h (Fld.key_inj e).1

theorem fld_setFld_at (s : State) (f : Fld) (v i j k l : Nat) (hi : i < 65536) (hj : j < 65536) (hk : k < 65536)
    (hl : l < 65536) (h : (k, l) ≠ (i, j)) : (s.setFld f v i j).fld f k l = s.fld f k l :=
  fld_setFld_key _ _ _ _ _ _ _ _ fun e => h (by have e := (Fld.key_inj e).2; rw [Prod.mk.injEq]; omega)

theorem fieldsOnly_setFld (s : State) (f : Fld) (v i j : Nat) (hi : i < 65536) (hj : j < 65536) :
    fieldsOnly [(f, i, j)] s (s.setFld f v i j) := by
  intro g k l hk hl h
  by_cases hg : g = f
  · subst hg
    exact fld_setFld_at _ _ _ _ _ _ _ hi hj hk hl fun e => h (by
      rw [Prod.mk.injEq] at e
      rw [e.1, e.2]
      exact List.mem_singleton.2 rfl)
  · exact fld_setFld_ne _ _ _ _ _ _ _ _ hg

theorem fld_regs {s t : State} (h : t.regs = s.regs) (f : Fld) (i j : Nat) : t.fld f i j = s.fld f i j := by
  unfold State.fld
  rw [h]

theorem fieldsOnly_regs {s t : State} (h : t.regs = s.regs) (l : List (Fld × Nat × Nat)) : fieldsOnly l s t :=
  fun f i j _ _ _ => fld_regs h f i j

theorem fieldsOnly_trans {l : List (Fld × Nat × Nat)} {s t u : State} (h : fieldsOnly l s t) (k : fieldsOnly l t u) :
    fieldsOnly l s u := fun f i j hi hj hl => (k f i j hi hj hl).trans (h f i j hi hj hl)

/-! ## Updates -/

@[simp] theorem setFld_pending (s : State) (f : Fld) (v i j : Nat) : (s.setFld f v i j).pending = s.pending := rfl
@[simp] theorem setFld_now (s : State) (f : Fld) (v i j : Nat) : (s.setFld f v i j).now = s.now := rfl
@[simp] theorem setFld_arbSeq (s : State) (f : Fld) (v i j : Nat) : (s.setFld f v i j).arbSeq = s.arbSeq := rfl
@[simp] theorem setFld_freeCount (s : State) (f : Fld) (v i j : Nat) : (s.setFld f v i j).freeCount = s.freeCount := rfl
@[simp] theorem setFld_shown (s : State) (f : Fld) (v i j : Nat) : (s.setFld f v i j).shown = s.shown := rfl
@[simp] theorem setFld_readData (s : State) (f : Fld) (v i j : Nat) : (s.setFld f v i j).readData = s.readData := rfl
@[simp] theorem setFld_latches (s : State) (f : Fld) (v i j : Nat) : (s.setFld f v i j).latches = s.latches := rfl
@[simp] theorem setFld_regs (s : State) (f : Fld) (v i j : Nat) : (s.setFld f v i j).regs = Tbl.set (f.resetAt i j) s.regs (f.key i j) (v % 2 ^ f.width) := rfl
@[simp] theorem setFld_mem (s : State) (f : Fld) (v i j : Nat) : (s.setFld f v i j).mem = s.mem := rfl
@[simp] theorem setFld_hostMem (s : State) (f : Fld) (v i j : Nat) : (s.setFld f v i j).hostMem = s.hostMem := rfl
@[simp] theorem setFld_mode (s : State) (f : Fld) (v i j : Nat) : (s.setFld f v i j).mode = s.mode := rfl
@[simp] theorem setFld_transition (s : State) (f : Fld) (v i j : Nat) : (s.setFld f v i j).transition = s.transition := rfl
@[simp] theorem setFld_deferred (s : State) (f : Fld) (v i j : Nat) : (s.setFld f v i j).deferred = s.deferred := rfl
@[simp] theorem setFld_degrade (s : State) (f : Fld) (v i j : Nat) : (s.setFld f v i j).degrade = s.degrade := rfl
@[simp] theorem setFld_fabric (s : State) (f : Fld) (v i j : Nat) : (s.setFld f v i j).fabric = s.fabric := rfl
@[simp] theorem setFld_sensing (s : State) (f : Fld) (v i j : Nat) : (s.setFld f v i j).sensing = s.sensing := rfl
@[simp] theorem setFld_timeBase (s : State) (f : Fld) (v i j : Nat) : (s.setFld f v i j).timeBase = s.timeBase := rfl
@[simp] theorem setFld_memSys (s : State) (f : Fld) (v i j : Nat) : (s.setFld f v i j).memSys = s.memSys := rfl
@[simp] theorem setFld_pair (s : State) (f : Fld) (v i j : Nat) : (s.setFld f v i j).pair = s.pair := rfl
@[simp] theorem setFld_host (s : State) (f : Fld) (v i j : Nat) : (s.setFld f v i j).host = s.host := rfl
@[simp] theorem setFld_safety (s : State) (f : Fld) (v i j : Nat) : (s.setFld f v i j).safety = s.safety := rfl
@[simp] theorem setFld_stalls (s : State) (f : Fld) (v i j : Nat) : (s.setFld f v i j).stalls = s.stalls := rfl
@[simp] theorem setFld_pools (s : State) (f : Fld) (v i j : Nat) : (s.setFld f v i j).pools = s.pools := rfl
@[simp] theorem setFld_flash (s : State) (f : Fld) (v i j : Nat) : (s.setFld f v i j).flash = s.flash := rfl
@[simp] theorem setFld_boot (s : State) (f : Fld) (v i j : Nat) : (s.setFld f v i j).boot = s.boot := rfl
@[simp] theorem setFld_gauge (s : State) (f : Fld) (v i j : Nat) : (s.setFld f v i j).gauge = s.gauge := rfl
@[simp] theorem setFld_swatch (s : State) (f : Fld) (v i j : Nat) : (s.setFld f v i j).swatch = s.swatch := rfl
@[simp] theorem setFld_devLog (s : State) (f : Fld) (v i j : Nat) : (s.setFld f v i j).devLog = s.devLog := rfl
@[simp] theorem setFld_since (s : State) (f : Fld) (v i j : Nat) : (s.setFld f v i j).since = s.since := rfl
@[simp] theorem setFld_planner (s : State) (f : Fld) (v i j : Nat) : (s.setFld f v i j).planner = s.planner := rfl
@[simp] theorem setFld_power (s : State) (f : Fld) (v i j : Nat) : (s.setFld f v i j).power = s.power := rfl
@[simp] theorem setFld_thermal (s : State) (f : Fld) (v i j : Nat) : (s.setFld f v i j).thermal = s.thermal := rfl
@[simp] theorem setFld_wake (s : State) (f : Fld) (v i j : Nat) : (s.setFld f v i j).wake = s.wake := rfl
@[simp] theorem setFld_wear (s : State) (f : Fld) (v i j : Nat) : (s.setFld f v i j).wear = s.wear := rfl
@[simp] theorem setFld_macTx (s : State) (f : Fld) (v i j : Nat) : (s.setFld f v i j).macTx = s.macTx := rfl

@[simp] theorem devWrite_pending (s : State) (a : Nat) (l : List Byte) : (s.devWrite a l).pending = s.pending := rfl
@[simp] theorem devWrite_now (s : State) (a : Nat) (l : List Byte) : (s.devWrite a l).now = s.now := rfl
@[simp] theorem devWrite_arbSeq (s : State) (a : Nat) (l : List Byte) : (s.devWrite a l).arbSeq = s.arbSeq := rfl
@[simp] theorem devWrite_freeCount (s : State) (a : Nat) (l : List Byte) : (s.devWrite a l).freeCount = s.freeCount := rfl
@[simp] theorem devWrite_shown (s : State) (a : Nat) (l : List Byte) : (s.devWrite a l).shown = s.shown := rfl
@[simp] theorem devWrite_readData (s : State) (a : Nat) (l : List Byte) : (s.devWrite a l).readData = s.readData := rfl
@[simp] theorem devWrite_latches (s : State) (a : Nat) (l : List Byte) : (s.devWrite a l).latches = s.latches := rfl
@[simp] theorem devWrite_regs (s : State) (a : Nat) (l : List Byte) : (s.devWrite a l).regs = s.regs := rfl
@[simp] theorem devWrite_mem (s : State) (a : Nat) (l : List Byte) : (s.devWrite a l).mem = writeBytes s.mem a l := rfl
@[simp] theorem devWrite_hostMem (s : State) (a : Nat) (l : List Byte) : (s.devWrite a l).hostMem = s.hostMem := rfl
@[simp] theorem devWrite_mode (s : State) (a : Nat) (l : List Byte) : (s.devWrite a l).mode = s.mode := rfl
@[simp] theorem devWrite_transition (s : State) (a : Nat) (l : List Byte) : (s.devWrite a l).transition = s.transition := rfl
@[simp] theorem devWrite_deferred (s : State) (a : Nat) (l : List Byte) : (s.devWrite a l).deferred = s.deferred := rfl
@[simp] theorem devWrite_degrade (s : State) (a : Nat) (l : List Byte) : (s.devWrite a l).degrade = s.degrade := rfl
@[simp] theorem devWrite_fabric (s : State) (a : Nat) (l : List Byte) : (s.devWrite a l).fabric = s.fabric := rfl
@[simp] theorem devWrite_sensing (s : State) (a : Nat) (l : List Byte) : (s.devWrite a l).sensing = s.sensing := rfl
@[simp] theorem devWrite_timeBase (s : State) (a : Nat) (l : List Byte) : (s.devWrite a l).timeBase = s.timeBase := rfl
@[simp] theorem devWrite_memSys (s : State) (a : Nat) (l : List Byte) : (s.devWrite a l).memSys = s.memSys := rfl
@[simp] theorem devWrite_pair (s : State) (a : Nat) (l : List Byte) : (s.devWrite a l).pair = s.pair := rfl
@[simp] theorem devWrite_host (s : State) (a : Nat) (l : List Byte) : (s.devWrite a l).host = s.host := rfl
@[simp] theorem devWrite_safety (s : State) (a : Nat) (l : List Byte) : (s.devWrite a l).safety = s.safety := rfl
@[simp] theorem devWrite_stalls (s : State) (a : Nat) (l : List Byte) : (s.devWrite a l).stalls = s.stalls := rfl
@[simp] theorem devWrite_pools (s : State) (a : Nat) (l : List Byte) : (s.devWrite a l).pools = s.pools := rfl
@[simp] theorem devWrite_flash (s : State) (a : Nat) (l : List Byte) : (s.devWrite a l).flash = s.flash := rfl
@[simp] theorem devWrite_boot (s : State) (a : Nat) (l : List Byte) : (s.devWrite a l).boot = s.boot := rfl
@[simp] theorem devWrite_gauge (s : State) (a : Nat) (l : List Byte) : (s.devWrite a l).gauge = s.gauge := rfl
@[simp] theorem devWrite_swatch (s : State) (a : Nat) (l : List Byte) : (s.devWrite a l).swatch = s.swatch := rfl
@[simp] theorem devWrite_devLog (s : State) (a : Nat) (l : List Byte) : (s.devWrite a l).devLog = s.devLog := rfl
@[simp] theorem devWrite_since (s : State) (a : Nat) (l : List Byte) : (s.devWrite a l).since = s.since := rfl
@[simp] theorem devWrite_planner (s : State) (a : Nat) (l : List Byte) : (s.devWrite a l).planner = s.planner := rfl
@[simp] theorem devWrite_power (s : State) (a : Nat) (l : List Byte) : (s.devWrite a l).power = s.power := rfl
@[simp] theorem devWrite_thermal (s : State) (a : Nat) (l : List Byte) : (s.devWrite a l).thermal = s.thermal := rfl
@[simp] theorem devWrite_wake (s : State) (a : Nat) (l : List Byte) : (s.devWrite a l).wake = s.wake := rfl
@[simp] theorem devWrite_wear (s : State) (a : Nat) (l : List Byte) : (s.devWrite a l).wear = s.wear := rfl
@[simp] theorem devWrite_macTx (s : State) (a : Nat) (l : List Byte) : (s.devWrite a l).macTx = s.macTx := rfl

@[simp] theorem hostWrite_pending (s : State) (a : Nat) (l : List Byte) : (s.hostWrite a l).pending = s.pending := rfl
@[simp] theorem hostWrite_now (s : State) (a : Nat) (l : List Byte) : (s.hostWrite a l).now = s.now := rfl
@[simp] theorem hostWrite_arbSeq (s : State) (a : Nat) (l : List Byte) : (s.hostWrite a l).arbSeq = s.arbSeq := rfl
@[simp] theorem hostWrite_freeCount (s : State) (a : Nat) (l : List Byte) : (s.hostWrite a l).freeCount = s.freeCount := rfl
@[simp] theorem hostWrite_shown (s : State) (a : Nat) (l : List Byte) : (s.hostWrite a l).shown = s.shown := rfl
@[simp] theorem hostWrite_readData (s : State) (a : Nat) (l : List Byte) : (s.hostWrite a l).readData = s.readData := rfl
@[simp] theorem hostWrite_latches (s : State) (a : Nat) (l : List Byte) : (s.hostWrite a l).latches = s.latches := rfl
@[simp] theorem hostWrite_regs (s : State) (a : Nat) (l : List Byte) : (s.hostWrite a l).regs = s.regs := rfl
@[simp] theorem hostWrite_mem (s : State) (a : Nat) (l : List Byte) : (s.hostWrite a l).mem = s.mem := rfl
@[simp] theorem hostWrite_hostMem (s : State) (a : Nat) (l : List Byte) : (s.hostWrite a l).hostMem = writeBytes s.hostMem a l := rfl
@[simp] theorem hostWrite_mode (s : State) (a : Nat) (l : List Byte) : (s.hostWrite a l).mode = s.mode := rfl
@[simp] theorem hostWrite_transition (s : State) (a : Nat) (l : List Byte) : (s.hostWrite a l).transition = s.transition := rfl
@[simp] theorem hostWrite_deferred (s : State) (a : Nat) (l : List Byte) : (s.hostWrite a l).deferred = s.deferred := rfl
@[simp] theorem hostWrite_degrade (s : State) (a : Nat) (l : List Byte) : (s.hostWrite a l).degrade = s.degrade := rfl
@[simp] theorem hostWrite_fabric (s : State) (a : Nat) (l : List Byte) : (s.hostWrite a l).fabric = s.fabric := rfl
@[simp] theorem hostWrite_sensing (s : State) (a : Nat) (l : List Byte) : (s.hostWrite a l).sensing = s.sensing := rfl
@[simp] theorem hostWrite_timeBase (s : State) (a : Nat) (l : List Byte) : (s.hostWrite a l).timeBase = s.timeBase := rfl
@[simp] theorem hostWrite_memSys (s : State) (a : Nat) (l : List Byte) : (s.hostWrite a l).memSys = s.memSys := rfl
@[simp] theorem hostWrite_pair (s : State) (a : Nat) (l : List Byte) : (s.hostWrite a l).pair = s.pair := rfl
@[simp] theorem hostWrite_host (s : State) (a : Nat) (l : List Byte) : (s.hostWrite a l).host = s.host := rfl
@[simp] theorem hostWrite_safety (s : State) (a : Nat) (l : List Byte) : (s.hostWrite a l).safety = s.safety := rfl
@[simp] theorem hostWrite_stalls (s : State) (a : Nat) (l : List Byte) : (s.hostWrite a l).stalls = s.stalls := rfl
@[simp] theorem hostWrite_pools (s : State) (a : Nat) (l : List Byte) : (s.hostWrite a l).pools = s.pools := rfl
@[simp] theorem hostWrite_flash (s : State) (a : Nat) (l : List Byte) : (s.hostWrite a l).flash = s.flash := rfl
@[simp] theorem hostWrite_boot (s : State) (a : Nat) (l : List Byte) : (s.hostWrite a l).boot = s.boot := rfl
@[simp] theorem hostWrite_gauge (s : State) (a : Nat) (l : List Byte) : (s.hostWrite a l).gauge = s.gauge := rfl
@[simp] theorem hostWrite_swatch (s : State) (a : Nat) (l : List Byte) : (s.hostWrite a l).swatch = s.swatch := rfl
@[simp] theorem hostWrite_devLog (s : State) (a : Nat) (l : List Byte) : (s.hostWrite a l).devLog = s.devLog := rfl
@[simp] theorem hostWrite_since (s : State) (a : Nat) (l : List Byte) : (s.hostWrite a l).since = s.since := rfl
@[simp] theorem hostWrite_planner (s : State) (a : Nat) (l : List Byte) : (s.hostWrite a l).planner = s.planner := rfl
@[simp] theorem hostWrite_power (s : State) (a : Nat) (l : List Byte) : (s.hostWrite a l).power = s.power := rfl
@[simp] theorem hostWrite_thermal (s : State) (a : Nat) (l : List Byte) : (s.hostWrite a l).thermal = s.thermal := rfl
@[simp] theorem hostWrite_wake (s : State) (a : Nat) (l : List Byte) : (s.hostWrite a l).wake = s.wake := rfl
@[simp] theorem hostWrite_wear (s : State) (a : Nat) (l : List Byte) : (s.hostWrite a l).wear = s.wear := rfl
@[simp] theorem hostWrite_macTx (s : State) (a : Nat) (l : List Byte) : (s.hostWrite a l).macTx = s.macTx := rfl

@[simp] theorem modStall_pending (s : State) (k : Nat) (g : Stall → Stall) : (s.modStall k g).pending = s.pending := rfl
@[simp] theorem modStall_now (s : State) (k : Nat) (g : Stall → Stall) : (s.modStall k g).now = s.now := rfl
@[simp] theorem modStall_arbSeq (s : State) (k : Nat) (g : Stall → Stall) : (s.modStall k g).arbSeq = s.arbSeq := rfl
@[simp] theorem modStall_freeCount (s : State) (k : Nat) (g : Stall → Stall) : (s.modStall k g).freeCount = s.freeCount := rfl
@[simp] theorem modStall_shown (s : State) (k : Nat) (g : Stall → Stall) : (s.modStall k g).shown = s.shown := rfl
@[simp] theorem modStall_readData (s : State) (k : Nat) (g : Stall → Stall) : (s.modStall k g).readData = s.readData := rfl
@[simp] theorem modStall_latches (s : State) (k : Nat) (g : Stall → Stall) : (s.modStall k g).latches = s.latches := rfl
@[simp] theorem modStall_regs (s : State) (k : Nat) (g : Stall → Stall) : (s.modStall k g).regs = s.regs := rfl
@[simp] theorem modStall_mem (s : State) (k : Nat) (g : Stall → Stall) : (s.modStall k g).mem = s.mem := rfl
@[simp] theorem modStall_hostMem (s : State) (k : Nat) (g : Stall → Stall) : (s.modStall k g).hostMem = s.hostMem := rfl
@[simp] theorem modStall_mode (s : State) (k : Nat) (g : Stall → Stall) : (s.modStall k g).mode = s.mode := rfl
@[simp] theorem modStall_transition (s : State) (k : Nat) (g : Stall → Stall) : (s.modStall k g).transition = s.transition := rfl
@[simp] theorem modStall_deferred (s : State) (k : Nat) (g : Stall → Stall) : (s.modStall k g).deferred = s.deferred := rfl
@[simp] theorem modStall_degrade (s : State) (k : Nat) (g : Stall → Stall) : (s.modStall k g).degrade = s.degrade := rfl
@[simp] theorem modStall_fabric (s : State) (k : Nat) (g : Stall → Stall) : (s.modStall k g).fabric = s.fabric := rfl
@[simp] theorem modStall_sensing (s : State) (k : Nat) (g : Stall → Stall) : (s.modStall k g).sensing = s.sensing := rfl
@[simp] theorem modStall_timeBase (s : State) (k : Nat) (g : Stall → Stall) : (s.modStall k g).timeBase = s.timeBase := rfl
@[simp] theorem modStall_memSys (s : State) (k : Nat) (g : Stall → Stall) : (s.modStall k g).memSys = s.memSys := rfl
@[simp] theorem modStall_pair (s : State) (k : Nat) (g : Stall → Stall) : (s.modStall k g).pair = s.pair := rfl
@[simp] theorem modStall_host (s : State) (k : Nat) (g : Stall → Stall) : (s.modStall k g).host = s.host := rfl
@[simp] theorem modStall_safety (s : State) (k : Nat) (g : Stall → Stall) : (s.modStall k g).safety = s.safety := rfl
@[simp] theorem modStall_stalls (s : State) (k : Nat) (g : Stall → Stall) : (s.modStall k g).stalls = Tbl.set Stall.zero s.stalls k (g (s.stallOf k)) := rfl
@[simp] theorem modStall_pools (s : State) (k : Nat) (g : Stall → Stall) : (s.modStall k g).pools = s.pools := rfl
@[simp] theorem modStall_flash (s : State) (k : Nat) (g : Stall → Stall) : (s.modStall k g).flash = s.flash := rfl
@[simp] theorem modStall_boot (s : State) (k : Nat) (g : Stall → Stall) : (s.modStall k g).boot = s.boot := rfl
@[simp] theorem modStall_gauge (s : State) (k : Nat) (g : Stall → Stall) : (s.modStall k g).gauge = s.gauge := rfl
@[simp] theorem modStall_swatch (s : State) (k : Nat) (g : Stall → Stall) : (s.modStall k g).swatch = s.swatch := rfl
@[simp] theorem modStall_devLog (s : State) (k : Nat) (g : Stall → Stall) : (s.modStall k g).devLog = s.devLog := rfl
@[simp] theorem modStall_since (s : State) (k : Nat) (g : Stall → Stall) : (s.modStall k g).since = s.since := rfl
@[simp] theorem modStall_planner (s : State) (k : Nat) (g : Stall → Stall) : (s.modStall k g).planner = s.planner := rfl
@[simp] theorem modStall_power (s : State) (k : Nat) (g : Stall → Stall) : (s.modStall k g).power = s.power := rfl
@[simp] theorem modStall_thermal (s : State) (k : Nat) (g : Stall → Stall) : (s.modStall k g).thermal = s.thermal := rfl
@[simp] theorem modStall_wake (s : State) (k : Nat) (g : Stall → Stall) : (s.modStall k g).wake = s.wake := rfl
@[simp] theorem modStall_wear (s : State) (k : Nat) (g : Stall → Stall) : (s.modStall k g).wear = s.wear := rfl
@[simp] theorem modStall_macTx (s : State) (k : Nat) (g : Stall → Stall) : (s.modStall k g).macTx = s.macTx := rfl

@[simp] theorem setRing_pending (s : State) (fn ring : Nat) (r : Ring) : (s.setRing fn ring r).pending = s.pending := rfl
@[simp] theorem setRing_now (s : State) (fn ring : Nat) (r : Ring) : (s.setRing fn ring r).now = s.now := rfl
@[simp] theorem setRing_arbSeq (s : State) (fn ring : Nat) (r : Ring) : (s.setRing fn ring r).arbSeq = s.arbSeq := rfl
@[simp] theorem setRing_freeCount (s : State) (fn ring : Nat) (r : Ring) : (s.setRing fn ring r).freeCount = s.freeCount := rfl
@[simp] theorem setRing_shown (s : State) (fn ring : Nat) (r : Ring) : (s.setRing fn ring r).shown = s.shown := rfl
@[simp] theorem setRing_readData (s : State) (fn ring : Nat) (r : Ring) : (s.setRing fn ring r).readData = s.readData := rfl
@[simp] theorem setRing_latches (s : State) (fn ring : Nat) (r : Ring) : (s.setRing fn ring r).latches = s.latches := rfl
@[simp] theorem setRing_regs (s : State) (fn ring : Nat) (r : Ring) : (s.setRing fn ring r).regs = s.regs := rfl
@[simp] theorem setRing_mem (s : State) (fn ring : Nat) (r : Ring) : (s.setRing fn ring r).mem = s.mem := rfl
@[simp] theorem setRing_hostMem (s : State) (fn ring : Nat) (r : Ring) : (s.setRing fn ring r).hostMem = s.hostMem := rfl
@[simp] theorem setRing_mode (s : State) (fn ring : Nat) (r : Ring) : (s.setRing fn ring r).mode = s.mode := rfl
@[simp] theorem setRing_transition (s : State) (fn ring : Nat) (r : Ring) : (s.setRing fn ring r).transition = s.transition := rfl
@[simp] theorem setRing_deferred (s : State) (fn ring : Nat) (r : Ring) : (s.setRing fn ring r).deferred = s.deferred := rfl
@[simp] theorem setRing_degrade (s : State) (fn ring : Nat) (r : Ring) : (s.setRing fn ring r).degrade = s.degrade := rfl
@[simp] theorem setRing_fabric (s : State) (fn ring : Nat) (r : Ring) : (s.setRing fn ring r).fabric = s.fabric := rfl
@[simp] theorem setRing_sensing (s : State) (fn ring : Nat) (r : Ring) : (s.setRing fn ring r).sensing = s.sensing := rfl
@[simp] theorem setRing_timeBase (s : State) (fn ring : Nat) (r : Ring) : (s.setRing fn ring r).timeBase = s.timeBase := rfl
@[simp] theorem setRing_memSys (s : State) (fn ring : Nat) (r : Ring) : (s.setRing fn ring r).memSys = s.memSys := rfl
@[simp] theorem setRing_pair (s : State) (fn ring : Nat) (r : Ring) : (s.setRing fn ring r).pair = s.pair := rfl
@[simp] theorem setRing_host (s : State) (fn ring : Nat) (r : Ring) : (s.setRing fn ring r).host = { s.host with rings := Tbl.set Ring.zero s.host.rings (ringKey fn ring) r } := rfl
@[simp] theorem setRing_safety (s : State) (fn ring : Nat) (r : Ring) : (s.setRing fn ring r).safety = s.safety := rfl
@[simp] theorem setRing_stalls (s : State) (fn ring : Nat) (r : Ring) : (s.setRing fn ring r).stalls = s.stalls := rfl
@[simp] theorem setRing_pools (s : State) (fn ring : Nat) (r : Ring) : (s.setRing fn ring r).pools = s.pools := rfl
@[simp] theorem setRing_flash (s : State) (fn ring : Nat) (r : Ring) : (s.setRing fn ring r).flash = s.flash := rfl
@[simp] theorem setRing_boot (s : State) (fn ring : Nat) (r : Ring) : (s.setRing fn ring r).boot = s.boot := rfl
@[simp] theorem setRing_gauge (s : State) (fn ring : Nat) (r : Ring) : (s.setRing fn ring r).gauge = s.gauge := rfl
@[simp] theorem setRing_swatch (s : State) (fn ring : Nat) (r : Ring) : (s.setRing fn ring r).swatch = s.swatch := rfl
@[simp] theorem setRing_devLog (s : State) (fn ring : Nat) (r : Ring) : (s.setRing fn ring r).devLog = s.devLog := rfl
@[simp] theorem setRing_since (s : State) (fn ring : Nat) (r : Ring) : (s.setRing fn ring r).since = s.since := rfl
@[simp] theorem setRing_planner (s : State) (fn ring : Nat) (r : Ring) : (s.setRing fn ring r).planner = s.planner := rfl
@[simp] theorem setRing_power (s : State) (fn ring : Nat) (r : Ring) : (s.setRing fn ring r).power = s.power := rfl
@[simp] theorem setRing_thermal (s : State) (fn ring : Nat) (r : Ring) : (s.setRing fn ring r).thermal = s.thermal := rfl
@[simp] theorem setRing_wake (s : State) (fn ring : Nat) (r : Ring) : (s.setRing fn ring r).wake = s.wake := rfl
@[simp] theorem setRing_wear (s : State) (fn ring : Nat) (r : Ring) : (s.setRing fn ring r).wear = s.wear := rfl
@[simp] theorem setRing_macTx (s : State) (fn ring : Nat) (r : Ring) : (s.setRing fn ring r).macTx = s.macTx := rfl

@[simp] theorem putMarker_pending (s : State) (m v : Nat) : (s.putMarker m v).pending = s.pending := rfl
@[simp] theorem putMarker_now (s : State) (m v : Nat) : (s.putMarker m v).now = s.now := rfl
@[simp] theorem putMarker_arbSeq (s : State) (m v : Nat) : (s.putMarker m v).arbSeq = s.arbSeq := rfl
@[simp] theorem putMarker_freeCount (s : State) (m v : Nat) : (s.putMarker m v).freeCount = s.freeCount := rfl
@[simp] theorem putMarker_shown (s : State) (m v : Nat) : (s.putMarker m v).shown = s.shown := rfl
@[simp] theorem putMarker_readData (s : State) (m v : Nat) : (s.putMarker m v).readData = s.readData := rfl
@[simp] theorem putMarker_latches (s : State) (m v : Nat) : (s.putMarker m v).latches = s.latches := rfl
@[simp] theorem putMarker_regs (s : State) (m v : Nat) : (s.putMarker m v).regs = s.regs := rfl
@[simp] theorem putMarker_mem (s : State) (m v : Nat) : (s.putMarker m v).mem = s.mem := rfl
@[simp] theorem putMarker_hostMem (s : State) (m v : Nat) : (s.putMarker m v).hostMem = s.hostMem := rfl
@[simp] theorem putMarker_mode (s : State) (m v : Nat) : (s.putMarker m v).mode = s.mode := rfl
@[simp] theorem putMarker_transition (s : State) (m v : Nat) : (s.putMarker m v).transition = s.transition := rfl
@[simp] theorem putMarker_deferred (s : State) (m v : Nat) : (s.putMarker m v).deferred = s.deferred := rfl
@[simp] theorem putMarker_degrade (s : State) (m v : Nat) : (s.putMarker m v).degrade = s.degrade := rfl
@[simp] theorem putMarker_fabric (s : State) (m v : Nat) : (s.putMarker m v).fabric = s.fabric := rfl
@[simp] theorem putMarker_sensing (s : State) (m v : Nat) : (s.putMarker m v).sensing = s.sensing := rfl
@[simp] theorem putMarker_timeBase (s : State) (m v : Nat) : (s.putMarker m v).timeBase = s.timeBase := rfl
@[simp] theorem putMarker_memSys (s : State) (m v : Nat) : (s.putMarker m v).memSys = s.memSys := rfl
@[simp] theorem putMarker_pair (s : State) (m v : Nat) : (s.putMarker m v).pair = s.pair := rfl
@[simp] theorem putMarker_host (s : State) (m v : Nat) : (s.putMarker m v).host = { s.host with markers := Tbl.set 0 s.host.markers m (v % 4294967296) } := rfl
@[simp] theorem putMarker_safety (s : State) (m v : Nat) : (s.putMarker m v).safety = s.safety := rfl
@[simp] theorem putMarker_stalls (s : State) (m v : Nat) : (s.putMarker m v).stalls = s.stalls := rfl
@[simp] theorem putMarker_pools (s : State) (m v : Nat) : (s.putMarker m v).pools = s.pools := rfl
@[simp] theorem putMarker_flash (s : State) (m v : Nat) : (s.putMarker m v).flash = s.flash := rfl
@[simp] theorem putMarker_boot (s : State) (m v : Nat) : (s.putMarker m v).boot = s.boot := rfl
@[simp] theorem putMarker_gauge (s : State) (m v : Nat) : (s.putMarker m v).gauge = s.gauge := rfl
@[simp] theorem putMarker_swatch (s : State) (m v : Nat) : (s.putMarker m v).swatch = s.swatch := rfl
@[simp] theorem putMarker_devLog (s : State) (m v : Nat) : (s.putMarker m v).devLog = s.devLog := rfl
@[simp] theorem putMarker_since (s : State) (m v : Nat) : (s.putMarker m v).since = s.since := rfl
@[simp] theorem putMarker_planner (s : State) (m v : Nat) : (s.putMarker m v).planner = s.planner := rfl
@[simp] theorem putMarker_power (s : State) (m v : Nat) : (s.putMarker m v).power = s.power := rfl
@[simp] theorem putMarker_thermal (s : State) (m v : Nat) : (s.putMarker m v).thermal = s.thermal := rfl
@[simp] theorem putMarker_wake (s : State) (m v : Nat) : (s.putMarker m v).wake = s.wake := rfl
@[simp] theorem putMarker_wear (s : State) (m v : Nat) : (s.putMarker m v).wear = s.wear := rfl
@[simp] theorem putMarker_macTx (s : State) (m v : Nat) : (s.putMarker m v).macTx = s.macTx := rfl

@[simp] theorem modBoot_pending (s : State) (g : Boot → Boot) : (s.modBoot g).pending = s.pending := rfl
@[simp] theorem modBoot_now (s : State) (g : Boot → Boot) : (s.modBoot g).now = s.now := rfl
@[simp] theorem modBoot_arbSeq (s : State) (g : Boot → Boot) : (s.modBoot g).arbSeq = s.arbSeq := rfl
@[simp] theorem modBoot_freeCount (s : State) (g : Boot → Boot) : (s.modBoot g).freeCount = s.freeCount := rfl
@[simp] theorem modBoot_shown (s : State) (g : Boot → Boot) : (s.modBoot g).shown = s.shown := rfl
@[simp] theorem modBoot_readData (s : State) (g : Boot → Boot) : (s.modBoot g).readData = s.readData := rfl
@[simp] theorem modBoot_latches (s : State) (g : Boot → Boot) : (s.modBoot g).latches = s.latches := rfl
@[simp] theorem modBoot_regs (s : State) (g : Boot → Boot) : (s.modBoot g).regs = s.regs := rfl
@[simp] theorem modBoot_mem (s : State) (g : Boot → Boot) : (s.modBoot g).mem = s.mem := rfl
@[simp] theorem modBoot_hostMem (s : State) (g : Boot → Boot) : (s.modBoot g).hostMem = s.hostMem := rfl
@[simp] theorem modBoot_mode (s : State) (g : Boot → Boot) : (s.modBoot g).mode = s.mode := rfl
@[simp] theorem modBoot_transition (s : State) (g : Boot → Boot) : (s.modBoot g).transition = s.transition := rfl
@[simp] theorem modBoot_deferred (s : State) (g : Boot → Boot) : (s.modBoot g).deferred = s.deferred := rfl
@[simp] theorem modBoot_degrade (s : State) (g : Boot → Boot) : (s.modBoot g).degrade = s.degrade := rfl
@[simp] theorem modBoot_fabric (s : State) (g : Boot → Boot) : (s.modBoot g).fabric = s.fabric := rfl
@[simp] theorem modBoot_sensing (s : State) (g : Boot → Boot) : (s.modBoot g).sensing = s.sensing := rfl
@[simp] theorem modBoot_timeBase (s : State) (g : Boot → Boot) : (s.modBoot g).timeBase = s.timeBase := rfl
@[simp] theorem modBoot_memSys (s : State) (g : Boot → Boot) : (s.modBoot g).memSys = s.memSys := rfl
@[simp] theorem modBoot_pair (s : State) (g : Boot → Boot) : (s.modBoot g).pair = s.pair := rfl
@[simp] theorem modBoot_host (s : State) (g : Boot → Boot) : (s.modBoot g).host = s.host := rfl
@[simp] theorem modBoot_safety (s : State) (g : Boot → Boot) : (s.modBoot g).safety = s.safety := rfl
@[simp] theorem modBoot_stalls (s : State) (g : Boot → Boot) : (s.modBoot g).stalls = s.stalls := rfl
@[simp] theorem modBoot_pools (s : State) (g : Boot → Boot) : (s.modBoot g).pools = s.pools := rfl
@[simp] theorem modBoot_flash (s : State) (g : Boot → Boot) : (s.modBoot g).flash = s.flash := rfl
@[simp] theorem modBoot_boot (s : State) (g : Boot → Boot) : (s.modBoot g).boot = g s.boot := rfl
@[simp] theorem modBoot_gauge (s : State) (g : Boot → Boot) : (s.modBoot g).gauge = s.gauge := rfl
@[simp] theorem modBoot_swatch (s : State) (g : Boot → Boot) : (s.modBoot g).swatch = s.swatch := rfl
@[simp] theorem modBoot_devLog (s : State) (g : Boot → Boot) : (s.modBoot g).devLog = s.devLog := rfl
@[simp] theorem modBoot_since (s : State) (g : Boot → Boot) : (s.modBoot g).since = s.since := rfl
@[simp] theorem modBoot_planner (s : State) (g : Boot → Boot) : (s.modBoot g).planner = s.planner := rfl
@[simp] theorem modBoot_power (s : State) (g : Boot → Boot) : (s.modBoot g).power = s.power := rfl
@[simp] theorem modBoot_thermal (s : State) (g : Boot → Boot) : (s.modBoot g).thermal = s.thermal := rfl
@[simp] theorem modBoot_wake (s : State) (g : Boot → Boot) : (s.modBoot g).wake = s.wake := rfl
@[simp] theorem modBoot_wear (s : State) (g : Boot → Boot) : (s.modBoot g).wear = s.wear := rfl
@[simp] theorem modBoot_macTx (s : State) (g : Boot → Boot) : (s.modBoot g).macTx = s.macTx := rfl

@[simp] theorem modPower_pending (s : State) (g : Power → Power) : (s.modPower g).pending = s.pending := rfl
@[simp] theorem modPower_now (s : State) (g : Power → Power) : (s.modPower g).now = s.now := rfl
@[simp] theorem modPower_arbSeq (s : State) (g : Power → Power) : (s.modPower g).arbSeq = s.arbSeq := rfl
@[simp] theorem modPower_freeCount (s : State) (g : Power → Power) : (s.modPower g).freeCount = s.freeCount := rfl
@[simp] theorem modPower_shown (s : State) (g : Power → Power) : (s.modPower g).shown = s.shown := rfl
@[simp] theorem modPower_readData (s : State) (g : Power → Power) : (s.modPower g).readData = s.readData := rfl
@[simp] theorem modPower_latches (s : State) (g : Power → Power) : (s.modPower g).latches = s.latches := rfl
@[simp] theorem modPower_regs (s : State) (g : Power → Power) : (s.modPower g).regs = s.regs := rfl
@[simp] theorem modPower_mem (s : State) (g : Power → Power) : (s.modPower g).mem = s.mem := rfl
@[simp] theorem modPower_hostMem (s : State) (g : Power → Power) : (s.modPower g).hostMem = s.hostMem := rfl
@[simp] theorem modPower_mode (s : State) (g : Power → Power) : (s.modPower g).mode = s.mode := rfl
@[simp] theorem modPower_transition (s : State) (g : Power → Power) : (s.modPower g).transition = s.transition := rfl
@[simp] theorem modPower_deferred (s : State) (g : Power → Power) : (s.modPower g).deferred = s.deferred := rfl
@[simp] theorem modPower_degrade (s : State) (g : Power → Power) : (s.modPower g).degrade = s.degrade := rfl
@[simp] theorem modPower_fabric (s : State) (g : Power → Power) : (s.modPower g).fabric = s.fabric := rfl
@[simp] theorem modPower_sensing (s : State) (g : Power → Power) : (s.modPower g).sensing = s.sensing := rfl
@[simp] theorem modPower_timeBase (s : State) (g : Power → Power) : (s.modPower g).timeBase = s.timeBase := rfl
@[simp] theorem modPower_memSys (s : State) (g : Power → Power) : (s.modPower g).memSys = s.memSys := rfl
@[simp] theorem modPower_pair (s : State) (g : Power → Power) : (s.modPower g).pair = s.pair := rfl
@[simp] theorem modPower_host (s : State) (g : Power → Power) : (s.modPower g).host = s.host := rfl
@[simp] theorem modPower_safety (s : State) (g : Power → Power) : (s.modPower g).safety = s.safety := rfl
@[simp] theorem modPower_stalls (s : State) (g : Power → Power) : (s.modPower g).stalls = s.stalls := rfl
@[simp] theorem modPower_pools (s : State) (g : Power → Power) : (s.modPower g).pools = s.pools := rfl
@[simp] theorem modPower_flash (s : State) (g : Power → Power) : (s.modPower g).flash = s.flash := rfl
@[simp] theorem modPower_boot (s : State) (g : Power → Power) : (s.modPower g).boot = s.boot := rfl
@[simp] theorem modPower_gauge (s : State) (g : Power → Power) : (s.modPower g).gauge = s.gauge := rfl
@[simp] theorem modPower_swatch (s : State) (g : Power → Power) : (s.modPower g).swatch = s.swatch := rfl
@[simp] theorem modPower_devLog (s : State) (g : Power → Power) : (s.modPower g).devLog = s.devLog := rfl
@[simp] theorem modPower_since (s : State) (g : Power → Power) : (s.modPower g).since = s.since := rfl
@[simp] theorem modPower_planner (s : State) (g : Power → Power) : (s.modPower g).planner = s.planner := rfl
@[simp] theorem modPower_power (s : State) (g : Power → Power) : (s.modPower g).power = g s.power := rfl
@[simp] theorem modPower_thermal (s : State) (g : Power → Power) : (s.modPower g).thermal = s.thermal := rfl
@[simp] theorem modPower_wake (s : State) (g : Power → Power) : (s.modPower g).wake = s.wake := rfl
@[simp] theorem modPower_wear (s : State) (g : Power → Power) : (s.modPower g).wear = s.wear := rfl
@[simp] theorem modPower_macTx (s : State) (g : Power → Power) : (s.modPower g).macTx = s.macTx := rfl

@[simp] theorem modPlanner_pending (s : State) (g : Planner → Planner) : (s.modPlanner g).pending = s.pending := rfl
@[simp] theorem modPlanner_now (s : State) (g : Planner → Planner) : (s.modPlanner g).now = s.now := rfl
@[simp] theorem modPlanner_arbSeq (s : State) (g : Planner → Planner) : (s.modPlanner g).arbSeq = s.arbSeq := rfl
@[simp] theorem modPlanner_freeCount (s : State) (g : Planner → Planner) : (s.modPlanner g).freeCount = s.freeCount := rfl
@[simp] theorem modPlanner_shown (s : State) (g : Planner → Planner) : (s.modPlanner g).shown = s.shown := rfl
@[simp] theorem modPlanner_readData (s : State) (g : Planner → Planner) : (s.modPlanner g).readData = s.readData := rfl
@[simp] theorem modPlanner_latches (s : State) (g : Planner → Planner) : (s.modPlanner g).latches = s.latches := rfl
@[simp] theorem modPlanner_regs (s : State) (g : Planner → Planner) : (s.modPlanner g).regs = s.regs := rfl
@[simp] theorem modPlanner_mem (s : State) (g : Planner → Planner) : (s.modPlanner g).mem = s.mem := rfl
@[simp] theorem modPlanner_hostMem (s : State) (g : Planner → Planner) : (s.modPlanner g).hostMem = s.hostMem := rfl
@[simp] theorem modPlanner_mode (s : State) (g : Planner → Planner) : (s.modPlanner g).mode = s.mode := rfl
@[simp] theorem modPlanner_transition (s : State) (g : Planner → Planner) : (s.modPlanner g).transition = s.transition := rfl
@[simp] theorem modPlanner_deferred (s : State) (g : Planner → Planner) : (s.modPlanner g).deferred = s.deferred := rfl
@[simp] theorem modPlanner_degrade (s : State) (g : Planner → Planner) : (s.modPlanner g).degrade = s.degrade := rfl
@[simp] theorem modPlanner_fabric (s : State) (g : Planner → Planner) : (s.modPlanner g).fabric = s.fabric := rfl
@[simp] theorem modPlanner_sensing (s : State) (g : Planner → Planner) : (s.modPlanner g).sensing = s.sensing := rfl
@[simp] theorem modPlanner_timeBase (s : State) (g : Planner → Planner) : (s.modPlanner g).timeBase = s.timeBase := rfl
@[simp] theorem modPlanner_memSys (s : State) (g : Planner → Planner) : (s.modPlanner g).memSys = s.memSys := rfl
@[simp] theorem modPlanner_pair (s : State) (g : Planner → Planner) : (s.modPlanner g).pair = s.pair := rfl
@[simp] theorem modPlanner_host (s : State) (g : Planner → Planner) : (s.modPlanner g).host = s.host := rfl
@[simp] theorem modPlanner_safety (s : State) (g : Planner → Planner) : (s.modPlanner g).safety = s.safety := rfl
@[simp] theorem modPlanner_stalls (s : State) (g : Planner → Planner) : (s.modPlanner g).stalls = s.stalls := rfl
@[simp] theorem modPlanner_pools (s : State) (g : Planner → Planner) : (s.modPlanner g).pools = s.pools := rfl
@[simp] theorem modPlanner_flash (s : State) (g : Planner → Planner) : (s.modPlanner g).flash = s.flash := rfl
@[simp] theorem modPlanner_boot (s : State) (g : Planner → Planner) : (s.modPlanner g).boot = s.boot := rfl
@[simp] theorem modPlanner_gauge (s : State) (g : Planner → Planner) : (s.modPlanner g).gauge = s.gauge := rfl
@[simp] theorem modPlanner_swatch (s : State) (g : Planner → Planner) : (s.modPlanner g).swatch = s.swatch := rfl
@[simp] theorem modPlanner_devLog (s : State) (g : Planner → Planner) : (s.modPlanner g).devLog = s.devLog := rfl
@[simp] theorem modPlanner_since (s : State) (g : Planner → Planner) : (s.modPlanner g).since = s.since := rfl
@[simp] theorem modPlanner_planner (s : State) (g : Planner → Planner) : (s.modPlanner g).planner = g s.planner := rfl
@[simp] theorem modPlanner_power (s : State) (g : Planner → Planner) : (s.modPlanner g).power = s.power := rfl
@[simp] theorem modPlanner_thermal (s : State) (g : Planner → Planner) : (s.modPlanner g).thermal = s.thermal := rfl
@[simp] theorem modPlanner_wake (s : State) (g : Planner → Planner) : (s.modPlanner g).wake = s.wake := rfl
@[simp] theorem modPlanner_wear (s : State) (g : Planner → Planner) : (s.modPlanner g).wear = s.wear := rfl
@[simp] theorem modPlanner_macTx (s : State) (g : Planner → Planner) : (s.modPlanner g).macTx = s.macTx := rfl

@[simp] theorem setPair_pending (s : State) (p : PairLink) : (s.setPair p).pending = s.pending := rfl
@[simp] theorem setPair_now (s : State) (p : PairLink) : (s.setPair p).now = s.now := rfl
@[simp] theorem setPair_arbSeq (s : State) (p : PairLink) : (s.setPair p).arbSeq = s.arbSeq := rfl
@[simp] theorem setPair_freeCount (s : State) (p : PairLink) : (s.setPair p).freeCount = s.freeCount := rfl
@[simp] theorem setPair_shown (s : State) (p : PairLink) : (s.setPair p).shown = s.shown := rfl
@[simp] theorem setPair_readData (s : State) (p : PairLink) : (s.setPair p).readData = s.readData := rfl
@[simp] theorem setPair_latches (s : State) (p : PairLink) : (s.setPair p).latches = s.latches := rfl
@[simp] theorem setPair_regs (s : State) (p : PairLink) : (s.setPair p).regs = s.regs := rfl
@[simp] theorem setPair_mem (s : State) (p : PairLink) : (s.setPair p).mem = s.mem := rfl
@[simp] theorem setPair_hostMem (s : State) (p : PairLink) : (s.setPair p).hostMem = s.hostMem := rfl
@[simp] theorem setPair_mode (s : State) (p : PairLink) : (s.setPair p).mode = s.mode := rfl
@[simp] theorem setPair_transition (s : State) (p : PairLink) : (s.setPair p).transition = s.transition := rfl
@[simp] theorem setPair_deferred (s : State) (p : PairLink) : (s.setPair p).deferred = s.deferred := rfl
@[simp] theorem setPair_degrade (s : State) (p : PairLink) : (s.setPair p).degrade = s.degrade := rfl
@[simp] theorem setPair_fabric (s : State) (p : PairLink) : (s.setPair p).fabric = s.fabric := rfl
@[simp] theorem setPair_sensing (s : State) (p : PairLink) : (s.setPair p).sensing = s.sensing := rfl
@[simp] theorem setPair_timeBase (s : State) (p : PairLink) : (s.setPair p).timeBase = s.timeBase := rfl
@[simp] theorem setPair_memSys (s : State) (p : PairLink) : (s.setPair p).memSys = s.memSys := rfl
@[simp] theorem setPair_pair (s : State) (p : PairLink) : (s.setPair p).pair = p := rfl
@[simp] theorem setPair_host (s : State) (p : PairLink) : (s.setPair p).host = s.host := rfl
@[simp] theorem setPair_safety (s : State) (p : PairLink) : (s.setPair p).safety = s.safety := rfl
@[simp] theorem setPair_stalls (s : State) (p : PairLink) : (s.setPair p).stalls = s.stalls := rfl
@[simp] theorem setPair_pools (s : State) (p : PairLink) : (s.setPair p).pools = s.pools := rfl
@[simp] theorem setPair_flash (s : State) (p : PairLink) : (s.setPair p).flash = s.flash := rfl
@[simp] theorem setPair_boot (s : State) (p : PairLink) : (s.setPair p).boot = s.boot := rfl
@[simp] theorem setPair_gauge (s : State) (p : PairLink) : (s.setPair p).gauge = s.gauge := rfl
@[simp] theorem setPair_swatch (s : State) (p : PairLink) : (s.setPair p).swatch = s.swatch := rfl
@[simp] theorem setPair_devLog (s : State) (p : PairLink) : (s.setPair p).devLog = s.devLog := rfl
@[simp] theorem setPair_since (s : State) (p : PairLink) : (s.setPair p).since = s.since := rfl
@[simp] theorem setPair_planner (s : State) (p : PairLink) : (s.setPair p).planner = s.planner := rfl
@[simp] theorem setPair_power (s : State) (p : PairLink) : (s.setPair p).power = s.power := rfl
@[simp] theorem setPair_thermal (s : State) (p : PairLink) : (s.setPair p).thermal = s.thermal := rfl
@[simp] theorem setPair_wake (s : State) (p : PairLink) : (s.setPair p).wake = s.wake := rfl
@[simp] theorem setPair_wear (s : State) (p : PairLink) : (s.setPair p).wear = s.wear := rfl
@[simp] theorem setPair_macTx (s : State) (p : PairLink) : (s.setPair p).macTx = s.macTx := rfl

@[simp] theorem modWear_pending (s : State) (g : Wear → Wear) : (s.modWear g).pending = s.pending := rfl
@[simp] theorem modWear_now (s : State) (g : Wear → Wear) : (s.modWear g).now = s.now := rfl
@[simp] theorem modWear_arbSeq (s : State) (g : Wear → Wear) : (s.modWear g).arbSeq = s.arbSeq := rfl
@[simp] theorem modWear_freeCount (s : State) (g : Wear → Wear) : (s.modWear g).freeCount = s.freeCount := rfl
@[simp] theorem modWear_shown (s : State) (g : Wear → Wear) : (s.modWear g).shown = s.shown := rfl
@[simp] theorem modWear_readData (s : State) (g : Wear → Wear) : (s.modWear g).readData = s.readData := rfl
@[simp] theorem modWear_latches (s : State) (g : Wear → Wear) : (s.modWear g).latches = s.latches := rfl
@[simp] theorem modWear_regs (s : State) (g : Wear → Wear) : (s.modWear g).regs = s.regs := rfl
@[simp] theorem modWear_mem (s : State) (g : Wear → Wear) : (s.modWear g).mem = s.mem := rfl
@[simp] theorem modWear_hostMem (s : State) (g : Wear → Wear) : (s.modWear g).hostMem = s.hostMem := rfl
@[simp] theorem modWear_mode (s : State) (g : Wear → Wear) : (s.modWear g).mode = s.mode := rfl
@[simp] theorem modWear_transition (s : State) (g : Wear → Wear) : (s.modWear g).transition = s.transition := rfl
@[simp] theorem modWear_deferred (s : State) (g : Wear → Wear) : (s.modWear g).deferred = s.deferred := rfl
@[simp] theorem modWear_degrade (s : State) (g : Wear → Wear) : (s.modWear g).degrade = s.degrade := rfl
@[simp] theorem modWear_fabric (s : State) (g : Wear → Wear) : (s.modWear g).fabric = s.fabric := rfl
@[simp] theorem modWear_sensing (s : State) (g : Wear → Wear) : (s.modWear g).sensing = s.sensing := rfl
@[simp] theorem modWear_timeBase (s : State) (g : Wear → Wear) : (s.modWear g).timeBase = s.timeBase := rfl
@[simp] theorem modWear_memSys (s : State) (g : Wear → Wear) : (s.modWear g).memSys = s.memSys := rfl
@[simp] theorem modWear_pair (s : State) (g : Wear → Wear) : (s.modWear g).pair = s.pair := rfl
@[simp] theorem modWear_host (s : State) (g : Wear → Wear) : (s.modWear g).host = s.host := rfl
@[simp] theorem modWear_safety (s : State) (g : Wear → Wear) : (s.modWear g).safety = s.safety := rfl
@[simp] theorem modWear_stalls (s : State) (g : Wear → Wear) : (s.modWear g).stalls = s.stalls := rfl
@[simp] theorem modWear_pools (s : State) (g : Wear → Wear) : (s.modWear g).pools = s.pools := rfl
@[simp] theorem modWear_flash (s : State) (g : Wear → Wear) : (s.modWear g).flash = s.flash := rfl
@[simp] theorem modWear_boot (s : State) (g : Wear → Wear) : (s.modWear g).boot = s.boot := rfl
@[simp] theorem modWear_gauge (s : State) (g : Wear → Wear) : (s.modWear g).gauge = s.gauge := rfl
@[simp] theorem modWear_swatch (s : State) (g : Wear → Wear) : (s.modWear g).swatch = s.swatch := rfl
@[simp] theorem modWear_devLog (s : State) (g : Wear → Wear) : (s.modWear g).devLog = s.devLog := rfl
@[simp] theorem modWear_since (s : State) (g : Wear → Wear) : (s.modWear g).since = s.since := rfl
@[simp] theorem modWear_planner (s : State) (g : Wear → Wear) : (s.modWear g).planner = s.planner := rfl
@[simp] theorem modWear_power (s : State) (g : Wear → Wear) : (s.modWear g).power = s.power := rfl
@[simp] theorem modWear_thermal (s : State) (g : Wear → Wear) : (s.modWear g).thermal = s.thermal := rfl
@[simp] theorem modWear_wake (s : State) (g : Wear → Wear) : (s.modWear g).wake = s.wake := rfl
@[simp] theorem modWear_wear (s : State) (g : Wear → Wear) : (s.modWear g).wear = g s.wear := rfl
@[simp] theorem modWear_macTx (s : State) (g : Wear → Wear) : (s.modWear g).macTx = s.macTx := rfl

/-! ## Error records (R375) -/

/-- What making a record keeps: everything but the event arbiter, the free values drawn and the islands' queues. -/
theorem reportWith_same (s : State) (code sev o : Nat) (d0 d1 : Option Nat) (q : Option (Nat × Nat)) (i u : Bool) :
    Same 0x10000c s (s.reportWith code sev o d0 d1 q i u) :=
  (keeps_reportWith s code sev o d0 d1 q i u (keeps_refl 0x10000c s) rfl).2.2.2.2.2.2.2

@[simp] theorem reportWith_pending (s : State) (code sev o : Nat) (d0 d1 : Option Nat) (q : Option (Nat × Nat)) (i u : Bool) :
    (s.reportWith code sev o d0 d1 q i u).pending = s.pending := (keeps_reportWith s code sev o d0 d1 q i u (keeps_refl 0x10000c s) rfl).1
@[simp] theorem reportWith_now (s : State) (code sev o : Nat) (d0 d1 : Option Nat) (q : Option (Nat × Nat)) (i u : Bool) :
    (s.reportWith code sev o d0 d1 q i u).now = s.now := (reportWith_same s code sev o d0 d1 q i u).1 rfl
@[simp] theorem reportWith_shown (s : State) (code sev o : Nat) (d0 d1 : Option Nat) (q : Option (Nat × Nat)) (i u : Bool) :
    (s.reportWith code sev o d0 d1 q i u).shown = s.shown := (reportWith_same s code sev o d0 d1 q i u).2.2.2.1 rfl
@[simp] theorem reportWith_readData (s : State) (code sev o : Nat) (d0 d1 : Option Nat) (q : Option (Nat × Nat)) (i u : Bool) :
    (s.reportWith code sev o d0 d1 q i u).readData = s.readData := (reportWith_same s code sev o d0 d1 q i u).2.2.2.2.1 rfl
@[simp] theorem reportWith_latches (s : State) (code sev o : Nat) (d0 d1 : Option Nat) (q : Option (Nat × Nat)) (i u : Bool) :
    (s.reportWith code sev o d0 d1 q i u).latches = s.latches := (reportWith_same s code sev o d0 d1 q i u).2.2.2.2.2.1 rfl
@[simp] theorem reportWith_regs (s : State) (code sev o : Nat) (d0 d1 : Option Nat) (q : Option (Nat × Nat)) (i u : Bool) :
    (s.reportWith code sev o d0 d1 q i u).regs = s.regs := (reportWith_same s code sev o d0 d1 q i u).2.2.2.2.2.2.1 rfl
@[simp] theorem reportWith_mem (s : State) (code sev o : Nat) (d0 d1 : Option Nat) (q : Option (Nat × Nat)) (i u : Bool) :
    (s.reportWith code sev o d0 d1 q i u).mem = s.mem := (reportWith_same s code sev o d0 d1 q i u).2.2.2.2.2.2.2.1 rfl
@[simp] theorem reportWith_hostMem (s : State) (code sev o : Nat) (d0 d1 : Option Nat) (q : Option (Nat × Nat)) (i u : Bool) :
    (s.reportWith code sev o d0 d1 q i u).hostMem = s.hostMem := (reportWith_same s code sev o d0 d1 q i u).2.2.2.2.2.2.2.2.1 rfl
@[simp] theorem reportWith_mode (s : State) (code sev o : Nat) (d0 d1 : Option Nat) (q : Option (Nat × Nat)) (i u : Bool) :
    (s.reportWith code sev o d0 d1 q i u).mode = s.mode := (reportWith_same s code sev o d0 d1 q i u).2.2.2.2.2.2.2.2.2.1 rfl
@[simp] theorem reportWith_transition (s : State) (code sev o : Nat) (d0 d1 : Option Nat) (q : Option (Nat × Nat)) (i u : Bool) :
    (s.reportWith code sev o d0 d1 q i u).transition = s.transition := (reportWith_same s code sev o d0 d1 q i u).2.2.2.2.2.2.2.2.2.2.1 rfl
@[simp] theorem reportWith_deferred (s : State) (code sev o : Nat) (d0 d1 : Option Nat) (q : Option (Nat × Nat)) (i u : Bool) :
    (s.reportWith code sev o d0 d1 q i u).deferred = s.deferred := (reportWith_same s code sev o d0 d1 q i u).2.2.2.2.2.2.2.2.2.2.2.1 rfl
@[simp] theorem reportWith_degrade (s : State) (code sev o : Nat) (d0 d1 : Option Nat) (q : Option (Nat × Nat)) (i u : Bool) :
    (s.reportWith code sev o d0 d1 q i u).degrade = s.degrade := (reportWith_same s code sev o d0 d1 q i u).2.2.2.2.2.2.2.2.2.2.2.2.1 rfl
@[simp] theorem reportWith_fabric (s : State) (code sev o : Nat) (d0 d1 : Option Nat) (q : Option (Nat × Nat)) (i u : Bool) :
    (s.reportWith code sev o d0 d1 q i u).fabric = s.fabric := (reportWith_same s code sev o d0 d1 q i u).2.2.2.2.2.2.2.2.2.2.2.2.2.1 rfl
@[simp] theorem reportWith_sensing (s : State) (code sev o : Nat) (d0 d1 : Option Nat) (q : Option (Nat × Nat)) (i u : Bool) :
    (s.reportWith code sev o d0 d1 q i u).sensing = s.sensing := (reportWith_same s code sev o d0 d1 q i u).2.2.2.2.2.2.2.2.2.2.2.2.2.2.1 rfl
@[simp] theorem reportWith_timeBase (s : State) (code sev o : Nat) (d0 d1 : Option Nat) (q : Option (Nat × Nat)) (i u : Bool) :
    (s.reportWith code sev o d0 d1 q i u).timeBase = s.timeBase := (reportWith_same s code sev o d0 d1 q i u).2.2.2.2.2.2.2.2.2.2.2.2.2.2.2.1 rfl
@[simp] theorem reportWith_memSys (s : State) (code sev o : Nat) (d0 d1 : Option Nat) (q : Option (Nat × Nat)) (i u : Bool) :
    (s.reportWith code sev o d0 d1 q i u).memSys = s.memSys := (reportWith_same s code sev o d0 d1 q i u).2.2.2.2.2.2.2.2.2.2.2.2.2.2.2.2.1 rfl
@[simp] theorem reportWith_pair (s : State) (code sev o : Nat) (d0 d1 : Option Nat) (q : Option (Nat × Nat)) (i u : Bool) :
    (s.reportWith code sev o d0 d1 q i u).pair = s.pair := (reportWith_same s code sev o d0 d1 q i u).2.2.2.2.2.2.2.2.2.2.2.2.2.2.2.2.2.1 rfl
@[simp] theorem reportWith_host (s : State) (code sev o : Nat) (d0 d1 : Option Nat) (q : Option (Nat × Nat)) (i u : Bool) :
    (s.reportWith code sev o d0 d1 q i u).host = s.host := (reportWith_same s code sev o d0 d1 q i u).2.2.2.2.2.2.2.2.2.2.2.2.2.2.2.2.2.2.1 rfl
@[simp] theorem reportWith_stalls (s : State) (code sev o : Nat) (d0 d1 : Option Nat) (q : Option (Nat × Nat)) (i u : Bool) :
    (s.reportWith code sev o d0 d1 q i u).stalls = s.stalls := (reportWith_same s code sev o d0 d1 q i u).2.2.2.2.2.2.2.2.2.2.2.2.2.2.2.2.2.2.2.2.1 rfl
@[simp] theorem reportWith_pools (s : State) (code sev o : Nat) (d0 d1 : Option Nat) (q : Option (Nat × Nat)) (i u : Bool) :
    (s.reportWith code sev o d0 d1 q i u).pools = s.pools := (reportWith_same s code sev o d0 d1 q i u).2.2.2.2.2.2.2.2.2.2.2.2.2.2.2.2.2.2.2.2.2.1 rfl
@[simp] theorem reportWith_flash (s : State) (code sev o : Nat) (d0 d1 : Option Nat) (q : Option (Nat × Nat)) (i u : Bool) :
    (s.reportWith code sev o d0 d1 q i u).flash = s.flash := (reportWith_same s code sev o d0 d1 q i u).2.2.2.2.2.2.2.2.2.2.2.2.2.2.2.2.2.2.2.2.2.2.1 rfl
@[simp] theorem reportWith_boot (s : State) (code sev o : Nat) (d0 d1 : Option Nat) (q : Option (Nat × Nat)) (i u : Bool) :
    (s.reportWith code sev o d0 d1 q i u).boot = s.boot := (reportWith_same s code sev o d0 d1 q i u).2.2.2.2.2.2.2.2.2.2.2.2.2.2.2.2.2.2.2.2.2.2.2.1 rfl
@[simp] theorem reportWith_gauge (s : State) (code sev o : Nat) (d0 d1 : Option Nat) (q : Option (Nat × Nat)) (i u : Bool) :
    (s.reportWith code sev o d0 d1 q i u).gauge = s.gauge := (reportWith_same s code sev o d0 d1 q i u).2.2.2.2.2.2.2.2.2.2.2.2.2.2.2.2.2.2.2.2.2.2.2.2.1 rfl
@[simp] theorem reportWith_swatch (s : State) (code sev o : Nat) (d0 d1 : Option Nat) (q : Option (Nat × Nat)) (i u : Bool) :
    (s.reportWith code sev o d0 d1 q i u).swatch = s.swatch := (reportWith_same s code sev o d0 d1 q i u).2.2.2.2.2.2.2.2.2.2.2.2.2.2.2.2.2.2.2.2.2.2.2.2.2.1 rfl
@[simp] theorem reportWith_devLog (s : State) (code sev o : Nat) (d0 d1 : Option Nat) (q : Option (Nat × Nat)) (i u : Bool) :
    (s.reportWith code sev o d0 d1 q i u).devLog = s.devLog := (reportWith_same s code sev o d0 d1 q i u).2.2.2.2.2.2.2.2.2.2.2.2.2.2.2.2.2.2.2.2.2.2.2.2.2.2.1 rfl
@[simp] theorem reportWith_since (s : State) (code sev o : Nat) (d0 d1 : Option Nat) (q : Option (Nat × Nat)) (i u : Bool) :
    (s.reportWith code sev o d0 d1 q i u).since = s.since := (reportWith_same s code sev o d0 d1 q i u).2.2.2.2.2.2.2.2.2.2.2.2.2.2.2.2.2.2.2.2.2.2.2.2.2.2.2.1 rfl
@[simp] theorem reportWith_planner (s : State) (code sev o : Nat) (d0 d1 : Option Nat) (q : Option (Nat × Nat)) (i u : Bool) :
    (s.reportWith code sev o d0 d1 q i u).planner = s.planner := (reportWith_same s code sev o d0 d1 q i u).2.2.2.2.2.2.2.2.2.2.2.2.2.2.2.2.2.2.2.2.2.2.2.2.2.2.2.2.1 rfl
@[simp] theorem reportWith_power (s : State) (code sev o : Nat) (d0 d1 : Option Nat) (q : Option (Nat × Nat)) (i u : Bool) :
    (s.reportWith code sev o d0 d1 q i u).power = s.power := (reportWith_same s code sev o d0 d1 q i u).2.2.2.2.2.2.2.2.2.2.2.2.2.2.2.2.2.2.2.2.2.2.2.2.2.2.2.2.2.1 rfl
@[simp] theorem reportWith_thermal (s : State) (code sev o : Nat) (d0 d1 : Option Nat) (q : Option (Nat × Nat)) (i u : Bool) :
    (s.reportWith code sev o d0 d1 q i u).thermal = s.thermal := (reportWith_same s code sev o d0 d1 q i u).2.2.2.2.2.2.2.2.2.2.2.2.2.2.2.2.2.2.2.2.2.2.2.2.2.2.2.2.2.2.1 rfl
@[simp] theorem reportWith_wake (s : State) (code sev o : Nat) (d0 d1 : Option Nat) (q : Option (Nat × Nat)) (i u : Bool) :
    (s.reportWith code sev o d0 d1 q i u).wake = s.wake := (reportWith_same s code sev o d0 d1 q i u).2.2.2.2.2.2.2.2.2.2.2.2.2.2.2.2.2.2.2.2.2.2.2.2.2.2.2.2.2.2.2.1 rfl
@[simp] theorem reportWith_wear (s : State) (code sev o : Nat) (d0 d1 : Option Nat) (q : Option (Nat × Nat)) (i u : Bool) :
    (s.reportWith code sev o d0 d1 q i u).wear = s.wear := (reportWith_same s code sev o d0 d1 q i u).2.2.2.2.2.2.2.2.2.2.2.2.2.2.2.2.2.2.2.2.2.2.2.2.2.2.2.2.2.2.2.2.1 rfl
@[simp] theorem reportWith_macTx (s : State) (code sev o : Nat) (d0 d1 : Option Nat) (q : Option (Nat × Nat)) (i u : Bool) :
    (s.reportWith code sev o d0 d1 q i u).macTx = s.macTx := (reportWith_same s code sev o d0 d1 q i u).2.2.2.2.2.2.2.2.2.2.2.2.2.2.2.2.2.2.2.2.2.2.2.2.2.2.2.2.2.2.2.2.2 rfl

@[simp] theorem report_pending (s : State) (code sev o : Nat) (d0 d1 : Option Nat) (q : Option (Nat × Nat)) :
    (s.report code sev d0 d1 q o).pending = s.pending := reportWith_pending ..
@[simp] theorem report_now (s : State) (code sev o : Nat) (d0 d1 : Option Nat) (q : Option (Nat × Nat)) :
    (s.report code sev d0 d1 q o).now = s.now := reportWith_now ..
@[simp] theorem report_shown (s : State) (code sev o : Nat) (d0 d1 : Option Nat) (q : Option (Nat × Nat)) :
    (s.report code sev d0 d1 q o).shown = s.shown := reportWith_shown ..
@[simp] theorem report_readData (s : State) (code sev o : Nat) (d0 d1 : Option Nat) (q : Option (Nat × Nat)) :
    (s.report code sev d0 d1 q o).readData = s.readData := reportWith_readData ..
@[simp] theorem report_latches (s : State) (code sev o : Nat) (d0 d1 : Option Nat) (q : Option (Nat × Nat)) :
    (s.report code sev d0 d1 q o).latches = s.latches := reportWith_latches ..
@[simp] theorem report_regs (s : State) (code sev o : Nat) (d0 d1 : Option Nat) (q : Option (Nat × Nat)) :
    (s.report code sev d0 d1 q o).regs = s.regs := reportWith_regs ..
@[simp] theorem report_mem (s : State) (code sev o : Nat) (d0 d1 : Option Nat) (q : Option (Nat × Nat)) :
    (s.report code sev d0 d1 q o).mem = s.mem := reportWith_mem ..
@[simp] theorem report_hostMem (s : State) (code sev o : Nat) (d0 d1 : Option Nat) (q : Option (Nat × Nat)) :
    (s.report code sev d0 d1 q o).hostMem = s.hostMem := reportWith_hostMem ..
@[simp] theorem report_mode (s : State) (code sev o : Nat) (d0 d1 : Option Nat) (q : Option (Nat × Nat)) :
    (s.report code sev d0 d1 q o).mode = s.mode := reportWith_mode ..
@[simp] theorem report_transition (s : State) (code sev o : Nat) (d0 d1 : Option Nat) (q : Option (Nat × Nat)) :
    (s.report code sev d0 d1 q o).transition = s.transition := reportWith_transition ..
@[simp] theorem report_deferred (s : State) (code sev o : Nat) (d0 d1 : Option Nat) (q : Option (Nat × Nat)) :
    (s.report code sev d0 d1 q o).deferred = s.deferred := reportWith_deferred ..
@[simp] theorem report_degrade (s : State) (code sev o : Nat) (d0 d1 : Option Nat) (q : Option (Nat × Nat)) :
    (s.report code sev d0 d1 q o).degrade = s.degrade := reportWith_degrade ..
@[simp] theorem report_fabric (s : State) (code sev o : Nat) (d0 d1 : Option Nat) (q : Option (Nat × Nat)) :
    (s.report code sev d0 d1 q o).fabric = s.fabric := reportWith_fabric ..
@[simp] theorem report_sensing (s : State) (code sev o : Nat) (d0 d1 : Option Nat) (q : Option (Nat × Nat)) :
    (s.report code sev d0 d1 q o).sensing = s.sensing := reportWith_sensing ..
@[simp] theorem report_timeBase (s : State) (code sev o : Nat) (d0 d1 : Option Nat) (q : Option (Nat × Nat)) :
    (s.report code sev d0 d1 q o).timeBase = s.timeBase := reportWith_timeBase ..
@[simp] theorem report_memSys (s : State) (code sev o : Nat) (d0 d1 : Option Nat) (q : Option (Nat × Nat)) :
    (s.report code sev d0 d1 q o).memSys = s.memSys := reportWith_memSys ..
@[simp] theorem report_pair (s : State) (code sev o : Nat) (d0 d1 : Option Nat) (q : Option (Nat × Nat)) :
    (s.report code sev d0 d1 q o).pair = s.pair := reportWith_pair ..
@[simp] theorem report_host (s : State) (code sev o : Nat) (d0 d1 : Option Nat) (q : Option (Nat × Nat)) :
    (s.report code sev d0 d1 q o).host = s.host := reportWith_host ..
@[simp] theorem report_stalls (s : State) (code sev o : Nat) (d0 d1 : Option Nat) (q : Option (Nat × Nat)) :
    (s.report code sev d0 d1 q o).stalls = s.stalls := reportWith_stalls ..
@[simp] theorem report_pools (s : State) (code sev o : Nat) (d0 d1 : Option Nat) (q : Option (Nat × Nat)) :
    (s.report code sev d0 d1 q o).pools = s.pools := reportWith_pools ..
@[simp] theorem report_flash (s : State) (code sev o : Nat) (d0 d1 : Option Nat) (q : Option (Nat × Nat)) :
    (s.report code sev d0 d1 q o).flash = s.flash := reportWith_flash ..
@[simp] theorem report_boot (s : State) (code sev o : Nat) (d0 d1 : Option Nat) (q : Option (Nat × Nat)) :
    (s.report code sev d0 d1 q o).boot = s.boot := reportWith_boot ..
@[simp] theorem report_gauge (s : State) (code sev o : Nat) (d0 d1 : Option Nat) (q : Option (Nat × Nat)) :
    (s.report code sev d0 d1 q o).gauge = s.gauge := reportWith_gauge ..
@[simp] theorem report_swatch (s : State) (code sev o : Nat) (d0 d1 : Option Nat) (q : Option (Nat × Nat)) :
    (s.report code sev d0 d1 q o).swatch = s.swatch := reportWith_swatch ..
@[simp] theorem report_devLog (s : State) (code sev o : Nat) (d0 d1 : Option Nat) (q : Option (Nat × Nat)) :
    (s.report code sev d0 d1 q o).devLog = s.devLog := reportWith_devLog ..
@[simp] theorem report_since (s : State) (code sev o : Nat) (d0 d1 : Option Nat) (q : Option (Nat × Nat)) :
    (s.report code sev d0 d1 q o).since = s.since := reportWith_since ..
@[simp] theorem report_planner (s : State) (code sev o : Nat) (d0 d1 : Option Nat) (q : Option (Nat × Nat)) :
    (s.report code sev d0 d1 q o).planner = s.planner := reportWith_planner ..
@[simp] theorem report_power (s : State) (code sev o : Nat) (d0 d1 : Option Nat) (q : Option (Nat × Nat)) :
    (s.report code sev d0 d1 q o).power = s.power := reportWith_power ..
@[simp] theorem report_thermal (s : State) (code sev o : Nat) (d0 d1 : Option Nat) (q : Option (Nat × Nat)) :
    (s.report code sev d0 d1 q o).thermal = s.thermal := reportWith_thermal ..
@[simp] theorem report_wake (s : State) (code sev o : Nat) (d0 d1 : Option Nat) (q : Option (Nat × Nat)) :
    (s.report code sev d0 d1 q o).wake = s.wake := reportWith_wake ..
@[simp] theorem report_wear (s : State) (code sev o : Nat) (d0 d1 : Option Nat) (q : Option (Nat × Nat)) :
    (s.report code sev d0 d1 q o).wear = s.wear := reportWith_wear ..
@[simp] theorem report_macTx (s : State) (code sev o : Nat) (d0 d1 : Option Nat) (q : Option (Nat × Nat)) :
    (s.report code sev d0 d1 q o).macTx = s.macTx := reportWith_macTx ..

@[simp] theorem report_fld (s : State) (code sev o : Nat) (d0 d1 : Option Nat) (q : Option (Nat × Nat)) (f : Fld) (i j : Nat) :
    (s.report code sev d0 d1 q o).fld f i j = s.fld f i j := fld_regs (by simp) f i j

/-- A record is on its way to the islands' queues (R375): one more at the end, with its code and severity. -/
theorem reportWith_inFlight (s : State) (code sev o : Nat) (d0 d1 : Option Nat) (q : Option (Nat × Nat)) (i u : Bool) :
    ∃ r : ErrRec, (s.reportWith code sev o d0 d1 q i u).safety.errq.inFlight = s.safety.errq.inFlight ++ [r] ∧
      r.code = code ∧ r.sev = sev ∧ r.origin = o ∧ r.injected = i ∧ r.request = q := by
  cases u <;> cases d0 <;> cases d1 <;> exact ⟨_, rfl, rfl, rfl, rfl, rfl, rfl⟩

end Sys2Proof.Machine
end

