-- ==== Sys2Proof/Laws/Named.lean ====
section
/-!
SUPPORT. Laws/Named.lean: what reading a named thing (a pool, a stall, a marker, a buffer, a program, the run of a command, a
descriptor, an island) gives after it was changed.
-/

namespace Sys2Proof.Machine

/-! ## Lists -/

theorem getElem?_setAt_self {α : Type} (l : List α) (i : Nat) (v : α) (h : i < l.length) : (setAt l i v)[i]? = some v := by
  induction l generalizing i with
  | nil => exact absurd h (Nat.not_lt_zero _)
  | cons x l ih =>
    cases i with
    | zero => rfl
    | succ i => exact ih i (Nat.lt_of_succ_lt_succ h)

theorem getElem?_setAt_other {α : Type} (l : List α) (i j : Nat) (v : α) (h : j ≠ i) : (setAt l i v)[j]? = l[j]? := by
  induction l generalizing i j with
  | nil => rfl
  | cons x l ih =>
    cases i with
    | zero => cases j with
      | zero => exact absurd rfl h
      | succ j => rfl
    | succ i => cases j with
      | zero => rfl
      | succ j => exact ih i j fun e => h (congrArg (· + 1) e)

/-! ## Tables -/

@[simp] theorem pool_setPool (s : State) (id : Nat) (p : Option Pool) : (s.setPool id p).pool id = p := get_set_self ..

theorem pool_setPool_other (s : State) (id k : Nat) (p : Option Pool) (h : k ≠ id) : (s.setPool id p).pool k = s.pool k :=
  get_set_other _ _ _ _ _ _ h

@[simp] theorem stallOf_modStall (s : State) (k : Nat) (g : Stall → Stall) : (s.modStall k g).stallOf k = g (s.stallOf k) :=
  get_set_self ..

theorem stallOf_modStall_other (s : State) (k j : Nat) (g : Stall → Stall) (h : j ≠ k) :
    (s.modStall k g).stallOf j = s.stallOf j := get_set_other _ _ _ _ _ _ h

@[simp] theorem marker_putMarker (s : State) (m v : Nat) : (s.putMarker m v).marker m = v % 4294967296 := get_set_self ..

theorem marker_putMarker_other (s : State) (m k v : Nat) (h : k ≠ m) : (s.putMarker m v).marker k = s.marker k :=
  get_set_other _ _ _ _ _ _ h

@[simp] theorem buffer_setBuffer (s : State) (id : Nat) (b : Option Buffer) : (s.setBuffer id b).buffer id = b :=
  get_set_self ..

@[simp] theorem watch_setWatch (s : State) (d w : Nat) (x : Watch) : (s.setWatch d w x).watch d w = x := get_set_self ..

@[simp] theorem slot_setSlot (s : State) (fn k : Nat) (x : Slot) : (s.setSlot fn k x).slot fn k = x := get_set_self ..

@[simp] theorem ring_setRing (s : State) (fn k : Nat) (r : Ring) : (s.setRing fn k r).ring fn k = r := get_set_self ..

/-! ## Programs -/

@[simp] theorem program_setSlot (s : State) (fn k : Nat) (p : Program) : (s.setSlot fn k (.loaded p)).program fn k = some p := by
  unfold State.program
  rw [slot_setSlot]

theorem program_modProgram (s : State) (fn k : Nat) (g : Program → Program) :
    (s.modProgram fn k g).program fn k = (s.program fn k).map g := by
  unfold State.modProgram
  cases h : s.program fn k <;> simp [h]

theorem find_map_number (l : List Iteration) (n : Nat) (g : Iteration → Iteration) (hg : ∀ i, (g i).number = i.number) :
    (l.map fun i => if i.number == n then g i else i).find? (·.number == n) = (l.find? (·.number == n)).map g := by
  induction l with
  | nil => rfl
  | cons i l ih =>
    rw [List.map_cons, List.find?_cons, List.find?_cons]
    by_cases h : i.number == n
    · simp [h, hg]
    · simp only [Bool.not_eq_true] at h
      simp only [h, Bool.false_eq_true, if_false, ih]

theorem iteration_modIteration (s : State) (fn k n : Nat) (g : Iteration → Iteration) (hg : ∀ i, (g i).number = i.number) :
    (s.modIteration fn k n g).iteration fn k n = (s.iteration fn k n).map g := by
  unfold State.modIteration State.iteration
  dsimp only
  rw [program_modProgram]
  cases s.program fn k with
  | none => rfl
  | some p =>
    simp only [Option.map_some, Option.bind_some]
    rw [← find_map_number _ _ _ hg]
    congr 1
    unfold Program.iterations
    cases p.running <;> simp

/-- A program with its iteration `n` changed. -/
def Program.modIter (p : Program) (n : Nat) (g : Iteration → Iteration) : Program :=
  { p with running := p.running.map fun r => { r with iters := r.iters.map fun i => if i.number == n then g i else i },
           tail := p.tail.map fun i => if i.number == n then g i else i }

/-- The run of a command after it was changed; its iteration and its program are otherwise as before. -/
theorem cmdRun_modRun (s : State) (c : CmdRef) (g : CmdRun → CmdRun) (p : Program) (it : Iteration) (k : Command) (r : CmdRun)
    (h : s.cmdRun c = some (p, it, k, r)) :
    (s.modRun c g).cmdRun c = some (p.modIter c.iter fun i => match i.runs[c.cmd]? with
        | some r => { i with runs := setAt i.runs c.cmd (g r) }
        | none => i, { it with runs := setAt it.runs c.cmd (g r) }, k, g r) := by
  unfold State.cmdRun at h ⊢
  cases hp : s.program c.fn c.slot with
  | none => simp [hp] at h
  | some p0 =>
    cases hi : s.iteration c.fn c.slot c.iter with
    | none => simp [hp, hi] at h
    | some i0 =>
      cases hk : p0.commands[c.cmd]? with
      | none => simp [hp, hi, hk] at h
      | some k0 =>
        cases hr : i0.runs[c.cmd]? with
        | none => simp [hp, hi, hk, hr] at h
        | some r0 =>
          simp only [hp, hi, hk, hr, Option.some.injEq, Prod.mk.injEq] at h
          obtain ⟨rfl, rfl, rfl, rfl⟩ := h
          have e1 : (s.modRun c g).program c.fn c.slot = (s.program c.fn c.slot).map fun p =>
              p.modIter c.iter fun i => match i.runs[c.cmd]? with
                | some r => { i with runs := setAt i.runs c.cmd (g r) }
                | none => i := program_modProgram s c.fn c.slot _
          rw [hp] at e1
          have e2 : (s.modRun c g).iteration c.fn c.slot c.iter = some { i0 with runs := setAt i0.runs c.cmd (g r0) } := by
            unfold State.modRun
            rw [iteration_modIteration, hi]
            · simp [hr]
            · intro i
              split <;> rfl
          have e3 : (setAt i0.runs c.cmd (g r0))[c.cmd]? = some (g r0) := by
            have hl : c.cmd < i0.runs.length := by
              rcases Nat.lt_or_ge c.cmd i0.runs.length with h | h
              · exact h
              · rw [List.getElem?_eq_none h] at hr; cases hr
            exact getElem?_setAt_self _ _ _ hl
          rw [e1, e2]
          have e4 : ∀ f, (p0.modIter c.iter f).commands[c.cmd]? = some k0 := fun _ => hk
          simp only [Option.map_some, e3, e4]

/-! ## Descriptors -/

theorem find_map_order (l : List Desc) (o k : Nat) (g : Desc → Desc) (x : Desc)
    (hg : ∀ y, (g y).slot = y.slot ∧ (g y).orphan = y.orphan)
    (h : l.find? (fun y => y.slot == k && !y.orphan) = some x) (hx : x.order = o) :
    (l.map fun y => if y.order == o then g y else y).find? (fun y => y.slot == k && !y.orphan) = some (g x) := by
  induction l with
  | nil => cases h
  | cons y l ih =>
    rw [List.find?_cons] at h
    rw [List.map_cons, List.find?_cons]
    by_cases hy : (y.slot == k && !y.orphan) = true
    · rw [hy] at h
      cases h
      have hz : ((if x.order == o then g x else x).slot == k && !(if x.order == o then g x else x).orphan) = true := by
        simp [hx, (hg x).1, (hg x).2]; simpa using hy
      rw [hz]
      simp [hx]
    · simp only [Bool.not_eq_true] at hy
      rw [hy] at h
      have hz : ((if y.order == o then g y else y).slot == k && !(if y.order == o then g y else y).orphan) = false := by
        split
        · rw [(hg y).1, (hg y).2]; exact hy
        · exact hy
      rw [hz]
      exact ih h

theorem desc_modTicket (s : State) (d : DescRef) (x : Desc) (g : Desc → Desc)
    (hg : ∀ y, (g y).slot = y.slot ∧ (g y).orphan = y.orphan) (h : s.desc d = some x) :
    (s.modTicket (ticketOf d x) g).desc d = some (g x) := by
  unfold State.desc State.ring State.modTicket ticketOf at *
  simp only [get_set_self]
  exact find_map_order _ _ _ g x hg h rfl

/-- What a completed effect leaves of its descriptor (R300). -/
theorem desc_finish (s : State) (d : DescRef) (x : Desc) (a b c : Nat) (h : s.desc d = some x) (hx : x.done = none) :
    (s.finish (ticketOf d x) a b c).desc d = some { x with started := true, done := some (a, b, c) } := by
  unfold State.finish
  split
  · rw [desc_modTicket _ d x _ _ (show (s.stallCode _ a).desc d = some x from h)]
    · simp [hx]
    · intro y; split <;> exact ⟨rfl, rfl⟩
  · rw [desc_modTicket _ d x _ _ h]
    · simp [hx]
    · intro y; split <;> exact ⟨rfl, rfl⟩

/-- A descriptor that may start has its effect on a state that differs only in that it has started. -/
theorem begin_of_startable (s : State) (d : DescRef) (x : Desc) (kind : Desc → Bool) (k : State → Ticket → Desc → State)
    (h : startable s d x) (hk : kind x = true) :
    ∃ u, s.begin d kind k = k u (ticketOf d x) x ∧ u = { s with host := { s.host with rings := u.host.rings } } ∧
      u.desc d = some { x with started := true } := by
  obtain ⟨h1, h2, h3, h4, h5, h6, h7, h8, h9, h10⟩ := h
  let v := s.modTicket (ticketOf d x) fun x => { x with started := true }
  have hv : v.desc d = some { x with started := true } := by
    exact desc_modTicket s d x (fun x => { x with started := true }) (fun _ => ⟨rfl, rfl⟩) h1
  have e : s.begin d kind k =
      (fun (w : State) => if (x.flag 5 && (x.val 0 1 == 3 || x.flag 0)) && (s.ring d.fn d.ring).badSince.any fun o => decide (o < x.order) then w.finish (ticketOf d x) 0x610 0 0
      else match w.descCheck d.fn x with
        | some code => (w.modTicket (ticketOf d x) fun x => { x with refused := true }).finish (ticketOf d x) code 0 0
        | none => if w.stallBars d.fn && [1, 2, 7, 8].contains (x.val 0 1) then w.finish (ticketOf d x) 0xC02 0 0
          else k w (ticketOf d x) x)
      (if x.flag 5 && (x.val 0 1 == 3 || x.flag 0) then v.setRing d.fn d.ring { v.ring d.fn d.ring with badSince := [] }
        else v) := by
    unfold State.begin
    rw [h1]
    dsimp only
    exact (if_neg (by simp [h2, hk, h4, h6, h7, h8])).trans rfl
  have key : ∀ w : State, w = { s with host := { s.host with rings := w.host.rings } } →
      w.desc d = some { x with started := true } →
      (if (x.flag 5 && (x.val 0 1 == 3 || x.flag 0)) && (s.ring d.fn d.ring).badSince.any fun o => decide (o < x.order) then w.finish (ticketOf d x) 0x610 0 0
      else match w.descCheck d.fn x with
        | some code => (w.modTicket (ticketOf d x) fun x => { x with refused := true }).finish (ticketOf d x) code 0 0
        | none => if w.stallBars d.fn && [1, 2, 7, 8].contains (x.val 0 1) then w.finish (ticketOf d x) 0xC02 0 0
          else k w (ticketOf d x) x) = k w (ticketOf d x) x := by
    intro w hw _
    have a1 : w.descCheck d.fn x = none := by rw [hw]; exact h9
    have a2 : w.stallBars d.fn = false := by rw [hw]; exact h10
    rw [h5, a1, a2]
    simp
  rw [e]
  have hw : (v.setRing d.fn d.ring { v.ring d.fn d.ring with badSince := [] }).desc d = some { x with started := true } := by
    unfold State.desc at hv ⊢
    rw [ring_setRing]
    exact hv
  generalize hz : (if x.flag 5 && (x.val 0 1 == 3 || x.flag 0) then
    v.setRing d.fn d.ring { v.ring d.fn d.ring with badSince := [] } else v) = z
  have h11 : z.desc d = some { x with started := true } := by
    rw [← hz]
    split <;> assumption
  have h12 : z = { s with host := { s.host with rings := z.host.rings } } := by
    rw [← hz]
    split <;> rfl
  exact ⟨z, key z h12 h11, h12, h11⟩

end Sys2Proof.Machine
end

