-- ==== Sys2Proof/Laws/Parts.lean ====
section
/-!
SUPPORT. Laws/Parts.lean: one component of the state out of what an operation keeps.
-/

namespace Sys2Proof.Machine

variable {w : Nat} {p s : State}

theorem keeps_pending_eq (h : Keeps w p s) : s.pending = p.pending := h.1

theorem keeps_now_eq (h : Keeps w p s) (hw : w.testBit 1 = false) : s.now = p.now :=
  h.2.2.2.2.2.2.2.1 hw

theorem keeps_arbSeq_eq (h : Keeps w p s) (hw : w.testBit 2 = false) : s.arbSeq = p.arbSeq :=
  h.2.2.2.2.2.2.2.2.1 hw

theorem keeps_freeCount_eq (h : Keeps w p s) (hw : w.testBit 3 = false) : s.freeCount = p.freeCount :=
  h.2.2.2.2.2.2.2.2.2.1 hw

theorem keeps_shown_eq (h : Keeps w p s) (hw : w.testBit 4 = false) : s.shown = p.shown :=
  h.2.2.2.2.2.2.2.2.2.2.1 hw

theorem keeps_readData_eq (h : Keeps w p s) (hw : w.testBit 5 = false) : s.readData = p.readData :=
  h.2.2.2.2.2.2.2.2.2.2.2.1 hw

theorem keeps_latches_eq (h : Keeps w p s) (hw : w.testBit 6 = false) : s.latches = p.latches :=
  h.2.2.2.2.2.2.2.2.2.2.2.2.1 hw

theorem keeps_regs_eq (h : Keeps w p s) (hw : w.testBit 7 = false) : s.regs = p.regs :=
  h.2.2.2.2.2.2.2.2.2.2.2.2.2.1 hw

theorem keeps_mem_eq (h : Keeps w p s) (hw : w.testBit 8 = false) : s.mem = p.mem :=
  h.2.2.2.2.2.2.2.2.2.2.2.2.2.2.1 hw

theorem keeps_hostMem_eq (h : Keeps w p s) (hw : w.testBit 9 = false) : s.hostMem = p.hostMem :=
  h.2.2.2.2.2.2.2.2.2.2.2.2.2.2.2.1 hw

theorem keeps_mode_eq (h : Keeps w p s) (hw : w.testBit 10 = false) : s.mode = p.mode :=
  h.2.2.2.2.2.2.2.2.2.2.2.2.2.2.2.2.1 hw

theorem keeps_transition_eq (h : Keeps w p s) (hw : w.testBit 11 = false) : s.transition = p.transition :=
  h.2.2.2.2.2.2.2.2.2.2.2.2.2.2.2.2.2.1 hw

theorem keeps_deferred_eq (h : Keeps w p s) (hw : w.testBit 12 = false) : s.deferred = p.deferred :=
  h.2.2.2.2.2.2.2.2.2.2.2.2.2.2.2.2.2.2.1 hw

theorem keeps_degrade_eq (h : Keeps w p s) (hw : w.testBit 13 = false) : s.degrade = p.degrade :=
  h.2.2.2.2.2.2.2.2.2.2.2.2.2.2.2.2.2.2.2.1 hw

theorem keeps_fabric_eq (h : Keeps w p s) (hw : w.testBit 14 = false) : s.fabric = p.fabric :=
  h.2.2.2.2.2.2.2.2.2.2.2.2.2.2.2.2.2.2.2.2.1 hw

theorem keeps_sensing_eq (h : Keeps w p s) (hw : w.testBit 15 = false) : s.sensing = p.sensing :=
  h.2.2.2.2.2.2.2.2.2.2.2.2.2.2.2.2.2.2.2.2.2.1 hw

theorem keeps_timeBase_eq (h : Keeps w p s) (hw : w.testBit 16 = false) : s.timeBase = p.timeBase :=
  h.2.2.2.2.2.2.2.2.2.2.2.2.2.2.2.2.2.2.2.2.2.2.1 hw

theorem keeps_memSys_eq (h : Keeps w p s) (hw : w.testBit 17 = false) : s.memSys = p.memSys :=
  h.2.2.2.2.2.2.2.2.2.2.2.2.2.2.2.2.2.2.2.2.2.2.2.1 hw

theorem keeps_pair_eq (h : Keeps w p s) (hw : w.testBit 18 = false) : s.pair = p.pair :=
  h.2.2.2.2.2.2.2.2.2.2.2.2.2.2.2.2.2.2.2.2.2.2.2.2.1 hw

theorem keeps_host_eq (h : Keeps w p s) (hw : w.testBit 19 = false) : s.host = p.host :=
  h.2.2.2.2.2.2.2.2.2.2.2.2.2.2.2.2.2.2.2.2.2.2.2.2.2.1 hw

theorem keeps_safety_eq (h : Keeps w p s) (hw : w.testBit 20 = false) : s.safety = p.safety :=
  h.2.2.2.2.2.2.2.2.2.2.2.2.2.2.2.2.2.2.2.2.2.2.2.2.2.2.1 hw

theorem keeps_stalls_eq (h : Keeps w p s) (hw : w.testBit 21 = false) : s.stalls = p.stalls :=
  h.2.2.2.2.2.2.2.2.2.2.2.2.2.2.2.2.2.2.2.2.2.2.2.2.2.2.2.1 hw

theorem keeps_pools_eq (h : Keeps w p s) (hw : w.testBit 22 = false) : s.pools = p.pools :=
  h.2.2.2.2.2.2.2.2.2.2.2.2.2.2.2.2.2.2.2.2.2.2.2.2.2.2.2.2.1 hw

theorem keeps_flash_eq (h : Keeps w p s) (hw : w.testBit 23 = false) : s.flash = p.flash :=
  h.2.2.2.2.2.2.2.2.2.2.2.2.2.2.2.2.2.2.2.2.2.2.2.2.2.2.2.2.2.1 hw

theorem keeps_boot_eq (h : Keeps w p s) (hw : w.testBit 24 = false) : s.boot = p.boot :=
  h.2.2.2.2.2.2.2.2.2.2.2.2.2.2.2.2.2.2.2.2.2.2.2.2.2.2.2.2.2.2.1 hw

theorem keeps_gauge_eq (h : Keeps w p s) (hw : w.testBit 25 = false) : s.gauge = p.gauge :=
  h.2.2.2.2.2.2.2.2.2.2.2.2.2.2.2.2.2.2.2.2.2.2.2.2.2.2.2.2.2.2.2.1 hw

theorem keeps_swatch_eq (h : Keeps w p s) (hw : w.testBit 26 = false) : s.swatch = p.swatch :=
  h.2.2.2.2.2.2.2.2.2.2.2.2.2.2.2.2.2.2.2.2.2.2.2.2.2.2.2.2.2.2.2.2.1 hw

theorem keeps_devLog_eq (h : Keeps w p s) (hw : w.testBit 27 = false) : s.devLog = p.devLog :=
  h.2.2.2.2.2.2.2.2.2.2.2.2.2.2.2.2.2.2.2.2.2.2.2.2.2.2.2.2.2.2.2.2.2.1 hw

theorem keeps_since_eq (h : Keeps w p s) (hw : w.testBit 28 = false) : s.since = p.since :=
  h.2.2.2.2.2.2.2.2.2.2.2.2.2.2.2.2.2.2.2.2.2.2.2.2.2.2.2.2.2.2.2.2.2.2.1 hw

theorem keeps_planner_eq (h : Keeps w p s) (hw : w.testBit 29 = false) : s.planner = p.planner :=
  h.2.2.2.2.2.2.2.2.2.2.2.2.2.2.2.2.2.2.2.2.2.2.2.2.2.2.2.2.2.2.2.2.2.2.2.1 hw

theorem keeps_power_eq (h : Keeps w p s) (hw : w.testBit 30 = false) : s.power = p.power :=
  h.2.2.2.2.2.2.2.2.2.2.2.2.2.2.2.2.2.2.2.2.2.2.2.2.2.2.2.2.2.2.2.2.2.2.2.2.1 hw

theorem keeps_thermal_eq (h : Keeps w p s) (hw : w.testBit 31 = false) : s.thermal = p.thermal :=
  h.2.2.2.2.2.2.2.2.2.2.2.2.2.2.2.2.2.2.2.2.2.2.2.2.2.2.2.2.2.2.2.2.2.2.2.2.2.1 hw

theorem keeps_wake_eq (h : Keeps w p s) (hw : w.testBit 32 = false) : s.wake = p.wake :=
  h.2.2.2.2.2.2.2.2.2.2.2.2.2.2.2.2.2.2.2.2.2.2.2.2.2.2.2.2.2.2.2.2.2.2.2.2.2.2.1 hw

theorem keeps_wear_eq (h : Keeps w p s) (hw : w.testBit 33 = false) : s.wear = p.wear :=
  h.2.2.2.2.2.2.2.2.2.2.2.2.2.2.2.2.2.2.2.2.2.2.2.2.2.2.2.2.2.2.2.2.2.2.2.2.2.2.2.1 hw

theorem keeps_macTx_eq (h : Keeps w p s) (hw : w.testBit 34 = false) : s.macTx = p.macTx :=
  h.2.2.2.2.2.2.2.2.2.2.2.2.2.2.2.2.2.2.2.2.2.2.2.2.2.2.2.2.2.2.2.2.2.2.2.2.2.2.2.2 hw

end Sys2Proof.Machine
end

