-- ==== Sys2Proof/WellFormed.lean ====
section
/-!
DEFINITION. WellFormed.lean: which commands can reach the block. Indices are bounded by their types; what remains are
operands that the wire or the bus bounds by its width. `exec` gives every command a meaning, well-formed or not.
-/

namespace Sys2Proof

/-- A header whose fields have their widths (Table 8.7). -/
def FlitHdr.wf (h : FlitHdr) : Bool :=
  decide (h.seq < 65536) && decide (h.ack < 65536) && decide (h.credits < 65536) && decide (h.crc < 2 ^ 32)

/-- A pose whose fields have their widths (Table 7.6). -/
def Pose.wf (p : Pose) : Bool :=
  decide (p.x < 2 ^ 32) && decide (p.y < 2 ^ 32) && decide (p.yaw < 2 ^ 32) && decide (p.t < 65536) && decide (p.speed < 65536)

/-- A reading of a rail lies in 16 bits (Table 13.3). -/
def PmbusReading.wf (r : PmbusReading) : Bool := decide (r.vout < 65536) && decide (r.iout < 65536)

/-- Is an access of this width at this offset one that R12 allows? -/
def goodAccess (offset width : Nat) : Bool := (width == 4 || width == 8) && offset % width == 0

/-- Operands that the bus or the wire can carry. -/
def Instr.wf : Instr → Bool
  | .registerWrite _ offset wide value =>
    decide (offset < 2 ^ 26) && goodAccess offset (if wide then 8 else 4) && decide (value < 2 ^ (if wide then 64 else 32))
  | .badAccessWidth _ offset width _ => decide (offset < 2 ^ 26) && !goodAccess offset width
  | .latchedReadLow _ offset wide => decide (offset < 2 ^ 26) && goodAccess offset (if wide then 8 else 4)
  | .tallyClear mask => decide (mask < 2 ^ 64)
  | .csi2FrameStart _ _ n => decide (n < 65536)
  | .csi2LongPacket _ _ dt payload _ _ _ => decide (dt < 64) && decide (payload.length < 65536)
  | .ethPacketRx _ _ vlan port _ _ _ => decide (vlan < 4096) && decide (port < 65536)
  | .gptpSyncRx _ _ _ n => decide (n < 65536)
  | .regulatedRequestIssue _ _ addr size _ _ => decide (addr < 2 ^ 48) && decide (0 < size)
  | .memRegulationWrite offset value => decide (offset < 2 ^ 26) && decide (value < 2 ^ 64)
  | .data h _ _ _ _ bytes => h.wf && decide (bytes.length ≤ 104)
  | .statusFlit h _ mode step beat auth =>
    h.wf && decide (mode < 8) && decide (step < 8) && decide (beat < 16) && decide (auth < 4)
  | .time h _ _ _ _ => h.wf
  | .idle h => h.wf
  | .arrive h _ gen => h.wf && decide (gen < 65536)
  | .release h _ gen _ => h.wf && decide (gen < 65536)
  | .abort h _ _ gen _ => h.wf && decide (gen < 65536)
  | .dbSqTail _ _ tail => decide (tail < 65536)
  | .dbCqHead _ _ head => decide (head < 65536)
  | .pilotPublish _ cont stop grid =>
    decide (cont.length = 64) && decide (stop.length = 64) && cont.all Pose.wf && stop.all Pose.wf &&
      decide (grid.length ≤ 65536)
  | .pmbusTelemetryRead readings => readings.all PmbusReading.wf
  | .sentFrameRx _ raw _ => decide (raw < 4096)
  | .ethFrameTx _ _ _ bytes _ => decide (0 < bytes)
  | _ => true

end Sys2Proof
end

