-- ==== Sys2Proof/Tests/Slice0.lean ====
section
/-!
SUPPORT. Tests/Slice0.lean: the checks of WellFormed, and for each statement concrete states and operands that meet its
hypotheses, clause by clause.
-/

namespace Sys2Proof.Tests

open Sys2Proof.Machine

/-! ## WellFormed -/

/-- A flit header whose fields fit. -/
def hdr : FlitHdr := ⟨0, false, true, 1, 0, 8⟩
/-- A pose whose fields fit. -/
def pose : Pose := ⟨0, 0, 0, 0, 0⟩

/-- Each check of `Instr.wf` refuses an operand that does not fit. -/
theorem test_wf_refuses :
    (Instr.registerWrite 0 2 false 0).wf = false ∧ (Instr.registerWrite 0 (2 ^ 26) false 0).wf = false ∧
    (Instr.registerWrite 0 0 false (2 ^ 32)).wf = false ∧ (Instr.badAccessWidth 0 0 4 true).wf = false ∧
    (Instr.badAccessWidth 0 (2 ^ 26) 2 true).wf = false ∧ (Instr.latchedReadLow 0 4 true).wf = false ∧
    (Instr.latchedReadLow 0 (2 ^ 26) false).wf = false ∧ (Instr.tallyClear (2 ^ 64)).wf = false ∧
    (Instr.csi2FrameStart 0 0 65536).wf = false ∧ (Instr.csi2LongPacket 0 0 64 [] true true true).wf = false ∧
    (Instr.ethPacketRx 0 true 4096 0 [] true true).wf = false ∧ (Instr.ethPacketRx 0 true 0 65536 [] true true).wf = false ∧
    (Instr.gptpSyncRx 0 0 0 65536).wf = false ∧ (Instr.regulatedRequestIssue 0 0 (2 ^ 48) 1 true 0).wf = false ∧
    (Instr.regulatedRequestIssue 0 0 0 0 true 0).wf = false ∧ (Instr.memRegulationWrite (2 ^ 26) 0).wf = false ∧
    (Instr.memRegulationWrite 0 (2 ^ 64)).wf = false ∧ (Instr.data { hdr with seq := 65536 } 0 0 true 0 []).wf = false := by decide

theorem test_wf_refuses_long_data : (Instr.data hdr 0 0 true 0 (List.replicate 105 0)).wf = false := by
  show (hdr.wf && decide ((List.replicate 105 (0 : Byte)).length ≤ 104)) = false
  rw [List.length_replicate]
  decide

theorem test_wf_refuses_more :
    (Instr.idle { hdr with crc := 2 ^ 32 }).wf = false ∧ (Instr.statusFlit hdr true 8 0 0 0).wf = false ∧ (Instr.statusFlit hdr true 0 8 0 0).wf = false ∧
    (Instr.statusFlit hdr true 0 0 16 0).wf = false ∧ (Instr.statusFlit hdr true 0 0 0 4).wf = false ∧
    (Instr.time { hdr with ack := 65536 } 0 0 0 0).wf = false ∧ (Instr.idle { hdr with credits := 65536 }).wf = false ∧
    (Instr.arrive hdr 0 65536).wf = false ∧ (Instr.release hdr 0 65536 0).wf = false ∧
    (Instr.abort hdr true 0 65536 0).wf = false ∧ (Instr.dbSqTail 0 0 65536).wf = false ∧
    (Instr.dbCqHead 0 0 65536).wf = false ∧ (Instr.pilotPublish 0 [pose] (List.replicate 64 pose) []).wf = false ∧
    (Instr.pilotPublish 0 (List.replicate 64 pose) [pose] []).wf = false ∧
    (Instr.pilotPublish 0 (List.replicate 64 { pose with t := 65536 }) (List.replicate 64 pose) []).wf = false ∧
    (Instr.pmbusTelemetryRead [⟨0, true, 65536, 0⟩]).wf = false ∧ (Instr.sentFrameRx 0 4096 true).wf = false ∧
    (Instr.ethFrameTx 0 true 0 0 0).wf = false := by decide

/-- Operands that fit pass. -/
theorem test_wf_accepts :
    (Instr.registerWrite 0 0x4000 false 5).wf = true ∧ (Instr.latchedReadLow 0 0x400000 true).wf = true ∧
    (Instr.badAccessWidth 0 0 2 true).wf = true ∧ (Instr.data hdr 0 0 true 0 []).wf = true ∧ Instr.secLockSet.wf = true := by
  decide

/-! ## Small states -/

/-- Register fields set in a state: field, instance, value. -/
def withFlds (l : List (Fld × Nat × Nat × Nat)) (s : State := State.reset) : State :=
  l.foldl (fun s x => s.setFld x.1 x.2.2.2 x.2.1 x.2.2.1) s

/-- A command on tile 0 of die 0, from beat 10 to its commit at beat 100. -/
def cmd0 : Command := ⟨7, false, false, false, 10, 100, 50, [1, 0, 0, 0, 0, 0], 0⟩

/-- A program of one command in slot 0 of the PF. -/
def prog0 : Program :=
  { fn := 0, slot := 0, order := 0, safety := false, periodic := false, stochastic := false, hasRerun := false, pairMask := 0,
    iterBeats := 8192, period := 0, seed := 0, digest := [], container := [], begun := 0, tail := [], commands := [cmd0], handovers := [],
    windows := [], sections := [], markers := [], relay := false, retained := false, running := none, split := 0,
    changes := [], warm := [], agreeRun := 0, agreedSinceStart := false, quants := [], engines := [],
    agrees := [], warmupIters := 0, mirrorDelta := 0, powerShed := false, doomed := false }

/-- An iteration that starts at beat 0. -/
def iter0 : Iteration :=
  { number := 0, start := 0, entryBeat := 0, entry := 0, runs := [CmdRun.fresh], covering := [], failure := none,
    killed := false, served := [], written := [], reads := [], warm := 0, reissued := false, instant := none, split := 0,
    invalid := false, differed := false }

/-- A START whose first iteration runs. -/
def run0 : Running :=
  { desc := none, total := none, left := none, cont := false, iterMarker := none, barrier := none, startAfter := 0,
    entry := 0, next := none, count := 1, ended := 0, failure := none, stopped := false, iters := [iter0], kill := [],
    skipped := false, final := none, first := none }

/-- A loaded program, at a beat, with every die on. -/
def loadedAt (p : Program) (beat : Nat) : State :=
  let s := State.reset.setSlot p.fn p.slot (.loaded p)
  { s with fabric := { s.fabric with beat := beat, dieOn := List.replicate 6 true } }

/-- A program whose iteration runs, with this START. -/
def started (p : Program) (r : Running) (beat : Nat) : State := loadedAt { p with running := some r } beat

/-- The command's run in its iteration. -/
def runState (p : Program) (r : CmdRun) (beat : Nat) : State :=
  started p { run0 with iters := [{ iter0 with runs := [r] }] } beat

/-- The command of `runState`. -/
def ref0 : CmdRef := ⟨0, 0, 0, 0⟩

/-- A running command. -/
def running0 : CmdRun := { CmdRun.fresh with phase := .running, began := some 10 }

/-- 64 bytes with runs of bytes put at offsets. -/
def bytes64 (l : List (Nat × List Byte)) : List Byte :=
  l.foldl (fun b x => b.take x.1 ++ x.2 ++ b.drop (x.1 + x.2.length)) (List.replicate 64 0)

/-- A fetched descriptor. -/
def desc0 (l : List (Nat × List Byte)) : Desc := ⟨0, 0, bytes64 l, false, false, false, none, none, none, false⟩

/-- Every power domain on. -/
def powered (s : State) : State := withFlds [(.PWR_DOMAINS_ON, 0, 0, 2 ^ 39 - 1)] s

/-- Descriptor 0 of ring 0 of the PF. -/
def dref : DescRef := ⟨0, 0, 0⟩

/-- An ACTIVE ring of the PF that holds one descriptor. -/
def ringWith (x : Desc) (s : State := State.reset) : State :=
  s.setRing 0 0 { Ring.zero with phase := .active, tail := 1, fetched := 1, head := 1, descs := [x] }

/-! ## Steps, frames, invariants -/

theorem test_idle_premise : State.reset.pending = [] ∧ State.reset.domainOn 38 = true ∧
    (withFlds [(.PWR_DOMAINS_ON, 0, 0, 0)]).pending = [] ∧ (withFlds [(.PWR_DOMAINS_ON, 0, 0, 0)]).domainOn 38 = false := by decide
theorem test_frame_premise : ∃ t, exec .secLockSet State.reset = .next t := ⟨_, rfl⟩
theorem test_memories_premise : ∃ t, step { State.reset with pending := [.secLockSet] } = .next t ∧
    { State.reset with pending := [.secLockSet] }.memWf := ⟨_, rfl, rfl, rfl, rfl⟩
theorem test_counters_premise : ∃ t, step { State.reset with pending := [.secLockSet] } = .next t ∧
    { State.reset with pending := [.secLockSet] }.countersOk := ⟨_, rfl, by unfold State.countersOk; decide⟩
theorem test_withFetchWord : State.reset.withFetchWord 32 0 = State.reset := rfl

/-! ## Registers -/

theorem test_badAccess_premise : ¬(2 = 4 ∧ 0 % 4 = 0) ∧ ¬(2 = 8 ∧ 0 % 8 = 0) ∧ ¬(4 = 4 ∧ 2 % 4 = 0) ∧ ¬(4 = 8 ∧ 2 % 8 = 0) := by
  decide
theorem test_unaligned_premise : 6 % (if false then 8 else 4) ≠ 0 ∧ 4 % (if true then 8 else 4) ≠ 0 := by decide
theorem test_beat_premise :
    let s := runState prog0 running0 20
    let l := (s.issueAll [⟨ref0, 0, 0, [.fma 1 2 3 4 0]⟩]).1
    (∀ b ∈ l, ∀ o ∈ b.ops, plainOp o = true) ∧ s.overfull l = false ∧ l.length = 1 := by decide
theorem test_tallySelect_premise : 13 ≤ 13 ∧ 13 < 64 ∧ 13 ≤ 63 ∧ 63 < 64 := by decide
theorem test_reads_premise : 4 % (if false then 8 else 4) = 0 ∧ 8 % (if true then 8 else 4) = 0 ∧
    ∃ t v, exec (.latchedReadLow 0 0x400000 false) State.reset = .next t ∧
      exec (.latchedReadLow 0 0x400004 false) { State.reset with latches := t.latches } = .next v :=
  ⟨by decide, by decide, _, _, rfl, rfl⟩
theorem test_gap_premise : 0x100000 % 8 = 0 ∧ locate 1 0x100000 = none ∧ locate 1 0x100004 = none ∧
    locate 0 0x3FFFF00 = none := by decide
theorem test_lock_premise : (withFlds [(.SEC_LOCK_LOCK, 0, 0, 1)]).fld .SEC_LOCK_LOCK = 1 := by decide
theorem test_refused_premise : State.reset.fld .TIME_CFG_GPTP_EN = 0 ∧ Fld.of .TIME_CFG_SYNC_TIMEOUT 0 = 0 ∧
    State.reset.fld .HUB_CFG_CFG_ERROR_COUNT < 65535 := by decide

/-! ## Modes -/

/-- In Drive, parked by a VEHICLE_STATE that WHA holds. -/
def parkedDrive : State :=
  let s := withFlds [(.SEC_BOOT_STATUS_IDENTITY_OK, 0, 0, 1), (.SEC_BOOT_STATUS_CONFIG_VALID, 0, 0, 1)]
  let i := { Island.zero with alive := true, vehicle := some ⟨0, 0, 0, 0, false, 0⟩ }
  { s with mode := .drive, safety := { s.safety with wha := i } }

theorem test_modeRequests_premise :
    (parkedDrive.transition = .none ∧ parkedDrive.mode = .drive ∧ parkedDrive.parked = true ∧
      parkedDrive.nightRefused false = none) ∧
    (let s : State := { State.reset with mode := .nightMarket }; s.transition = .none ∧ s.mode = .nightMarket) ∧
    (let s : State := { State.reset with mode := .drive }
     s.transition = .none ∧ s.mode = .drive ∧ s.parked = false ∧ s.nightRefused false = some 1) ∧
    (let s : State := { State.reset with transition := .park }; s.transition ≠ .none ∧ s.transition ≠ .nightClose) := by
  decide

theorem test_transitions_premise :
    (let s : State := { State.reset with mode := .drive, transition := .park }
     s.transition = .park ∧ s.pfEnded = true ∧ s.wake.pending = none ∧ s.deferred = []) ∧
    (let s : State := { State.reset with mode := .drive, transition := .nightClose }
     s.transition = .nightClose ∧ s.pfEnded = true ∧ s.deferred = []) ∧
    (let s : State := { State.reset with transition := .dayOpen 0 false false }
     s.stallsDrained = true) ∧
    (let s : State := { State.reset with transition := .dayOpen 0 false false, now := 1000000000 }
     s.since + s.fld .HUB_CFG_NM_CFG_DRAIN_GRACE * 1000000 ≤ s.now) ∧
    (let s : State := { State.reset with transition := .dayOpen 1 false false }
     s.transition = .dayOpen 1 false false) ∧
    (let s : State := { State.reset with transition := .dayOpen 3 true true }
     s.transition = .dayOpen 3 true true) ∧
    (let s : State := { State.reset with transition := .dayOpen 4 false false }
     s.pilotsReady = true ∧ s.deferred = []) ∧
    (let s : State := { State.reset with transition := .dayOpen 1 false false, now := 3000000000 }
     s.since + 3000000000 ≤ s.now) := by decide

theorem test_transitionsWait_premise :
    State.reset.transition ≠ .park ∧ State.reset.transition ≠ .nightClose ∧
    (started prog0 run0 0).pfEnded = false ∧ State.reset.now < State.reset.since + 3000000000 ∧
    (∀ r p l, State.reset.transition ≠ .dayOpen r p l) :=
  ⟨by decide, by decide, by decide, by decide, by intro r p l h; cases h⟩

/-! ## The fabric -/

theorem test_vector_premise :
    (let s := runState prog0 running0 20
     let b : Bundle := ⟨ref0, 0, 0, [.fma 1 2 3 4 5]⟩
     (∃ p it c r, s.cmdRun b.ref = some (p, it, c, r) ∧ r.phase = .running) ∧ (s.issueAll [b]).1 = [b] ∧
       b.ops = [.fma 1 2 3 4 5] ∧ 1 < 32 ∧ 5 < 256) ∧
    (let s := runState prog0 running0 20
     let b : Bundle := ⟨ref0, 0, 0, [.loadWord 1 5 tileSize]⟩
     (∃ p it c r, s.cmdRun b.ref = some (p, it, c, r) ∧ r.phase = .running) ∧ (s.issueAll [b]).1 = [b] ∧
       b.ops = [.loadWord 1 5 tileSize] ∧ tileSize < tileSize + 4 ∧ tileSize % 4 = 0) :=
  ⟨⟨⟨_, _, _, _, rfl, by decide⟩, by decide⟩, ⟨_, _, _, _, rfl, by decide⟩, by decide⟩

theorem test_iterationStart_premise :
    (let s := started prog0 { run0 with iters := [], count := 0, next := some 8192 } 8192
     ∃ p r, s.program 0 0 = some p ∧ p.running = some r ∧ r.next = some s.fabric.beat ∧ s.fabric.beat % 8192 = 0 ∧
       p.changeDue s.fabric.beat = false ∧ s.stallWaits 0 = false) :=
  ⟨_, _, rfl, rfl, by decide⟩

/-- An engine job of the command, and a program that has it. -/
def engine0 : Engine :=
  { cmd := 7, kind := 0, mode := 0, inFmt := 0, outFmt := 0, inW := 8, inH := 8, inC := 1, outC := 1, kw := 1, kh := 1, sx := 1,
    sy := 1, dx := 1, dy := 1, pad := 0, flags := 0, pl := 0, pr := 0, pt := 0, pb := 0, padValue := 0, outW := 8, outH := 8,
    rows := 1, slice := 0, outInv := 0, srcKind := 0, src := 0, dst := 0, start := 20, stop := 30, auxKind := 0, aux := 0,
    auxEntries := 0, gridW := 0, gridH := 0, black := [], gain := [], bias := 0, raw := [] }

/-- A command with a wide re-run, decided at beat 50. -/
def wideProg : Program := { prog0 with commands := [{ cmd0 with wideRerun := true }] }

/-- The same of the open stall 1. -/
def stalledAt (beat : Nat) : State :=
  let p := { prog0 with fn := 1, running := some { run0 with iters := [{ iter0 with runs := [running0] }] } }
  { loadedAt p beat with stalls := [(1, { Stall.zero with phase := .open_ })] }
/-- Its command. -/
def ref1 : CmdRef := ⟨1, 0, 0, 0⟩

theorem test_commands_premise :
    (let s := runState prog0 CmdRun.fresh 10
     ∃ p it k r, s.cmdRun ref0 = some (p, it, k, r) ∧ r.phase = .idle ∧ s.fabric.beat = it.start + k.start ∧
       it.entryBeat ≤ k.start ∧ (∀ d, d < 6 → k.tiles.getD d 0 ≠ 0 → s.fabric.dieOn.getD d false = true) ∧
       s.idleTile k = false ∧
       p.layerAt k = none) ∧
    (let s := runState { prog0 with engines := [engine0] } running0 20
     ∃ p it k r e, s.cmdRun ref0 = some (p, it, k, r) ∧ p.engines[0]? = some e ∧ r.phase = .running ∧ e.cmd = k.id ∧
       e.kind ≠ 2 ∧ e.centreOnly = false ∧ s.fabric.beat = it.start + e.start ∧ ∀ j ∈ r.jobs, j.entry ≠ 0) ∧
    (let s := runState wideProg running0 50
     ∃ p it k r, s.cmdRun ref0 = some (p, it, k, r) ∧ r.phase = .running ∧ k.wideRerun = true ∧ r.decided = false ∧
       s.fabric.beat = it.start + k.decision) ∧
    (let s := runState prog0 running0 100
     ∃ p it k r, s.cmdRun ref0 = some (p, it, k, r) ∧ r.phase = .running ∧ s.fabric.beat = it.start + k.commit ∧
       (k.wideRerun = true → r.decided = true) ∧ p.agreementsIn it k r = true ∧ p.doomed = false) ∧
    (let s := runState prog0 running0 20
     ∃ p it k r, s.cmdRun ref0 = some (p, it, k, r) ∧ r.uncommitted = true ∧ it.entryBeat ≤ k.start ∧ p.fn = 0 ∧
       p.slot = 0 ∧ (ref0.fn = 0 ∨ s.stall ref0.fn = .closed)) ∧
    (let s := stalledAt 20
     ∃ p it k r, s.cmdRun ref1 = some (p, it, k, r) ∧ r.uncommitted = true ∧ it.entryBeat ≤ k.start ∧ p.fn = 1 ∧
       p.slot = 0 ∧ ref1.fn ≠ 0 ∧ s.stall ref1.fn ≠ .closed) := by
  refine ⟨⟨_, _, _, _, rfl, ?_⟩, ⟨_, _, _, _, _, rfl, rfl, ?_⟩, ⟨_, _, _, _, rfl, ?_⟩, ⟨_, _, _, _, rfl, ?_⟩, ⟨_, _, _, _, rfl, ?_⟩,
    ⟨_, _, _, _, rfl, ?_⟩⟩ <;> decide

/-- An inbound and an outbound window of the command to HBM, and one to a handover buffer. -/
def window0 (dir target : Nat) : Window := ⟨7, 0, dir, target, 0, 30, 64, 1024, 0x100, false⟩

theorem test_windows_premise :
    (let s := powered (runState { prog0 with windows := [window0 0 0] } running0 30)
     ∃ p it k r w, s.cmdRun ref0 = some (p, it, k, r) ∧ p.windows[0]? = some w ∧ w.cmd = k.id ∧
       s.fabric.beat = it.start + w.beat ∧ (∀ x ∈ it.served, x.1 ≠ 0) ∧ s.runsOn p it w.die = true ∧ it.entryBeat ≤ k.start ∧
       w.target = 0 ∧ s.memoryUp (s.devAddr p.fn w.addr) w.size = true ∧ w.dir = 0 ∧ r.uncommitted = true ∧ s.poisonedIn (s.devAddr p.fn w.addr) w.size = false) ∧
    (let s := powered (runState { prog0 with windows := [window0 1 0] } { running0 with phase := .committed } 30)
     ∃ p it k r w, s.cmdRun ref0 = some (p, it, k, r) ∧ p.windows[0]? = some w ∧ w.cmd = k.id ∧
       s.fabric.beat = it.start + w.beat ∧ (∀ x ∈ it.served, x.1 ≠ 0) ∧ s.runsOn p it w.die = true ∧ it.entryBeat ≤ k.start ∧
       w.target = 0 ∧ s.memoryUp (s.devAddr p.fn w.addr) w.size = true ∧ w.dir = 1 ∧ r.phase = .committed ∧ p.secondary w = false) := by
  refine ⟨⟨_, _, _, _, _, rfl, rfl, ?_⟩, ⟨_, _, _, _, _, rfl, rfl, ?_⟩⟩ <;> decide

theorem test_arrivals_premise :
    (let s := runState prog0 { CmdRun.fresh with arrivals := [⟨31, [], true, [(0x100, [1, 2])], [], none⟩] } 30
     (∃ p it k r, s.cmdRun ref0 = some (p, it, k, r) ∧ r.arrivals = [⟨31, [], true, [(0x100, [1, 2])], [], none⟩]) ∧
       s.runningRefs = [] ∧ s.awaiting = [ref0] ∧ (s.programs.all fun q => !q.doomed) = true ∧ 31 ≤ s.fabric.beat + 1 ∧ s.fabric.beat + 1 < 2 ^ 64 ∧ s.linksGood [] = true) ∧
    (let s := runState prog0 { CmdRun.fresh with arrivals := [⟨31, [14], true, [(0x100, [1, 2])], [], none⟩] } 30
     (∃ p it k r, s.cmdRun ref0 = some (p, it, k, r) ∧ r.arrivals = [⟨31, [14], true, [(0x100, [1, 2])], [], none⟩] ∧
       r.uncommitted = true ∧ it.entryBeat ≤ k.start ∧ p.fn = 0 ∧ p.slot = 0) ∧
       s.runningRefs = [] ∧ s.awaiting = [ref0] ∧ s.linksGood [14] = false) ∧
    (let s := { State.reset with fabric := { State.reset.fabric with outgoing := [⟨1, 0, 0x100, [1, 2]⟩] } }
     s.runningRefs = [] ∧ s.awaiting = [] ∧ (s.programs.all fun q => !q.doomed) = true ∧ s.fabric.outgoing = [⟨1, 0, 0x100, [1, 2]⟩] ∧ 1 ≤ s.fabric.beat + 1 ∧
       s.fabric.beat + 1 < 2 ^ 64) :=
  ⟨⟨⟨_, _, _, _, rfl, by decide⟩, by decide⟩, ⟨⟨_, _, _, _, rfl, by decide⟩, by decide⟩, by decide⟩

/-- A handover buffer of the program: inbound (read by the command) or outbound. -/
def handover0 (dir policy : Nat) : Handover := ⟨5, dir, policy, 4096, 0, 7, 20, 0⟩
/-- The buffer with one half, ready or not. -/
def buffer0 (dir policy : Nat) (ready : Bool) : Buffer :=
  { entry := handover0 dir policy, fn := 0, slot := 0, gen := 1, fills := 1,
    halves := [{ Half.zero with gen := 1, ready := ready, filled := 1 }, Half.zero], lastRead := none }

/-- `runState` with buffer 5 declared. -/
def bufferState (p : Program) (it : Iteration) (r : CmdRun) (b : Buffer) (beat : Nat) : State :=
  (started p { run0 with iters := [{ it with runs := [r] }] } beat).setBuffer 5 (some b)

theorem test_buffers_premise :
    (let s := bufferState { prog0 with windows := [{ window0 1 2 with addr := 5 }] } { iter0 with served := [(0, 1)] }
        { running0 with phase := .committed } (buffer0 1 0 false) (30 + windowBeats 64)
     ∃ p it k r w b h, s.cmdRun ref0 = some (p, it, k, r) ∧ p.windows[0]? = some w ∧ w.target = 2 ∧ p.secondary w = false ∧
       it.served.find? (fun x => x.1 == 0) = some (0, 1) ∧ 0 ∉ it.written ∧ it.invalid = false ∧
       s.fabric.beat = it.start + w.beat + windowBeats w.size ∧ s.buffer (w.addr % 1024) = some b ∧ b.halves[1]? = some h) ∧
    (let s := bufferState { prog0 with handovers := [handover0 0 1] } iter0 running0 (buffer0 0 1 true) 20
     ∃ p it k r h b x, s.cmdRun ref0 = some (p, it, k, r) ∧
       p.handovers.findIdx? (fun h => h.bufId == 5 && h.dir == 0 && h.cmd == k.id) = some 0 ∧ p.handovers[0]? = some h ∧
       s.fabric.beat = it.start + h.booked ∧ (∀ x ∈ it.reads, x.1 ≠ 0) ∧ r.uncommitted = true ∧ it.entryBeat ≤ k.start ∧
       s.backing 5 = none ∧ s.buffer 5 = some b ∧ b.newest = some 0 ∧ b.halves[0]? = some x) ∧
    (let s := bufferState { prog0 with handovers := [handover0 0 1] } iter0 running0 (buffer0 0 1 false) 20
     ∃ p it k r h b, s.cmdRun ref0 = some (p, it, k, r) ∧
       p.handovers.findIdx? (fun h => h.bufId == 5 && h.dir == 0 && h.cmd == k.id) = some 0 ∧ p.handovers[0]? = some h ∧
       s.fabric.beat = it.start + h.booked ∧ s.backing 5 = none ∧ s.buffer 5 = some b ∧ b.newest = none ∧ h.policy = 1) := by
  refine ⟨⟨_, _, _, _, _, _, _, rfl, rfl, ?_, ?_, ?_, ?_, ?_, ?_, rfl, rfl⟩,
    ⟨_, _, _, _, _, _, _, rfl, ?_, rfl, ?_, ?_, ?_, ?_, ?_, rfl, ?_, rfl⟩, ⟨_, _, _, _, _, _, rfl, ?_, rfl, ?_, ?_, rfl, ?_, ?_⟩⟩ <;>
    decide

theorem test_kill_premise :
    (let s := started prog0 { run0 with kill := [(64, ⟨0, 0⟩)] } 64
     ∃ p r, s.program 0 0 = some p ∧ p.running = some r ∧ r.kill = [(64, ⟨0, 0⟩)] ∧ s.fabric.beat = 64 ∧
       r.waitsReissue = false ∧ killable p 64 ≠ []) ∧
    (let s := started prog0 { run0 with kill := [(64, ⟨0, 0⟩)], iters := [], count := 0 } 64
     ∃ p r, s.program 0 0 = some p ∧ p.running = some r ∧ r.kill = [(64, ⟨0, 0⟩)] ∧ r.waitsReissue = false ∧ r.count = 0) ∧
    (let it := { iter0 with runs := [{ running0 with phase := .committed }] }
     let s := started prog0 { run0 with kill := [(64, ⟨0, 0⟩)], iters := [it] } 64
     ∃ p r, s.program 0 0 = some p ∧ p.running = some r ∧ r.kill = [(64, ⟨0, 0⟩)] ∧ s.fabric.beat = 64 ∧
       killable p 64 = [] ∧ r.count ≠ 0 ∧ r.waitsReissue = false ∧ r.iters ≠ []) := by
  refine ⟨⟨_, _, rfl, rfl, ?_⟩, ⟨_, _, rfl, rfl, ?_⟩, ⟨_, _, rfl, rfl, ?_⟩⟩ <;> decide

theorem test_watch_premise :
    (let s := (State.reset.setWatch 0 0 ⟨true, 7, 0, 0, 0, 0, 10, 100, some 10, none⟩)
     let s := { s with fabric := { s.fabric with beat := 101, pendingStep := some (3, 101) } }
     let x := s.watch 0 0
     x.armed = true ∧ x.commit ≠ some x.expCommit ∧ x.expCommit < s.fabric.beat ∧ x.fn = 0 ∧ s.program x.fn x.slot = none ∧
       s.fabric.pendingStep = some (3, 101) ∧ s.fabric.beat = 101) ∧
    (let s := { (State.reset.setWatch 0 0 ⟨true, 7, 3, 0, 0, 0, 10, 100, some 10, none⟩) with stalls := [(3, { Stall.zero with phase := .open_ })] }
     let s := { s with fabric := { s.fabric with beat := 101 } }
     let x := s.watch 0 0
     x.armed = true ∧ x.commit ≠ some x.expCommit ∧ x.expCommit < s.fabric.beat ∧ x.fn < 32 ∧ x.fn ≠ 0 ∧ s.stall x.fn ≠ .closed) ∧
    (let s := (runState prog0 running0 101).setWatch 0 0 ⟨true, 7, 0, 0, 0, 0, 10, 100, some 10, none⟩
     let x := s.watch 0 0
     x.armed = true ∧ x.commit ≠ some x.expCommit ∧ x.expCommit < s.fabric.beat ∧
       ∃ p it c, s.program x.fn x.slot = some p ∧ s.iteration x.fn x.slot x.iter = some it ∧ p.commands[x.index]? = some c) :=
  ⟨by decide, by decide, by decide, by decide, by decide, _, _, _, rfl, rfl, rfl⟩

/-! ## Key-value pools -/

/-- A pool of 8 pages of 4 KiB on die 0 with one OPEN sequence, 3. -/
def pool0 : Pool :=
  { die := 0, safety := false, autoRelease := false, pages := 8, width := 64, fmt := 1, layers := 1, maxSeqs := 8, maxPages := 4,
    stall := 0, window := 0, prefix_ := 0, victims := [], base := 0, mirror := 0, appends := 0, free := [1, 2, 3, 4, 5, 6, 7],
    seqs := [(3, some ⟨0, false, false, 10, 10, 0, 0, 0, 1, [[0]]⟩)], starved := [], held := [] }

/-- A ring that holds a PAGE descriptor, with pool 2 made. -/
def pageState (op cls id seq len : Nat) (p : Pool := pool0) : Desc × State :=
  let x := desc0 [(0, [7]), (16, leBytes 1 op), (17, leBytes 1 cls), (18, leBytes 2 id), (20, leBytes 4 seq), (24, leBytes 4 len)]
  (x, (ringWith x).setPool 2 (some p))

/-- What the statement about PAGE operations assumes of every operation. -/
def pagePremise (y : Desc × State) (p : Pool) : Prop :=
  startable y.2 dref y.1 ∧ y.1.val 0 1 = 7 ∧ y.2.pool (y.1.val 18 2) = some p ∧ y.2.poolHeld (y.1.val 18 2) = false ∧
    p.held = [] ∧ dref.fn = 0

theorem test_page_premise :
    (∃ y p, pagePremise y p ∧ y.1.val 16 1 = 2 ∧ p.seqs = []) ∧
    (∃ y p, pagePremise y p ∧ y.1.val 16 1 = 3 ∧ y.1.val 20 4 < p.maxSeqs ∧ p.seq (y.1.val 20 4) = none ∧ y.1.val 17 1 ≤ 7 ∧
      p.safety = false) ∧
    (∃ y p q, pagePremise y p ∧ y.1.val 16 1 = 4 ∧ p.seq (y.1.val 20 4) = some q) ∧
    (∃ y p q, pagePremise y p ∧ y.1.val 16 1 = 5 ∧ p.seq (y.1.val 20 4) = some q ∧ y.1.val 24 4 ≤ q.length) ∧
    (∃ y p q, pagePremise y p ∧ y.1.val 16 1 = 6 ∧ p.seq (y.1.val 20 4) = some q ∧ y.1.val 17 1 ≤ 7) ∧
    (∃ y p q, pagePremise y p ∧ y.1.val 16 1 = 7 ∧ p.seq (y.1.val 20 4) = some q) ∧
    (∃ y p q, pagePremise y p ∧ y.1.val 16 1 = 8 ∧ p.seq (y.1.val 20 4) = some q) ∧
    (∃ y p, pagePremise y p ∧ y.1.val 16 1 = 9 ∧ y.1.val 20 4 < p.maxSeqs) ∧
    (∃ y p, pagePremise y p ∧ y.1.val 16 1 = 10) := by
  refine ⟨⟨pageState 2 0 2 0 0 { pool0 with seqs := [] }, { pool0 with seqs := [] }, ?_⟩, ⟨pageState 3 7 2 5 0, pool0, ?_⟩,
    ⟨pageState 4 0 2 3 0, pool0, ⟨0, false, false, 10, 10, 0, 0, 0, 1, [[0]]⟩, ?_⟩,
    ⟨pageState 5 0 2 3 10, pool0, ⟨0, false, false, 10, 10, 0, 0, 0, 1, [[0]]⟩, ?_⟩,
    ⟨pageState 6 7 2 3 0, pool0, ⟨0, false, false, 10, 10, 0, 0, 0, 1, [[0]]⟩, ?_⟩,
    ⟨pageState 7 0 2 3 0, pool0, ⟨0, false, false, 10, 10, 0, 0, 0, 1, [[0]]⟩, ?_⟩,
    ⟨pageState 8 0 2 3 0, pool0, ⟨0, false, false, 10, 10, 0, 0, 0, 1, [[0]]⟩, ?_⟩,
    ⟨pageState 9 0 2 3 0, pool0, ?_⟩, ⟨pageState 10 0 2 0 0, pool0, ?_⟩⟩
  · exact ⟨by unfold pagePremise startable; decide, by decide, rfl⟩
  all_goals unfold pagePremise startable; decide

/-- The descriptor of a pool in host memory: id 2, 8 pages of 64 INT8 elements. -/
def poolBytes : Tbl Byte := [(0, 2), (4, 8), (8, 64), (10, 1), (11, 1), (12, 8), (16, 4), (32, 255)]

theorem test_poolCreate_premise :
    (let x := desc0 [(0, [7]), (16, [1]), (18, leBytes 2 2)]
     let s := { ringWith x with hostMem := poolBytes }
     let s := { s with fabric := { s.fabric with dieOn := List.replicate 6 true } }
     startable s dref x ∧ x.val 0 1 = 7 ∧ x.val 16 1 = 1 ∧ s.pool (x.val 18 2) = none ∧
       fieldAt (s.hostRead (x.val 32 8) 128) 0 2 = x.val 18 2 ∧
       s.poolFieldsOk dref.fn (s.hostRead (x.val 32 8) 128) (poolOf (s.hostRead (x.val 32 8) 128)) = true) := by
  unfold startable; decide

theorem test_poolHeld_premise :
    (let y := pageState 7 0 2 3 0 { pool0 with starved := [⟨0, 0, 7, 1, [], false, none, 0⟩] }
     startable y.2 dref y.1 ∧ y.1.val 0 1 = 7 ∧ y.1.val 16 1 = 7 ∧ y.2.poolHeld (y.1.val 18 2) = true) ∧
    (let y := pageState 7 0 2 3 0 { pool0 with held := [⟨0, 0⟩] }
     (y.2.pool 2).isSome = true ∧ y.2.poolHeld 2 = false ∧ (⟨0, 0⟩ : Ticket).ring < 256 ∧ y.2.ticketDesc ⟨0, 0⟩ = some y.1 ∧ y.1.val 16 1 = 7 ∧
       y.1.val 18 2 = 2 ∧ (pool0.seq (y.1.val 20 4)).isSome = true) := by
  unfold startable; decide

/-- An attention command whose batch appends at its alloc_beat, 40: one entry, with this many new tokens. -/
def attn0 (count : Nat) : Attn :=
  ⟨leBytes 2 2 ++ [0, 1] ++ List.replicate 28 0 ++ leBytes 8 40 ++ List.replicate 88 0, [⟨3, 10, count, 0⟩]⟩

/-- A running attention command on pool 2. -/
def attnState (count : Nat) : State := (runState prog0 { running0 with attn := some (attn0 count) } 40).setPool 2 (some pool0)

theorem test_alloc_premise :
    (let s := attnState 64
     ∃ p it k r a q, s.cmdRun ref0 = some (p, it, k, r) ∧ r.attn = some a ∧ s.pool a.pool = some q ∧ a.append = true ∧
       a.allocBeat ≠ 0 ∧ r.phase = .running ∧ s.fabric.beat = it.start + a.allocBeat ∧ r.pages = [] ∧
       (a.entries.map q.needOf).foldl (· + ·) 0 ≤ (s.takeable a.pool q 0 0 it k.id).length) ∧
    (let s := attnState 1000
     ∃ p it k r a q, s.cmdRun ref0 = some (p, it, k, r) ∧ r.attn = some a ∧ s.pool a.pool = some q ∧ a.append = true ∧
       a.allocBeat ≠ 0 ∧ r.phase = .running ∧ s.fabric.beat = it.start + a.allocBeat ∧ r.pages = [] ∧
       (s.takeable a.pool q 0 0 it k.id).length < (a.entries.map q.needOf).foldl (· + ·) 0 ∧
       s.fld .CD_KV_STARVE_COUNT_COUNT q.die < 65535) := by
  refine ⟨⟨_, _, _, _, _, _, rfl, rfl, rfl, ?_⟩, ⟨_, _, _, _, _, _, rfl, rfl, rfl, ?_⟩⟩ <;> decide

theorem test_allocNothing_premise : pool0.grants (attn0 1).entries = [] := by decide

/-- A starved pool whose program's iteration was killed. -/
def starvedState (done : Bool) (at_ : Option Nat) (beat : Nat) : State :=
  (started prog0 { run0 with iters := [{ iter0 with killed := true }] } beat).setPool 2
    (some { pool0 with starved := [⟨0, 0, 7, 1, [], done, at_, 0⟩] })

theorem test_reissue_premise :
    (let s := starvedState false none 100
     ∃ q x p, s.pool 2 = some q ∧ q.starved = [x] ∧ x.done = false ∧ s.program 0 0 = some p ∧ p.waitsReissue = true) ∧
    (let s := starvedState true (some 8192) 8192
     ∃ q x p r, s.pool 2 = some q ∧ q.starved.find? (fun y => y.at_ == some s.fabric.beat) = some x ∧ s.program 0 0 = some p ∧
       p.running = some r ∧ s.stallWaits 0 = false) := by
  refine ⟨⟨_, _, _, rfl, rfl, by decide, rfl, by decide⟩, ⟨_, _, _, _, rfl, rfl, rfl, rfl, by decide⟩⟩

/-! ## Sensing -/

/-- A frame on its way into slot 0. -/
def frame0 (failed : Option Nat) : Frame := ⟨0, 1, none, 0, false, 64, 1, some 0, failed, false, false, none⟩

/-- Context 5 of CSI-2 port 1, virtual channel 2, data type 0x2A, with this unit state. -/
def csiState (src : Nat) (c : Context) : State :=
  State.setCtx (withFlds [(.PWR_DOMAINS_ON, 0, 0, 2 ^ 32), (.SENS_STREAM_CTX_ENABLE, 5, 0, 1), (.SENS_STREAM_CTX_PORT, 5, 0, 1),
    (.SENS_STREAM_CTX_VC, 5, 0, 2), (.SENS_STREAM_CTX_DT, 5, 0, 0x2A), (.SENS_STREAM_CTX_TS_SRC, 5, 0, src),
    (.SENS_STREAM_SLOT_SIZE_SIZE, 5, 0, 4096)]) 5 c

theorem test_csi_premise :
    (let s := csiState 1 Context.zero
     s.csiContexts 1 2 = [5] ∧ (s.ctx 5).frame = none ∧ (s.trig (s.lineOf 5)).holdEnd = none ∧ (s.ctx 5).take = some (0, false) ∧
       s.fld .SENS_STREAM_CTX_TS_SRC 5 = 1) ∧
    (let s := csiState 0 { Context.zero with frame := some (frame0 none) }
     s.csiContexts 1 2 = [5] ∧ s.fld .SENS_STREAM_CTX_DT 5 = 0x2A ∧ (s.ctx 5).frame = some (frame0 none) ∧
       (frame0 none).discard = false ∧ (frame0 none).failed = none ∧ (frame0 none).slot = some 0 ∧ s.inOpenStall (s.slotAddr 5 0 + 256 + 64) 3776 = false ∧ 256 + 64 + 3776 ≤ s.fld .SENS_STREAM_SLOT_SIZE_SIZE 5 ∧
       (s.ctx 5).lost = false ∧ s.fld .SENS_STREAM_CTX_TS_SRC 5 = 0) ∧
    (let s := csiState 0 { Context.zero with frame := some (frame0 (some 0x320)) }
     s.csiContexts 1 2 = [5] ∧ (s.ctx 5).frame = some (frame0 (some 0x320)) ∧
       s.fld .SENS_STREAM_FAULTS_PLAUS_FAIL 5 < 255) := by decide

/-- MAC 1 up, with a context, 6, of its VLAN 4 and UDP port 9. -/
def macState : State :=
  State.setCtx (withFlds [(.PWR_DOMAINS_ON, 0, 0, 2 ^ 32 + 2 ^ 33), (.NET_MAC_CFG_ENABLE, 1, 0, 1),
    (.SENS_STREAM_CTX_ENABLE, 6, 0, 1), (.SENS_STREAM_CTX_KIND, 6, 0, 1), (.SENS_STREAM_CTX_PORT, 6, 0, 1),
    (.SENS_STREAM_MATCH_VLAN_ID, 6, 0, 4), (.SENS_STREAM_MATCH_UDP_PORT, 6, 0, 9), (.SENS_STREAM_SLOT_SIZE_SIZE, 6, 0, 4096),
    (.SENS_STREAM_LIMITS_PKTS_PER_FRAME, 6, 0, 5)]) 6 { Context.zero with frame := some (frame0 none) }

theorem test_frameLength_premise : frameLength true 4 9 [1] ≤ macState.fld .NET_MAC_CFG_MAX_FRAME 1 := by
  have h : macState.fld .NET_MAC_CFG_MAX_FRAME 1 = 9216 := by decide
  have := (Config.ipHeader 4 9 [1]).isLt
  simp only [h, frameLength, List.length_singleton, if_true, show ¬(4 = 0) by decide, if_false]
  omega
theorem test_eth_premise :
    macState.domainOn 33 = true ∧ macState.fld .NET_MAC_CFG_ENABLE 1 ≠ 0 ∧
    macState.ethContext 1 4 8 = none ∧
    macState.sensing.clusterQueue.length < clusterDepth ∧ macState.fld .NET_MAC_CNT_COUNT 1 0 < 65535 ∧
    macState.fld .NET_MAC_CNT_COUNT 1 1 < 65535 ∧ macState.ethContext 1 4 9 = some 6 ∧
    (macState.ctx 6).frame = some (frame0 none) ∧ (frame0 none).packets ≠ 0 ∧ (frame0 none).discard = false ∧ (frame0 none).failed = none ∧
    macState.inOpenStall (macState.slotAddr 6 0 + 256 + 64) (ethItem [1]).length = false ∧
    256 + 64 + (ethItem [1]).length ≤ macState.fld .SENS_STREAM_SLOT_SIZE_SIZE 6 ∧
    (frame0 none).packets + 1 < macState.fld .SENS_STREAM_LIMITS_PKTS_PER_FRAME 6 ∧
    6 ∈ macState.portContexts (.mac 1) := by decide

theorem test_lost_premise :
    (let s : State := { csiState 0 Context.zero with now := 1000000 }
     s.ctxOn 5 = true ∧ (s.ctx 5).lost = false ∧
       (s.ctx 5).lastStart + s.fld .SENS_STREAM_PARAM_LOST_PERIODS 5 * s.period (s.lineOf 5) ≤ s.now) := by decide

/-- A trigger line, 3, with period 1 ms, and what context 5 needs of its registers. -/
def lineState (en : Nat) (t : Trigger := Trigger.zero) : State :=
  State.setTrig (withFlds [(.SENS_TRIG_TIMING_PERIOD, 3, 0, 1000000), (.SENS_TRIG_CTRL_ENABLE, 3, 0, en)]) 3 t

theorem test_trigger_premise :
    (let s := lineState 0; s.fld .SENS_TRIG_CTRL_ENABLE 3 = 0 ∧ s.triggerGood 3 = true) ∧
    (State.reset.fld .SENS_TRIG_CTRL_ENABLE 3 = 0 ∧ State.reset.triggerGood 3 = false) ∧
    (let s := lineState 1; s.fld .SENS_TRIG_CTRL_ENABLE 3 ≠ 0 ∧ s.lineBound 3 = false) ∧
    (let s := withFlds [(.SENS_STREAM_CTX_ENABLE, 5, 0, 1), (.SENS_STREAM_CTX_TRIGGER, 5, 0, 3)] (lineState 1)
     s.fld .SENS_TRIG_CTRL_ENABLE 3 = 1 ∧ s.lineBound 3 = true) ∧
    (let s : State := { lineState 1 ⟨true, 0, some 1, (0, 0), none, some 2000000, some 2000000, []⟩ with now := 2000000 }
     s.edgeNow 3 = some 2 ∧ s.fld .SENS_TRIG_CTRL_ENABLE 3 = 1 ∧ s.edgeExists 3 2 = true ∧ (s.trig 3).barred = none ∧
       (s.trig 3).pulseEnd = some 2000000 ∧ (s.trig 3).holdEnd = some 2000000 ∧ 2000000 ≤ s.now) := by decide

theorem test_context_premise :
    (State.reset.ctxOn 5 = false ∧ State.reset.ctxGood 5 = false) ∧
    (let s := withFlds [(.SENS_STREAM_CTX_PORT, 5, 0, 1), (.SENS_STREAM_CTX_DT, 5, 0, 0x2C), (.SENS_STREAM_CTX_TRIGGER, 5, 0, 3),
        (.SENS_STREAM_SLOT_SIZE_SIZE, 5, 0, 4096)] (lineState 1)
     let gen := ((s.buffer (s.fld .SENS_STREAM_PARAM_BUFFER_ID 5)).map (·.gen)).getD 0
     let u := (s.setFld .SENS_STREAM_CTX_ENABLE 1 5).setCtx 5 { Context.zero with lastStart := s.now, gen := gen }
     s.ctxOn 5 = false ∧ s.ctxGood 5 = true ∧ u.ctxDeclared 5 = false) := by decide

theorem test_fusion_premise :
    (let s : State := { withFlds [(.SENS_FUSION_CFG_ENABLE, 0, 0, 1)] with now := 40000000 }
     s.fusing = true ∧ s.instantAt s.now = some 1 ∧ s.sensing.instant = none) ∧
    (let s := withFlds [(.SENS_FUSION_CFG_ENABLE, 0, 0, 1), (.SENS_FUSION_CFG_RESULT_BUF, 0, 0, 5)] (bufferState prog0 iter0 running0
        (buffer0 1 0 true) 0)
     ∃ b h, s.fusing = true ∧ s.buffer (s.fld .SENS_FUSION_CFG_RESULT_BUF) = some b ∧ b.newest = some 0 ∧
       b.halves[0]? = some h ∧ h.usable = true ∧ b.entry.dir ≠ 0 ∧ h.released = false) := by
  refine ⟨by decide, buffer0 1 0 true, _, by decide, rfl, by decide, rfl, ?_⟩
  decide

/-! ## The time base and planning -/

/-- MAC 1 carries gPTP. -/
def gptpState : State :=
  withFlds [(.PWR_DOMAINS_ON, 0, 0, 2 ^ 33), (.TIME_CFG_GPTP_EN, 0, 0, 1), (.TIME_CFG_PORT_MASK, 0, 0, 2),
    (.NET_MAC_CFG_ENABLE, 1, 0, 1)]

/-- `gptpState` with this in the time base. -/
def timeAt (g : TimeBase → TimeBase) : State := { gptpState with timeBase := g gptpState.timeBase }

theorem test_timeBase_premise :
    (let s := timeAt fun t => { t with good := 15, state := 0 }
     s.gptpOn 1 = true ∧ s.syncKnown 5 = false ∧ (-100 : Int).natAbs ≤ 100 ∧ 15 ≤ s.timeBase.good ∧
       s.timeBase.state ≠ 2 ∧ 1 < s.timeBase.delays.length) ∧
    (gptpState.gptpOn 1 = true ∧ gptpState.timeBase.good < 15) ∧
    (let s := withFlds [(.TIME_CFG_CB_EN, 0, 0, 1)] (timeAt fun t => { t with cbSeq := some 5 })
     s.gptpOn 1 = true ∧ s.fld .TIME_CFG_CB_EN = 1 ∧ s.timeBase.cbSeq = some 5 ∧ 5 < 65536 ∧ 4 ≤ 5 ∧ 5 < 4 + 32768) ∧
    (let s : State := { timeAt fun t => { t with state := 2, interval := 125000000, lastSync := some 0 } with now := 375000000 }
     s.timeBase.state = 2 ∧ s.syncDeadline ≤ s.now) ∧
    (let s : State := { timeAt fun t => { t with state := 1 } with now := 10 ^ 13 }
     s.timeBase.state = 1 ∧ s.fld .TIME_CFG_HOLD_LIMIT * 100000 * 2000000 < s.holdError) := by decide

theorem test_offsets_premise :
    (gptpState.gptpOn 1 = true ∧ gptpState.syncKnown 5 = false ∧ gptpState.inDrive = false ∧
      gptpState.timeBase.state ≠ 2 ∧ gptpState.timeBase.stepped = false ∧ 1000 < (-1001 : Int).natAbs) ∧
    (let s : State := { gptpState with mode := .drive }; s.gptpOn 1 = true ∧ s.syncKnown 5 = false ∧ s.inDrive = true) := by decide

/-- A planning set-up that R241 accepts, the engine enabled or not. -/
def planState (en : Nat) : State :=
  withFlds [(.PWR_DOMAINS_ON, 0, 0, 2 ^ 31), (.PLAN_CFG_ENABLE, 0, 0, en), (.PLAN_CFG_MAX_WORLD_AGE, 0, 0, 200),
    (.PLAN_CYCLE_PERIOD, 0, 0, 40000), (.PLAN_CYCLE_SELECT_OFFSET, 0, 0, 30000), (.PLAN_MARKERS_FREE_MARKER, 0, 0, 3),
    (.PLAN_MARKERS_PUBLISH_MARKER, 0, 0, 4), (.PLAN_PROP_BUF_COUNT, 0, 0, 1), (.PLAN_PROP_BUF_BUF0, 0, 0, 5)]
    { State.reset with mode := .drive }

theorem test_planning_premise :
    (let s := planState 0
     s.fld .PLAN_CFG_ENABLE ≠ 1 ∧ s.planSetupOk = true ∧ s.planner.granted = none ∧ s.planner.states ≠ [] ∧
       ∀ w ∈ s.host.waits, w.marker ≠ s.fld .PLAN_MARKERS_FREE_MARKER) ∧
    (State.reset.fld .PLAN_CFG_ENABLE ≠ 1 ∧ State.reset.planSetupOk = false) := by decide

/-- The bytes of a world header of one cell and one slice in snapshot buffer 0. -/
def worldBytes : Tbl Byte :=
  [(0x57, 0), (0x52, 1), (0x4C, 2), (0x44, 3), (1, 4), (1, 7), (10, 32), (1, 34), (1, 36), (1, 38), (0x80, 50), (0x3F, 51)].map
    fun x => (snapBase 0 + x.2, x.1)

/-- The planning engine enabled, with this in it. -/
def planWith (g : Planner → Planner) (s : State := planState 1) : State := { s with planner := g s.planner }

theorem test_snapshots_premise :
    (let s := planWith fun p => { p with states := [2, 0] }
     s.planning = true ∧ s.planner.first ≤ s.cycleNow ∧ s.planner.inState 2 = some 0 ∧ 0 < s.planner.states.length) ∧
    (let s := (planWith fun p => { p with granted := some 0 }).setMarker 4 1
     s.planner.granted = some 0 ∧ s.fld .PLAN_CFG_ENABLE = 1 ∧ s.planner.states[0]? = some 0 ∧ s.host.waits = [] ∧
       reached (s.marker (s.fld .PLAN_MARKERS_PUBLISH_MARKER)) 1 = true) ∧
    (planWith fun p => { p with granted := some 0, taken := true }).planner.taken = true ∧
    (let w : MarkWait := ⟨⟨0, 0⟩, 4, 1, 1, none⟩
     let s := planWith fun p => { p with granted := some 0 }
     let s : State := { s with host := { s.host with waits := [w] } }
     s.planner.granted = some 0 ∧ s.planner.taken = false ∧ s.host.waits = [w] ∧ w.desc ≠ engineTake ∧
       w.marker = s.fld .PLAN_MARKERS_PUBLISH_MARKER ∧ w.kind = 1) ∧
    (let s := planWith fun p => { p with states := [1, 0] }
     s.planner.inState 1 = some 0 ∧ 0 < s.planner.states.length ∧ 0 < s.planner.epochs.length ∧
       ((s.world 0).build [] []).toOption = none) := by decide

theorem test_snapshotGood_premise :
    (let s : State := { planWith (fun p => { p with states := [1, 0] }) with mem := worldBytes }
     s.planner.inState 1 = some 0 ∧ (s.world 0).primCount = 0 ∧ (s.world 0).vertexCount = 0 ∧
       ((s.world 0).build [] []).toOption = some [[]]) := by decide

/-- A plan cycle in progress. -/
def cycle0 : PlanCycle := ⟨0, 0, false, false, 0, [], 0⟩

/-- Planning in a cycle, with proposal buffer 5 of one block of 1,104 bytes. -/
def proposalState (block : List Byte) : State :=
  let b := { buffer0 1 0 true with entry := { handover0 1 0 with size := 1104 } }
  (planWith (fun p => { p with cycle := some cycle0 })
    (withFlds [(.PLAN_CFG_ENABLE, 0, 0, 1), (.PLAN_PROP_BUF_COUNT, 0, 0, 1), (.PLAN_PROP_BUF_BUF0, 0, 0, 5),
      (.PLAN_CYCLE_SELECT_OFFSET, 0, 0, 30000)] (bufferState prog0 iter0 running0 b 0))).devWrite (b.halfAddr 0) block

theorem test_proposals_premise :
    (let s := proposalState [0x50, 0x52, 0x4F, 0x50, 1, 0, 64, 0, 1]
     ∃ b h, s.takingCycle = some cycle0 ∧ s.propBuffers = [5] ∧ s.buffer 5 = some b ∧ b.toTake = some 0 ∧
       b.halves[0]? = some h ∧ (let block := s.devRead (b.halfAddr 0) b.entry.size
       valAt block 0 4 = 0x504F5250 ∧ valAt block 4 2 = 1 ∧ valAt block 6 2 = 64 ∧ valAt block 8 4 ≠ 0 ∧
         64 + 1040 * valAt block 8 4 ≤ b.entry.size)) ∧
    (let s := proposalState []
     ∃ b h, s.takingCycle = some cycle0 ∧ s.propBuffers = [5] ∧ s.buffer 5 = some b ∧ b.toTake = some 0 ∧
       b.halves[0]? = some h ∧ valAt (s.devRead (b.halfAddr 0) b.entry.size) 0 4 ≠ 0x504F5250) :=
  ⟨⟨_, _, by decide, by decide, rfl, by decide, rfl, by decide +kernel⟩,
    ⟨_, _, by decide, by decide, rfl, by decide, rfl, by decide +kernel⟩⟩

/-- Lane 0 checks a candidate of zeros, a pose after another at the origin, against the world of buffer 0. -/
def laneState (mem : Tbl Byte) : State :=
  { planWith fun p => { p with cycle := some cycle0, states := [3, 0], lanes := some ⟨7, 0, []⟩ :: List.replicate 63 none } with mem := mem }

/-- A world in whose cell stands a sphere of radius 0 at the origin. -/
def sphereBytes : Tbl Byte := worldBytes ++ [(snapBase 0 + 0x100, 2), (snapBase 0 + 0x100002, 0x10)]

theorem test_lanes_premise :
    (let s := laneState worldBytes
     s.takingCycle = some cycle0 ∧ s.planner.lanes.getD 0 none = some ⟨7, 0, []⟩ ∧ s.planner.inState 3 = some 0 ∧
       s.planner.waiting = [] ∧ s.fld .PLAN_STAT_COUNT 0 < 65535 ∧ s.planner.queue.length < 65536) ∧
    (laneState worldBytes).check 0 0 [] = .free ∧
    costKey 0 ((laneState worldBytes).fld .PLAN_COST_W_W_SPEED) ((laneState worldBytes).fld .PLAN_COST_W_W_YAW) (candPoses []) =
      some 0 ∧
    (laneState sphereBytes).check 0 0 [] = .collides 0 0 ∧ (laneState sphereBytes).fld .PLAN_STAT_COUNT 2 < 65535 := by
  decide +kernel

/-- A plan cycle at its selection instant, with one survivor that lane 0 found free. -/
def selectState (mem : Tbl Byte) : State :=
  { planWith fun p => { p with cycle := some cycle0, states := [3, 0], queue := [⟨5, 7, 0, 0, 0⟩] } with now := 30000000, mem := mem }

theorem test_selection_premise :
    (let s : State := { planWith fun p => { p with cycle := some cycle0 } with now := 30000000 }
     s.planner.cycle = some cycle0 ∧ cycle0.selected = false ∧ s.planning = true ∧ s.selectAt cycle0 ≤ s.now ∧
       s.selectionBuffer cycle0 = none) ∧
    (let s := selectState worldBytes
     s.planner.cycle = some cycle0 ∧ s.planning = true ∧ s.selectAt cycle0 ≤ s.now ∧ s.selectionBuffer cycle0 = some 0 ∧
       cycle0.stale = false ∧ 2 ≤ s.lanesUp ∧ s.planner.waiting = [] ∧ (∀ x ∈ s.planner.lanes, x = none) ∧
       s.planner.epochs.getD 0 0 = cycle0.epoch ∧ s.planner.queue = [⟨5, 7, 0, 0, 0⟩] ∧ s.otherLane 0 ≠ none) ∧
    (selectState worldBytes).check 0 0 ((selectState worldBytes).stored 0) = .free ∧
    (selectState sphereBytes).check 0 0 ((selectState sphereBytes).stored 0) ≠ .free := by
  decide +kernel

/-! ## Memory -/

/-- A request of master 1. -/
def request0 (write : Bool) (todo : List Nat) : Request := ⟨9, 1, 0, 0x100, 64, write, some 5, false, 0, 0, 0, todo⟩

theorem test_requests_premise :
    (let s := withFlds [(.MEM_PART_CFG_ENABLE, 0, 0, 1)]
     s.cutOff 1 = false ∧ s.accessOk 1 0 0x100 64 = true ∧ s.writeOk 1 0 0x100 64 = true ∧ s.limits (regKey (s.partOf 1) 0) = true ∧
       (s.regulator (regKey (s.partOf 1) 0)).waiting = [] ∧
       (∀ j, j < 15 → j ≠ regKey (s.partOf 1) 0 → ∀ x ∈ (s.regulator j).waiting, x.master ≠ 1) ∧ alignUp 64 64 ≤ (s.regulator (regKey (s.partOf 1) 0)).tokens) ∧
    (let s := withFlds [(.MEM_PART_CFG_ENABLE, 0, 0, 1)]
     let s : State := { s with memSys := { s.memSys with regs := [(regKey (s.partOf 1) 0, { Regulator.zero with tokens := 63 })] } }
     s.accessOk 1 0 0x100 64 = true ∧ s.limits (regKey (s.partOf 1) 0) = true ∧
       (s.regulator (regKey (s.partOf 1) 0)).waiting = [] ∧
       (∀ j, j < 15 → j ≠ regKey (s.partOf 1) 0 → ∀ x ∈ (s.regulator j).waiting, x.master ≠ 1) ∧ (s.regulator (regKey (s.partOf 1) 0)).tokens < alignUp 64 64) ∧
    State.reset.cutOff 1 = false ∧ State.reset.accessOk 1 0 0xFFFFFFFFFFC0 64 = false ∧
    State.reset.writeOk 1 0 0xFFFFFFFFFFC0 64 = false ∧
    (let s : State := { State.reset with memSys := { State.reset.memSys with linkUp := List.replicate 14 false } }
     s.cutOff 5 = true ∧ s.cutOff 6 = true) := by decide

theorem test_refill_premise :
    State.reset.memSys.inEffect = [] ∧ ∀ k ∈ regulatorKeys, (State.reset.regulator k).waiting = [] := by decide
theorem test_refillUnmet_premise : State.reset.memSys.safetyUnmet = false := rfl

theorem test_served_premise :
    (let s : State := powered { State.reset with memSys := { State.reset.memSys with queue := [request0 true [3]] } }
     s.slotChoice 3 = some (request0 true [3]) ∧ (request0 true [3]).todo = [3] ∧ s.domainOn 35 = true) ∧
    (let x : Request := { request0 true [] with master := 5 }
     let s : State := { State.reset with memSys := { State.reset.memSys with issued := [x], linkUp := List.replicate 14 false } }
     s.memSys.issued.find? (fun x => x.id == 9) = some x ∧ s.cutOff x.master = true) ∧
    State.reset.cutOff (request0 true []).master = false ∧
    (let s : State := { State.reset with memSys := { State.reset.memSys with issued := [request0 true []] }, now := 6 }
     s.memSys.issued.find? (fun x => x.id == 9) = some (request0 true []) ∧ (request0 true []).write = true ∧
       (request0 true []).deadline = some 5 ∧ 5 < s.now ∧ s.fld .MEM_PART_STAT_DL_MISSES 0 < 65535) ∧
    (let s : State := { State.reset with memSys := { State.reset.memSys with issued := [request0 false []] } }
     s.memSys.issued.find? (fun x => x.id == 9) = some (request0 false []) ∧ (request0 false []).write = false ∧
       s.poisonedIn (s.devAddr 0 0x100) 64 = false) ∧
    (let s : State := { State.reset with memSys := { State.reset.memSys with issued := [request0 false []], poisoned := [1] } }
     s.memSys.issued.find? (fun x => x.id == 9) = some (request0 false []) ∧ s.poisonedIn (s.devAddr 0 0x100) 64 = true ∧
       s.devAddr 0 0x100 < hbmSize) := by decide

theorem test_maintenance_premise :
    (let s := withFlds [(.MEM_PART_CFG_ENABLE, State.reset.partOf 10, 0, 1)]
     let s := s.setRegulator (s.partOf 10) { Regulator.zero with tokens := 63 }
     s.spend 32 = none) ∧
    ((State.reset.spend 32).isSome = true ∧ (State.reset.spend 512).isSome = true) ∧
    (State.reset.poisonedIn State.reset.memSys.scrub 32 = false ∧
      State.reset.fld .MEM_PC_ECC_UE (State.reset.serving (State.reset.memSys.scrub / 256)) < 65535 ∧
      State.reset.fld .MEM_PC_ECC_CE (State.reset.serving (State.reset.memSys.scrub / 256)) < 65535) ∧
    (let s := State.reset.setChannel 3 { Channel.zero with spare := some 1 }
     (s.channel 3).spare.isSome = true ∧ (s.channel 3).copied < 3145728 ∧ (s.spend 512).isSome = true ∧
       s.poisonedIn (granuleAt 3 (s.channel 3).copied * 256) 256 = false) ∧
    (let x : Stack := ⟨40, false, none, none⟩
     let s : State := { State.reset with memSys := { State.reset.memSys with hbmStacks := [x, x] } }
     s.memSys.hbmStacks = [x, x] ∧ (85 : Int) < 86 ∧ (85 : Int) ≤ 85 ∧ x.doubled = false ∧ x.pending = none) ∧
    (let x : Stack := ⟨40, false, none, some true⟩
     let s : State := { State.reset with memSys := { State.reset.memSys with hbmStacks := [x, x] } }
     s.memSys.hbmStacks[1]? = some x ∧ s.fabric.beat % 8192 = 0 ∧ x.pending = some true) := by decide

/-- A beat at which a pseudo-channel is refreshed. -/
def refreshState : State := { State.reset with fabric := { State.reset.fabric with beat := Config.refreshPhase 3 } }

theorem test_refresh_premise : refreshState.refreshDue (3 : Fin 64) = true ∧
    (Tbl.get (0, 0) refreshState.memSys.rotation 3).1 = 0 := by
  refine ⟨?_, by decide⟩
  have h : (Tbl.get (0, 0) refreshState.memSys.rotation 3).2 = 0 := by decide
  simp only [State.refreshDue, Bool.and_eq_true, bne_iff_ne, ne_eq, beq_iff_eq]
  exact ⟨rfl, fun e => absurd (h.symm.trans e).symm (Nat.succ_ne_zero _)⟩

theorem test_regulation_premise :
    (let v := 2 ^ 32 * 5 + 3
     Fld.of .MEM_PART_RATE_RATE v < Fld.of .MEM_PART_RATE_MIN_RATE v) ∧
    Fld.of .MEM_PART_RATE_MIN_RATE 0 ≤ Fld.of .MEM_PART_RATE_RATE 0 ∧
    Fld.of .MEM_PART_RATE_MIN_RATE 0 ≤ State.reset.fld .MEM_PART_RATE_MIN_RATE 4 ∧ State.reset.memSys.inEffect = [] := by decide

theorem test_purl_premise :
    (let s : State := { State.reset with memSys := { State.reset.memSys with linkUp := List.replicate 14 true } }
     s.purlUp 0 = true ∧ s.fld .CD_PURL_RETRY_COUNT 0 1 < 65535 ∧ s.purlUp 6 = true ∧ s.fld .CD_PURL_RETRY_COUNT 0 0 < 65535 ∧
       s.purlUp 12 = true ∧ s.fld .HUB_CFG_PURL_WH_RETRY_COUNT 0 < 65535) ∧
    (let s : State := { State.reset with memSys := { State.reset.memSys with linkUp := List.replicate 14 false } }
     s.purlUp 13 = false) := by decide

/-! ## The pair link -/

/-- The pair link with this in it. -/
def pairWith (g : PairLink → PairLink) (s : State := State.reset) : State := { s with pair := g s.pair }

theorem test_training_premise :
    State.reset.fld .SEC_BOOT_STATUS_SAFE_ALONE ≠ 1 ∧
    (withFlds [(.SEC_BOOT_STATUS_SAFE_ALONE, 0, 0, 1)]).fld .SEC_BOOT_STATUS_SAFE_ALONE = 1 ∧
    (let s : State := { pairWith (fun p => { p with lastAttempt := some 1 }) (withFlds [(.MEM_PAIR_CFG_ENABLE, 0, 0, 1)]) with
        now := 100000001 }
     s.fld .MEM_PAIR_CFG_ENABLE = 1 ∧ s.pair.state = 0 ∧ (∀ a, s.pair.lastAttempt = some a → a + 100000000 ≤ s.now) ∧
       s.swatch.pairHeld = false ∧ s.fld .MEM_PAIR_STATUS_RETRAINS < 255) ∧
    (let s : State := { pairWith fun p => { p with state := 1, failures := 1, lastAttempt := some 0 } with now := 30000000 }
     s.pair.state = 1 ∧ 30000000 ≤ s.trainAge ∧ s.pair.failures < 2 ∧ s.pair.phase = 0 ∧ 2000000 < s.trainAge) ∧
    (let s : State := { pairWith fun p => { p with state := 1, failures := 2, lastAttempt := some 0 } with now := 30000000 }
     s.pair.state = 1 ∧ 30000000 ≤ s.trainAge ∧ s.pair.failures = 2 ∧ s.pair.failLogged = false) ∧
    (let s : State := { pairWith fun p => { p with state := 1, lastAttempt := some 0 } with now := 2000000 }
     s.pair.state = 1 ∧ s.pair.phase = 0 ∧ s.trainAge ≤ 2000000) ∧
    (∀ phase ∈ [1, 2], let s := pairWith fun p => { p with state := 1, phase := phase }
     s.pair.state = 1 ∧ s.pair.phase = phase ∧ s.trainAge ≤ 30000000 ∧ 1 ≠ s.pairRole ∧ 0 = s.pairRole ∧ s.pair.failures < 2) ∧
    (∀ phase ∈ [1, 2], let s : State := { pairWith fun p => { p with state := 1, phase := phase, lastAttempt := some 0 } with now := 30000001 }
     s.pair.state = 1 ∧ s.pair.phase = phase ∧ 30000000 < s.trainAge) := by
  refine ⟨by decide, by decide, ⟨by decide, by decide, ?_, by decide⟩, by decide⟩
  intro a h; cases h; decide

/-- A header whose CRC is that of the flit's bytes. -/
def goodHdr (nak : Bool) (kind : Nat) (body : List Byte) : FlitHdr :=
  { hdr with nak := nak, crc := (hdrFlit { hdr with nak := nak } kind body).crc }

theorem goodHdr_good (nak : Bool) (kind : Nat) (body : List Byte) : goodFlit (goodHdr nak kind body) kind body = true :=
  beq_self_eq_true _

/-- The link UP, with an inbound buffer, 5, whose half 0 transfer 3 receives. -/
def pairReceives : State :=
  pairWith (fun p => { p with state := 2, xfers := [(3, ⟨none, some (5, 0), some 5, false⟩)] })
    (bufferState prog0 iter0 running0 (buffer0 0 0 false) 0)

theorem test_badFlit_premise : hdr.crc ≠ crc32 (hdrFlit hdr 0 []).covered := by decide +kernel

theorem test_pairTaken_premise :
    (let s := pairWith fun p => { p with state := 3, alignedRun := 15, lastTimeSent := some 0 }
     s.pairUp = true ∧ s.pair.backlog = [] ∧ 5 ≠ s.fabric.step ∧ s.pair.state = 3 ∧
       s.pair.lastTimeSent = some 0 ∧ (s.twiceOffset 0 0 4).natAbs ≤ 4 ∧ 15 ≤ s.pair.alignedRun) ∧
    (∀ nak, goodFlit (goodHdr nak 0 []) 0 [] = true ∧ (goodHdr nak 0 []).nak = nak) ∧
    (∀ role m st b a, goodFlit (goodHdr false 2 (statusBody role m st b a)) 2 (statusBody role m st b a) = true) ∧
    (∀ a b c d, goodFlit (goodHdr false 3 (timeBody a b c d)) 3 (timeBody a b c d) = true) ∧
    (∀ last : Bool, let s := pairReceives
     let h := goodHdr false 1 (dataBody 3 last 100 [1])
     ∃ b y, s.pairUp = true ∧ goodFlit h 1 (dataBody 3 last 100 [1]) = true ∧ h.seq = (s.pair.inOrder + 1) % 65536 ∧
       s.buffer 5 = some b ∧ b.entry.dir = 0 ∧ (s.xfer 3).receiving = some (5, 0) ∧ (s.xfer 3).dropping = false ∧ b.halves[0]? = some y ∧
       [(1 : Byte)].length ≤ 104 ∧ 100 + [(1 : Byte)].length ≤ b.entry.size) :=
  ⟨by decide, fun _ => ⟨goodHdr_good .., rfl⟩, fun _ _ _ _ _ => goodHdr_good .., fun _ _ _ _ => goodHdr_good ..,
    fun _ => ⟨buffer0 0 0 false, _, by decide, goodHdr_good .., rfl, rfl, rfl, by decide, rfl, rfl, by decide⟩⟩

/-- Transfer 3 sends buffer 5; half 0 is ready. -/
def pairSends (pend : Bool) (credits : Nat := 40) : State :=
  let b := buffer0 1 0 true
  pairWith (fun p => { p with state := 2, credits := credits })
    (withFlds [(.MEM_PAIR_XFER_ENABLE, 3, 0, 1), (.MEM_PAIR_XFER_LOCAL_BUF, 3, 0, 5)]
      (bufferState prog0 iter0 running0
        { b with halves := b.halves.map fun h => { h with pendingVerdict := pend } } 0))

theorem test_pairSent_premise :
    ((pairWith fun p => { p with state := 2, blocks := 2047 }).pairUp = true ∧ State.reset.fabric.beat % 8192 = 0 ∧
      (pairWith fun p => { p with state := 2 }).pair.backlog = []) ∧
    (∀ pend : Bool, ∃ b y, (pairSends pend).pairUp = true ∧ (pairSends pend).fld .MEM_PAIR_XFER_ENABLE 3 = 1 ∧
      (pairSends pend).fld .MEM_PAIR_XFER_LOCAL_BUF 3 = 5 ∧ (pairSends pend).buffer 5 = some b ∧
      ((pairSends pend).xfer 3).sending = none ∧ b.newest = some 0 ∧ b.halves[0]? = some y ∧ b.entry.dir = 1 ∧
      y.invalid = false ∧ y.pendingVerdict = pend ∧ (pairSends pend).pair.backlog = [] ∧ 0 < b.entry.size ∧
      (pairSends pend).pair.replay.length + (b.entry.size + 103) / 104 ≤ 256 ∧
      (b.entry.size + 103) / 104 ≤ (pairSends pend).pair.credits) ∧
    (pairSends false 0).pair.credits = 0 := by
  refine ⟨by decide, fun pend => ⟨_, _, ?_, ?_, ?_, rfl, ?_, ?_, rfl, ?_⟩, rfl⟩ <;> cases pend <;> decide

/-- A START at barrier 3, the link UP or ALIGNED, with a credit. -/
def barrierState (st role : Nat) (b : Barrier) (x : Desc) : State :=
  let s := ringWith x (started prog0 { run0 with iters := [], desc := some ⟨0, 0⟩ } 0)
  (pairWith (fun p => { p with state := st, credits := 1 }) (withFlds [(.SEC_BOOT_STATUS_PAIR_ROLE, 0, 0, role)] s)).setBarrier 3 (some b)

/-- This side waits at a barrier in generation 7. -/
def barrier0 : Barrier := ⟨some 7, none, 0, 0, none, 0, 0⟩

theorem test_barriers_premise :
    (let s := pairWith fun p => { p with state := 2 }
     let h := goodHdr false 4 (arriveBody 3 7)
     s.pairUp = true ∧ h.nak = false ∧ s.pair.backlog = [] ∧ goodFlit h 4 (arriveBody 3 7) = true ∧
       h.seq = (s.pair.inOrder + 1) % 65536 ∧ s.barrier 3 = none) ∧
    (let s := barrierState 2 0 barrier0 (desc0 [])
     let h := goodHdr false 4 (arriveBody 3 7)
     ∃ p r x, s.pairUp = true ∧ h.seq = (s.pair.inOrder + 1) % 65536 ∧ s.barrier 3 = some barrier0 ∧ barrier0.ownGen = some 7 ∧
       barrier0.release = none ∧ s.program barrier0.fn barrier0.slot = some p ∧ p.running = some r ∧
       goodFlit h 4 (arriveBody 3 7) = true ∧ s.pairRole = 0 ∧
       s.now ≤ barrier0.armedAt + s.fld .MEM_PAIR_CFG_BARRIER_TIMEOUT * 1000 ∧ s.pair.room = true ∧
       (64 + 3, 7) ∉ s.pair.aborted ∧ r.desc = some ⟨0, 0⟩ ∧ s.ticketDesc ⟨0, 0⟩ = some x ∧ x.done = none ∧
       goodFlit (goodHdr false 6 (abortBody 1 3 7 0)) 6 (abortBody 1 3 7 0) = true) ∧
    (∀ b ∈ [barrier0, { barrier0 with peerGen := some 7, peerAt := 90000000000 }],
     let s : State := { barrierState 2 1 b (desc0 []) with now := 100000000000 }
     s.pairUp = true ∧ s.barrier 3 = some b ∧ (b.peerGen ≠ some 7 ∨ b.armedAt + s.fld .MEM_PAIR_CFG_BARRIER_TIMEOUT * 1000 < b.peerAt) ∧
       b.armedAt + s.fld .MEM_PAIR_CFG_BARRIER_TIMEOUT * 1000 ≤ s.now ∧ s.pair.room = true) ∧
    (let s := barrierState 3 1 barrier0 (desc0 [])
     let h := goodHdr false 5 (releaseBody 3 7 2048)
     s.pairUp = true ∧ s.barrier 3 = some barrier0 ∧ goodFlit h 5 (releaseBody 3 7 2048) = true ∧ s.pairRole = 1 ∧
       s.aligned = true ∧ s.fabric.beat + 2048 ≤ 2048) := by
  refine ⟨⟨by decide, by decide, by decide, goodHdr_good .., by decide, by decide⟩,
    ⟨_, _, _, by decide, by decide, rfl, rfl, rfl, rfl, rfl, goodHdr_good .., by decide, by decide, by decide, by decide, rfl, rfl, rfl,
      goodHdr_good ..⟩, by decide, ⟨by decide, rfl, goodHdr_good .., by decide, by decide, by decide⟩⟩

theorem test_lost_pair_premise :
    (∀ role ∈ [0, 1],
     let s := pairWith (fun p => { p with state := 2, replay := [⟨1, 4, [], 8⟩] }) (withFlds [(.SEC_BOOT_STATUS_PAIR_ROLE, 0, 0, role)])
     s.pairUp = true ∧ s.pair.backlog = [] ∧ (∃ e ∈ s.pair.replay, 8 ≤ e.resends) ∧ s.pairRole = role) ∧
    (let s : State := { pairWith fun p => { p with state := 2 } with now := 1000000000 }
     s.pair.lastGood + s.fld .MEM_PAIR_CFG_LOST_TIMEOUT * 1000 ≤ s.now) := by decide

/-! ## The host interface -/

/-- The host link up, with the PF's MSI-X enabled. -/
def linked (s : State := State.reset) : State :=
  { s with host := { s.host with linkUp := true, controls := [(0, { FnControl.zero with msixEnable := true })] } }

theorem test_hostLink_premise :
    (let s := withFlds [(.PWR_DOMAINS_ON, 0, 0, 2 ^ 34)]
     let s : State := { s with boot := { s.boot with released := [true, true, true, true] }, wake := { s.wake with untilLink := true } }
     s.host.linkUp = false ∧ s.boot.released.getD 2 false = true ∧ s.domainOn 34 = true ∧ s.wake.untilLink = true ∧
       5 ∈ [1, 2, 3, 4, 5] ∧ 8 ∈ [1, 2, 4, 8] ∧ 6 ∉ [1, 2, 3, 4, 5] ∧ 3 ∉ [1, 2, 4, 8]) ∧
    (linked.host.linkUp = true ∧ linked.host.downCount < 65535) ∧
    (let s : State := { linked with boot := { State.reset.boot with evfin := some 0 } }
     let u : State := (s.setFld .MSIX_PBA_WORD 2 0 0).setFld .MSIX_TABLE_WORD 0 0 (4 * 1 + 3)
     let c : ConfigWrite := ⟨none, none, none, none, none, none, some true, none⟩
     s.boot.evfin.isSome ∧ s.host.linkUp = true ∧ 1 ≤ lastVector 0 ∧ bit (u.fld .MSIX_PBA_WORD 0 (1 / 32)) (1 % 32) = true ∧
       (let t : State := { u with host := { u.host with controls := [(0, (u.control 0).set c)] } }
        t.vectorMasked 0 1 = false)) ∧
    State.reset.boot.evfin = none ∧ State.reset.host.linkUp = false := by decide

/-- A ring that may be enabled. -/
def ringReady (s : State := State.reset) : State :=
  withFlds [(.RING_SQ_BASE_BASE, 0, 0, 1), (.RING_CQ_BASE_BASE, 0, 0, 2), (.RING_CFG_LOG2_ENTRIES, 0, 0, 6),
    (.RING_CFG_VECTOR, 0, 0, 1), (.RING_HEAD_WB_EN, 0, 0, 1), (.RING_IRQ_COALESCE_TIME, 0, 0, 5)] s

theorem test_rings_premise :
    ((ringReady.ring 0 0).phase = .disabled ∧ ringReady.fld .RING_SQ_BASE_BASE 0 0 ≠ 0 ∧
      ringReady.fld .RING_CQ_BASE_BASE 0 0 ≠ 0 ∧ 6 ≤ ringReady.fld .RING_CFG_LOG2_ENTRIES 0 0 ∧
      ringReady.fld .RING_CFG_LOG2_ENTRIES 0 0 ≤ 16 ∧ ringReady.fld .RING_CFG_VECTOR 0 0 ≠ 0 ∧
      ringReady.fld .RING_CFG_VECTOR 0 0 ≤ lastVector 0) ∧
    State.reset.fld .RING_SQ_BASE_BASE 0 0 = 0 ∧
    (let s := ringWith (desc0 []) ringReady
     (s.ring 0 0).phase = .active ∧ (s.ring 0 0).descs = [desc0 []] ∧ (desc0 []).started = false ∧ (desc0 []).orphan = false) ∧
    (let s := ringReady.setRing 0 0 { Ring.zero with phase := .active, completed := 3 }
     let v := ringReady.setRing 0 0 { Ring.zero with phase := .draining, completed := 3 }
     (s.ring 0 0).phase = .active ∧ (s.ring 0 0).descs = [] ∧ (v.ring 0 0).phase = .draining ∧ 63 < s.entries 0 0 ∧
       (0 + 64 - 0) % 64 ≤ (63 + 64 - 0) % 64 ∧ s.entries 0 0 ≤ 64 ∧ (s.ring 0 0).consumed + (3 + 64 - (s.ring 0 0).consumed % 64) % 64 ≤ (s.ring 0 0).completed) ∧
    (let s := linked (ringReady.setRing 0 0 { Ring.zero with phase := .active, tail := 1 })
     s.turn = some (ringKey 0 0) ∧ s.fld .RING_HEAD_WB_EN 0 0 = 1) ∧
    (State.reset.setRing 0 0 { Ring.zero with phase := .stopped }).ring 0 0 = { Ring.zero with phase := .stopped } ∧
    (let s := linked (ringReady.setRing 0 0 { Ring.zero with phase := .active, firstUnsignalled := some 0 })
     let s := { s.setFld .MSIX_TABLE_WORD 0 0 (4 * 1 + 3) with now := 5000 }
     (s.ring 0 0).firstUnsignalled = some 0 ∧ s.fld .RING_IRQ_COALESCE_TIME 0 0 ≠ 0 ∧
       0 + s.fld .RING_IRQ_COALESCE_TIME 0 0 * 1000 ≤ s.now ∧ s.vectorMasked 0 (s.fld .RING_CFG_VECTOR 0 0) = false ∧
       s.host.linkUp = true) := by decide

/-- A COPY: kind and address of source and target, 64 bytes. -/
def copy0 (sk dk src dst : Nat) : Desc :=
  desc0 [(0, [2]), (16, leBytes 1 sk), (17, leBytes 1 dk), (20, [64]), (24, leBytes 8 src), (32, leBytes 8 dst)]

theorem test_starts_premise :
    (∀ ty ∈ [0, 3], let x := desc0 [(0, leBytes 1 ty)]
      startable (ringWith x) dref x ∧ x.val 0 1 = ty) ∧
    (∀ ty ∈ [0, 3], let x := desc0 [(0, leBytes 1 ty), (1, [0x40])]
     let s := ringWith x
     s.desc dref = some x ∧ x.started = false ∧ x.done = none ∧ (s.ring 0 0).phase = .active ∧
       s.knotFree (ticketOf dref x) x = true ∧ s.headerWaits x = false ∧
       ((s.ring 0 0).badSince.any fun o => decide (o < x.order)) = false ∧
       s.descCheck 0 x = some 0x601 ∧ x.val 0 1 = ty) ∧
    (let x := { desc0 [(0, [3]), (1, [0x20])] with order := 1 }
     let s := (ringWith x).setRing 0 0 { (ringWith x).ring 0 0 with badSince := [0] }
     s.desc dref = some x ∧ x.started = false ∧ x.done = none ∧ (s.ring 0 0).phase = .active ∧
       s.knotFree (ticketOf dref x) x = true ∧ s.headerWaits x = false ∧ ((s.ring 0 0).badSince.any fun o => decide (o < x.order)) = true ∧
       x.flag 5 = true ∧ x.val 0 1 = 3) := by
  unfold startable; decide

theorem test_copies_premise :
    (∀ k ∈ [(0, 0), (1, 0), (3, 0), (0, 1), (1, 1), (3, 1)], let x := copy0 k.1 k.2 0x100 0x200
      let s := powered (ringWith x)
      startable s dref x ∧ s.memWf ∧ x.val 0 1 = 2 ∧ x.val 16 1 = k.1 ∧ x.val 17 1 = k.2 ∧ (s.copyTokens 0 x).isSome ∧
        s.accessOk 1 0 0x100 64 = true ∧ s.writeOk 1 0 0x200 64 = true) ∧
    (ringWith (copy0 1 1 0x100 0x200)).poisonedIn ((ringWith (copy0 1 1 0x100 0x200)).devAddr 0 0x100) 64 = false ∧
    (let x := copy0 0 1 0 0xFFFFFFFFFF00
     startable (powered (ringWith x)) dref x ∧ x.val 0 1 = 2 ∧ x.val 17 1 = 1 ∧ x.val 16 1 = 0 ∧
       ((powered (ringWith x)).copyTokens 0 x).isSome ∧ (powered (ringWith x)).writeOk 1 0 (x.val 32 8) 64 = false) ∧
    (let x := copy0 0 1 0x100 0x200
     let s := withFlds [(.PWR_DOMAINS_ON, 0, 0, 0)] (ringWith x)
     startable s dref x ∧ s.memWf ∧ x.val 0 1 = 2 ∧ x.val 16 1 ≠ 2 ∧ s.copyTokens 0 x = none) := by
  unfold startable State.memWf; decide

theorem test_badCopies_premise :
    (let x := copy0 1 0 0xFFFFFFFFFF00 0x200
     let s := powered (ringWith x)
     startable s dref x ∧ s.memWf ∧ x.val 0 1 = 2 ∧ x.val 17 1 ≠ 2 ∧ x.val 16 1 = 1 ∧ (s.copyTokens 0 x).isSome ∧
       s.accessOk 1 0 (x.val 24 8) 64 = false) ∧
    (let x := copy0 1 0 0x100 0x200
     let s := powered (ringWith x { State.reset with memSys := { State.reset.memSys with poisoned := [1] } })
     startable s dref x ∧ s.memWf ∧ (s.copyTokens 0 x).isSome ∧ s.accessOk 1 0 0x100 64 = true ∧ s.poisonedIn (s.devAddr 0 0x100) 64 = true) ∧
    State.reset.stalls = [] := by
  unfold startable State.memWf; decide

/-- `ringWith` over buffer 5. -/
def copyBuffer (x : Desc) (b : Buffer) : State := powered (ringWith x (bufferState prog0 iter0 running0 b 0))

/-- Descriptor 0 of ring 0 of VF 1, whose stall is open, with buffer 5 of the PF. -/
def vfRing (x : Desc) (b : Buffer) : State :=
  let s := { powered (bufferState prog0 iter0 running0 b 0) with stalls := [(1, { Stall.zero with phase := .open_ })] }
  let s := s.setRegulator (regKey 15 1) { Regulator.zero with tokens := 4096 }
  s.setRing 1 0 { Ring.zero with phase := .active, tail := 1, fetched := 1, head := 1, descs := [x] }

theorem test_bufferCopies_premise :
    (let x := copy0 0 2 0x100 5
     let s := copyBuffer x (buffer0 0 0 false)
     ∃ y, startable s dref x ∧ s.memWf ∧ x.val 0 1 = 2 ∧ (s.copyTokens 0 x).isSome ∧ x.val 16 1 = 0 ∧ x.val 17 1 = 2 ∧ x.val 32 8 = 5 ∧
       s.buffer 5 = some (buffer0 0 0 false) ∧ s.backing 5 = none ∧
       x.val 40 4 + x.val 20 4 ≤ (buffer0 0 0 false).entry.size ∧
       (buffer0 0 0 false).halves[(buffer0 0 0 false).freeHalf]? = some y ∧ (ringWith x).buffer 5 = none ∧
       ((powered (ringWith x)).copyTokens 0 x).isSome) ∧
    (let x := copy0 0 2 0x100 5
     let b := buffer0 0 0 false
     startable (vfRing x b) ⟨1, 0, 0⟩ x ∧ (vfRing x b).memWf ∧ ((vfRing x b).copyTokens 1 x).isSome ∧
       (vfRing x b).buffer 5 = some b ∧ b.fn ≠ 1) ∧
    (let x := copy0 2 0 5 0x100
     let b := buffer0 1 0 true
     startable (vfRing x b) ⟨1, 0, 0⟩ x ∧ (vfRing x b).memWf ∧ ((vfRing x b).copyTokens 1 x).isSome ∧
       (vfRing x b).buffer 5 = some b ∧ b.entry.dir = 1 ∧ b.fn ≠ 1 ∧
       ((vfRing x b).startedDesc ⟨1, 0, 0⟩ fun y => ((vfRing x b).halfSettled y).isSome) = none ∧
       (ringWith x).buffer 5 = none ∧ ((powered (ringWith x)).copyTokens 0 x).isSome) ∧
    (∀ rdy : Bool, let x := copy0 2 0 5 0x100
     let b := buffer0 1 0 rdy
     let s := copyBuffer x b
     startable s dref x ∧ s.memWf ∧ x.val 0 1 = 2 ∧ (s.copyTokens 0 x).isSome ∧ x.val 16 1 = 2 ∧ x.waits = none ∧
       (s.startedDesc dref fun y => (s.halfSettled y).isSome) = none ∧ x.val 24 8 = 5 ∧ s.buffer 5 = some b ∧
       b.entry.dir = 1 ∧ x.val 40 4 + x.val 20 4 ≤ b.entry.size ∧ b.newest = (if rdy then some 0 else none) ∧
       x.val 17 1 = 0) ∧
    (let b := buffer0 1 0 true
     let b := { b with halves := b.halves.map fun h => { h with pendingVerdict := true } }
     let x := copy0 2 0 5 0x100
     let s := copyBuffer x b
     startable s dref x ∧ (s.copyTokens 0 x).isSome ∧ (s.startedDesc dref fun y => (s.halfSettled y).isSome) = none ∧
       s.buffer 5 = some b ∧ b.newest = some 0 ∧
       (∀ y, b.halves[0]? = some y → y.pendingVerdict = true)) := by
  unfold startable State.memWf
  refine ⟨⟨_, by decide, by decide, by decide, by decide, by decide, by decide, by decide, rfl, by decide, by decide, rfl, by decide⟩,
    by decide, by decide, by decide, by decide, by decide, by decide, rfl, by decide, ?_⟩
  intro y h; cases h; rfl

theorem test_completions_premise :
    (let x : Desc := { desc0 [(1, [0x1B]), (12, [3]), (14, [2])] with done := some (0, 0, 0) }
     let s := (linked (ringWith x ringReady)).setFld .MSIX_TABLE_WORD 0 0 (4 * 1 + 3)
     (s.ring 0 0).descs = [x] ∧ x.slot = dref.slot ∧ x.done = some (0, 0, 0) ∧ x.holds = none ∧ s.host.waits = [] ∧
       x.orphan = false ∧ x.refused = false ∧ x.val 12 2 < 8192 ∧ s.markerOwner 3 = 0 ∧ x.flag 4 = true ∧ x.flag 3 = true ∧
       x.flag 1 = true ∧ s.fld .RING_IRQ_COALESCE_COUNT 0 0 ≤ 1 ∧ s.vectorMasked 0 (s.fld .RING_CFG_VECTOR 0 0) = false ∧
       s.host.linkUp = true) ∧
    (let x : Desc := { desc0 [] with done := some (5, 0, 0) }
     (ringWith x).ring 0 0 = { Ring.zero with phase := .active, tail := 1, fetched := 1, head := 1, descs := [x] } ∧
       x.flag 3 = false ∧ x.flag 4 = false ∧ x.flag 1 = false) ∧
    (let x : Desc := { desc0 [] with done := some (5, 0, 0), orphan := true }
     ((ringWith x).ring 0 0).descs = [x] ∧ x.orphan = true) := by decide

/-- A MARK operation on marker 3, with a value. -/
def mark0 (op v : Nat) : Desc := desc0 [(0, [4]), (16, leBytes 1 op), (18, [3]), (20, leBytes 4 v)]

theorem test_markers_premise :
    (∀ op ∈ [0, 1, 2, 3, 4, 5], let x := mark0 op 1
      let s := (ringWith x).setMarker 3 0
      startable s dref x ∧ x.val 0 1 = 4 ∧ s.host.waits = [] ∧ s.waitsPending < 4096 ∧ x.val 16 1 = op ∧
        s.marker 3 < 2 ^ 32 ∧ reached (s.marker 3) 1 = false) ∧
    (∀ op ∈ [2, 3], let x := mark0 op 1
      let s := (ringWith x).setMarker 3 1
      startable s dref x ∧ x.val 16 1 = op ∧ reached (s.marker 3) 1 = true) ∧
    (alignUp (0 + 1) 1 < 2 ^ 32 ∧ reached (0 + 1) (alignUp (0 + 1) 1) = true ∧ alignUp (0 + 1) 2 < 2 ^ 32 ∧
      reached (0 + 1) (alignUp (0 + 1) 2) = false ∧ startable (ringWith (mark0 5 2)) dref (mark0 5 2)) ∧
    (let x := { mark0 2 1 with started := true }
     let w : MarkWait := ⟨⟨0, 0⟩, 3, 0, 1, some 0⟩
     let s := ringWith x
     let s : State := { s with host := { s.host with waits := [w] } }
     s.ticketDesc w.desc = some x ∧ x.slot = dref.slot ∧ x.done = none ∧ s.host.waits = [w] ∧ w.desc = ticketOf dref x ∧
       w.expires = some 0 ∧ 0 ≤ s.now) ∧
    (State.reset.groupBusy 5 = false ∧ State.reset.fld .HUB_CFG_MARKER_OWNER_FUNCTION 5 ≠ 1) := by
  unfold startable; decide

/-! ## Programs -/

/-- An EXEC of slot 0: operation and a few fields. -/
def exec0 (op : Nat) (l : List (Nat × List Byte) := []) : Desc :=
  desc0 ([(0, [1]), (16, leBytes 1 op)] ++ (if op = 1 then [(18, [255]), (22, leBytes 2 65535), (24, leBytes 4 0xFFFFFFFF)] else []) ++ l)

theorem test_execLoad_premise :
    (let x := exec0 0 [(24, leBytes 8 0x100), (32, [64])]
     startable (ringWith x) dref x ∧ x.val 0 1 = 1 ∧ x.val 16 1 = 0 ∧ (ringWith x).mode ≠ .nightMarket ∧
       (ringWith x).program 0 (x.val 17 1) = none ∧ (ringWith x).accessOk 1 0 (x.val 24 8) (x.val 32 8) = true) := by
  unfold startable; decide

theorem test_execLoaded_premise : ∀ op ∈ [0, 1, 2, 3], let x := exec0 op
    let s := ringWith x (loadedAt prog0 0)
    startable s dref x ∧ s.mode ≠ .nightMarket ∧ s.program 0 0 = some prog0 ∧ x.val 16 1 = op ∧
      (op = 1 → s.startRefused prog0 x = none ∧ x.val 18 1 = 255) ∧ prog0.fn = 0 ∧ prog0.slot = x.val 17 1 ∧ prog0.running = none ∧
      ∀ e ∈ s.host.rings, ∀ y ∈ e.2.descs, y.waits = none := by
  unfold startable; decide

theorem test_execStarted_premise : ∀ op ∈ [1, 2, 3], let x := exec0 op
    let s := ringWith x (started prog0 run0 0)
    ∃ p r, startable s dref x ∧ s.program 0 0 = some p ∧ p.running = some r ∧
      s.startRefused p x = some (0x612, 0) := by
  intro op h
  refine ⟨_, _, ?_, rfl, rfl, rfl⟩
  unfold startable
  simp only [List.mem_cons, List.not_mem_nil, or_false] at h
  obtain rfl | rfl | rfl := h <;> decide

/-- An iteration that has ended at beat 8192, with this failure. -/
def endState (f : Option (Nat × Nat × Nat)) (r : Running) : State :=
  started prog0 { r with iters := [{ iter0 with runs := [{ running0 with phase := .committed }], failure := f }] } 8192

theorem test_iterationEnd_premise :
    (∀ f ∈ [none, some (0x711, 7, 3)], let r := { run0 with next := some 16384, cont := true }
      let s := endState f r
      ∃ p it, s.program 0 0 = some p ∧ p.fn = 0 ∧ p.slot = 0 ∧ p.running = some { r with iters := [it] } ∧ it.killed = false ∧
        s.mayEnd p it = true ∧ r.iterMarker = none ∧ it.failure = f ∧ r.next ≠ none ∧ r.cont = true) ∧
    (∀ f ∈ [none, some (0x711, 7, 3)], let r := { run0 with desc := some ⟨0, 0⟩ }
      let s := ringWith (exec0 1) (endState f r)
      ∃ p it x, s.program 0 0 = some p ∧ p.running = some { r with iters := [it] } ∧ it.killed = false ∧ s.mayEnd p it = true ∧
        r.next = none ∧ r.count ≠ 0 ∧ r.kill = [] ∧ r.final = none ∧ r.skipped = false ∧ r.desc = some ⟨0, 0⟩ ∧
        s.ticketDesc ⟨0, 0⟩ = some x ∧ x.done = none ∧ it.failure = f ∧ r.failure = none) := by
  constructor
  · intro f hf
    refine ⟨_, _, rfl, rfl, rfl, rfl, rfl, ?_, rfl, rfl, by decide, rfl⟩
    simp only [List.mem_cons, List.not_mem_nil, or_false] at hf
    obtain rfl | rfl := hf <;> decide
  · intro f hf
    refine ⟨_, _, _, rfl, rfl, rfl, ?_, rfl, by decide, rfl, rfl, rfl, rfl, rfl, rfl, rfl, rfl⟩
    simp only [List.mem_cons, List.not_mem_nil, or_false] at hf
    obtain rfl | rfl := hf <;> decide

/-! ## Redundancy -/

/-- SPLIT (5) or JOIN (6) of slot 0. -/
def pairs0 (ty mask : Nat) : Desc := desc0 [(0, leBytes 1 ty), (17, leBytes 1 mask)]

/-- What the statement about SPLIT and JOIN assumes of both. -/
def pairPremise (s : State) (x : Desc) : Prop :=
  startable s dref x ∧ x.val 16 1 = 0 ∧ x.val 18 1 < 16 ∧ s.gauge.splits.length = 16 ∧ s.gauge.goals.length = 16 ∧
    ∀ p ∈ s.programs, p.changes = [] ∧ p.warm = []

/-- The gauge with goals of slot 0. -/
def goalState (g : Nat) (s : State := loadedAt prog0 0) : State :=
  { s with gauge := { s.gauge with goals := g :: List.replicate 15 0, splits := g :: List.replicate 15 0 } }

theorem test_split_premise :
    (let s := ringWith (pairs0 5 1) (withFlds [(.HUB_CFG_GAUGE_STATUS_STATE, 0, 0, 1)])
     let s : State := { s with mode := .drive }
     pairPremise s (pairs0 5 1) ∧ (pairs0 5 1).val 0 1 = 5 ∧ (pairs0 5 1).val 17 1 ≠ 0 ∧ s.gauge.forced &&& 1 = 0 ∧
       s.gauge.goals.getD 0 0 &&& 1 = 0 ∧ s.inDrive = true ∧ s.gaugeState ≠ 0) ∧
    (let s := ringWith (pairs0 5 1)
     pairPremise s (pairs0 5 1) ∧ s.inDrive = false ∧ s.program 0 0 = none ∧ s.gauge.goals.getD 0 0 &&& 1 = 0) ∧
    (let s := ringWith (pairs0 5 1) (started prog0 run0 0)
     ∃ p r, pairPremise s (pairs0 5 1) ∧ s.program 0 0 = some p ∧ p.slot = 0 ∧ p.fn = 0 ∧ p.running = some r ∧ p.pairMask &&& 1 = 0) ∧
    (let s := ringWith (pairs0 5 1) (started { prog0 with pairMask := 1 } run0 0)
     ∃ p r, pairPremise s (pairs0 5 1) ∧ s.program 0 0 = some p ∧ p.running = some r ∧ p.pairMask &&& 1 ≠ 0) ∧
    (pairPremise (ringWith (pairs0 5 0)) (pairs0 5 0) ∧ pairPremise (ringWith (pairs0 6 0)) (pairs0 6 0)) := by
  unfold pairPremise startable
  refine ⟨by decide, by decide, ⟨_, _, by decide, rfl, rfl, rfl, rfl, by decide⟩, ⟨_, _, by decide, rfl, rfl, by decide⟩, by decide⟩

theorem test_join_premise :
    (let s := ringWith (pairs0 6 1) (goalState 1 { loadedAt prog0 0 with fabric := { (loadedAt prog0 0).fabric with slots := [] } })
     pairPremise s (pairs0 6 1) ∧ (pairs0 6 1).val 0 1 = 6 ∧ s.gauge.forced &&& 1 = 0 ∧ s.gauge.goals.getD 0 0 &&& 1 = 1 ∧
       (∀ j, j < 3 → bit 1 j = true → s.fabric.dieOn.getD (j + 3) false = true) ∧ s.poolsOn 1 = [] ∧ s.program 0 0 = none) := by
  unfold pairPremise startable; decide

theorem test_joinPools_premise :
    (let s := (ringWith (pairs0 6 1) (goalState 1)).setPool 2 (some { pool0 with safety := true })
     pairPremise s (pairs0 6 1) ∧ s.poolsOn 1 ≠ []) := by
  unfold pairPremise startable; decide

theorem test_resync_premise :
    (let x := { pairs0 6 1 with started := true }
     let s := (ringWith x).setPool 2 (some { pool0 with safety := true })
     let s : State := { s with gauge := { s.gauge with resync := [(ticketOf dref x, 1, 0, 0)] } }
     s.ticketDesc (ticketOf dref x) = some x ∧ x.slot = dref.slot ∧ x.done = none ∧ s.gauge.resync = [(ticketOf dref x, 1, 0, 0)] ∧ s.gauge.splits.length = 16 ∧ s.memWf ∧
       s.poolsOn 1 = [{ pool0 with safety := true }] ∧ s.program 0 0 = none ∧
       ∀ p ∈ s.programs, p.changes = [] ∧ p.warm = []) := by
  unfold State.memWf; decide

theorem test_boundary_premise :
    (let c : PairChange := ⟨true, 1, 0, ⟨0, 0⟩⟩
     let p := { prog0 with changes := [c] }
     let s := loadedAt p 8192
     s.program 0 0 = some p ∧ p.slot = 0 ∧ p.fn = 0 ∧ c ∈ p.changes ∧ (∀ e ∈ p.changes, s.atBoundary p e = true → e = c) ∧
       c.split = true ∧ s.gauge.splits.length = 16 ∧ p.running = none) ∧
    (let r := { run0 with next := some 8192 }
     let c : PairChange := ⟨true, 1, 0, ⟨0, 0⟩⟩
     let e : PairChange := ⟨true, 2, 8193, ⟨0, 1⟩⟩
     let p := { prog0 with changes := [e, c], running := some r }
     let s := started p r 8192
     s.program 0 0 = some p ∧ c ∈ p.changes ∧ (∀ e ∈ p.changes, s.atBoundary p e = true → e = c) ∧ r.next = some s.fabric.beat ∧
       c.after ≤ s.fabric.beat) ∧
    (∀ n ∈ [0, 3], let p := { prog0 with warm := [⟨some ⟨0, 0⟩, 1, n⟩] }
     (loadedAt p 0).program 0 0 = some p ∧ p.warm = [⟨some ⟨0, 0⟩, 1, n⟩] ∧ p.running = none) := by decide

/-- A safety-relevant program with an agreement in tile 0 of die 0. -/
def agreeProg : Program :=
  { prog0 with safety := true, pairMask := 1, agrees := [⟨7, 0, 0, 0, 64, 20, 400⟩], commands := [{ cmd0 with safety := true }] }

theorem test_agreement_premise :
    (let s := runState agreeProg running0 20
     ∃ p it k r a, s.cmdRun ref0 = some (p, it, k, r) ∧ p.agrees[0]? = some a ∧ a.cmd = k.id ∧ it.runsPair p a.die = true ∧
       r.uncommitted = true ∧ it.entryBeat ≤ k.start ∧ p.fn = 0 ∧ p.slot = 0 ∧ s.fabric.beat = it.start + a.beat ∧
       ∀ y ∈ r.digests, y.1 ≠ 0) ∧
    (let s := runState agreeProg { running0 with digests := [(0, [1], [1])] } (20 + (⟨7, 0, 0, 0, 64, 20, 400⟩ : Agree).delay + 160)
     ∃ p it k r a, s.cmdRun ref0 = some (p, it, k, r) ∧ p.agrees[0]? = some a ∧ a.cmd = k.id ∧ it.runsPair p a.die = true ∧
       s.fabric.beat = it.start + a.beat + a.delay + 160 ∧ 0 ∉ r.verdicts ∧
       r.digests.find? (·.1 == 0) = some (0, [1], [1])) ∧
    (let s := runState agreeProg { running0 with digests := [(0, [1], [2])] } (20 + (⟨7, 0, 0, 0, 64, 20, 400⟩ : Agree).delay + 160)
     ∃ p it k r a, s.cmdRun ref0 = some (p, it, k, r) ∧ p.agrees[0]? = some a ∧ a.cmd = k.id ∧ it.runsPair p a.die = true ∧
       r.uncommitted = true ∧ s.fabric.beat = it.start + a.beat + a.delay + 160 ∧ 0 ∉ r.verdicts ∧
       r.digests.find? (·.1 == 0) = some (0, [1], [2]) ∧ [(1 : Byte)] ≠ [2]) := by
  refine ⟨⟨_, _, _, _, _, rfl, rfl, ?_⟩, ⟨_, _, _, _, _, rfl, rfl, ?_⟩, ⟨_, _, _, _, _, rfl, rfl, ?_⟩⟩ <;> decide

/-- An iteration of a paired program with one comparison open, begun at 0. -/
def coverState (x : Covering) (live : Bool) (drive : Bool) (now : Nat) : State :=
  let it := { iter0 with runs := [running0], covering := [x], warm := if live then 0 else 1 }
  let s := started { agreeProg with windows := [window0 1 0] } { run0 with iters := [it] } 20
  { s with mode := if drive then .drive else .park, now := now }

/-- The same in a warm-up, the copies' signatures differing. -/
def signState (x : Covering) : State :=
  let it := { iter0 with runs := [{ running0 with sigs := [(0, 1)] }], covering := [x], warm := 1 }
  started agreeProg { run0 with iters := [it] } 20

/-- A comparison of the command's outputs. -/
def gauge0 (agree : Bool) : GaugeCmp := ⟨ref0, 0, agree⟩

theorem test_gauge_premise :
    (∀ live ∈ [true, false], let x : Covering := ⟨7, 0, 0 * 8192 + 1, 0, [3, 3]⟩
      let s := coverState x live true 5
      ∃ p it k r y, s.cmdRun ref0 = some (p, it, k, r) ∧ it.number = 0 ∧ p.fn = 0 ∧ p.slot = 0 ∧ it.covering = [x] ∧ x.kind = 0 ∧
        x.cmd = k.id ∧ p.windows[0]? = some y ∧ 2 ≤ x.values.length ∧ x.first ≤ s.now ∧ x.values[0]? = x.values[1]? ∧
        it.binds p x = live ∧ it.failure = none ∧ s.inDrive = true ∧ s.gaugeState = 0 ∧
        s.fld .HUB_CFG_GAUGE_CNT_MISMATCHES < 65535) ∧
    (let x : Covering := ⟨7, 1, 0, 0, []⟩
     let s := coverState x true true 5
     ∃ p it k r, s.cmdRun ref0 = some (p, it, k, r) ∧ it.number = 0 ∧ p.fn = 0 ∧ p.slot = 0 ∧ it.covering = [x] ∧ x.kind = 1 ∧ x.cmd = k.id ∧
       r.firstDiff p it = none) ∧
    (let x : Covering := ⟨7, 1, 0, 0, []⟩
     let s := signState x
     ∃ p it k r y, s.cmdRun ref0 = some (p, it, k, r) ∧ it.covering.any (fun y => y.kind == 1 && y.cmd == k.id) = true ∧
       r.firstDiff p it = some y ∧ it.compares p y.1 = false) ∧
    (let x : Covering := ⟨7, 0, 0, 0, [3]⟩
     let s := coverState x true false 20000
     ∃ p it k r, s.cmdRun ref0 = some (p, it, k, r) ∧ it.covering = [x] ∧ x.cmd = k.id ∧ x.values.length < 2 ∧ x.first + 20000 ≤ s.now ∧ it.binds p x = true ∧
       it.failure = none) ∧
    (let s := withFlds [(.HUB_CFG_GAUGE_STATUS_STATE, 0, 0, 1)]
     let s : State := { s with mode := .drive, now := 1000000000, safety := { s.safety with authority := 1 } }
     s.inDrive = true ∧ s.gaugeState = 1 ∧ s.gauge.since + 1000000000 ≤ s.now ∧ s.mainStarting = false ∧
       s.restartWindow.length < s.restartLimit ∧ s.safety.restart.requested = false ∧ s.safety.authority = 1) := by
  refine ⟨fun live hl => ⟨_, _, _, _, _, rfl, rfl, rfl, rfl, rfl, rfl, rfl, rfl, ?_, ?_, rfl, ?_, rfl, ?_⟩,
    ⟨_, _, _, _, rfl, by decide, by decide, by decide, rfl, by decide, by decide, by decide⟩,
    ⟨_, _, _, _, (0, 0), rfl, by decide, by decide, by decide⟩, ⟨_, _, _, _, rfl, rfl, ?_⟩, by decide⟩
  all_goals first | decide | (simp only [List.mem_cons, List.not_mem_nil, or_false] at hl; obtain rfl | rfl := hl <;> decide)

/-! ## The islands -/

/-- Island 0 (WHA) as given; WHB alive; both reached by the hub die. -/
def isleState (x : Island) (s : State := State.reset) : State :=
  { s with safety := { s.safety with wha := x, whb := { Island.zero with alive := true }, authority := 1, commander := 1 },
           boot := { s.boot with hub := true }, memSys := { s.memSys with linkUp := List.replicate 14 true } }

/-- A working island at a time. -/
def isle0 (clock : Nat) : Island := { Island.zero with alive := true, clock := clock }

theorem test_islands_premise :
    (isleState (isle0 0)).safety.whb.alive = true ∧
    (let s := isleState { isle0 0 with alive := false, supplyOk := false }
     (s.island 0).supplyOk = false ∧ (s.island 1).alive = true ∧ s.boot.hub = true) ∧
    ((isleState (isle0 0)).commanding = some 0 ∧ ((isleState (isle0 0)).island 1).accelOk = true) ∧
    (let s := isleState (isle0 0)
     (s.island 0).alive = true ∧ s.boot.hub = true ∧ s.islandLink 0 = true ∧ (s.island 0).hubLost = false) ∧
    (let s := isleState { isle0 0 with hubLost := true }
     (s.island 0).hubLost = true ∧ bit (s.setting 23 1 0) 0 = false) ∧
    (let s := isleState { isle0 0 with hubLost := true }
     let s : State := { s with boot := { s.boot with config := List.replicate 279 0 ++ [1] }, timeBase := { s.timeBase with state := 2 } }
     (s.island 0).alive = true ∧ (s.island 0).hubLost = true ∧ bit (s.setting 23 1 0) 0 = true ∧ s.timeBase.state = 2) ∧
    (let s := isleState (isle0 3000000)
     (s.island 0).lastCross + s.crossHbTimeout ≤ (s.island 0).clock ∧ (s.island 0).lastHub + s.crossHbTimeout ≤ (s.island 0).clock ∧
       (s.island 0).peerLost = false) ∧
    (let s := isleState { isle0 3000000 with lastHub := 1 }
     (s.island 0).lastCross + s.crossHbTimeout ≤ (s.island 0).clock ∧
       ¬ (s.island 0).lastHub + s.crossHbTimeout ≤ (s.island 0).clock ∧ (s.island 0).pathLost = false) ∧
    (let s := isleState (isle0 0)
     let s : State := { s with safety := { s.safety with whb := { s.safety.whb with failSignal := true }, commander := 2 } }
     (s.island 0).peerLost = false ∧ (s.island 1).failSignal = true ∧ s.commanding = some 1) := by decide

/-- WHA with this pilot, at a time. -/
def pilotState (p : Pilot) (clock : Nat) : State := isleState { isle0 clock with pilot := p }

theorem test_pilot_premise :
    (let s := pilotState { Pilot.zero with running := true } 0
     (s.island 0).pilot.running = true ∧ (s.island 0).pilot.inputs.length = 3 ∧ (s.island 0).pilot.next ≤ 4) ∧
    (let s := pilotState { Pilot.zero with running := true, next := 1, inputs := [[1], [1], [1]] } 20000000
     let p := (s.island 0).pilot
     p.running = true ∧ (∀ k : Fin 3, p.next ∈ p.inputs.getD k []) ∧ s.vehicleLate (s.island 0) = false ∧ p.missing.length = 3) ∧
    (let s := pilotState { Pilot.zero with running := true, missing := [2, 2, 2] } 20000000
     let p := (s.island 0).pilot
     p.running = true ∧ p.inputs = [[], [], []] ∧ (p.next + 1) * s.pilotPeriod ≤ (s.island 0).clock ∧ p.missing = [2, 2, 2] ∧
       p.inputLost = false) ∧
    (let s := pilotState { Pilot.zero with running := true, work := [⟨0, false, true⟩] } 40000000
     (s.island 0).pilot.work = [⟨0, false, true⟩] ∧ (s.island 0).clock ≤ (0 + 2) * s.pilotPeriod ∧
       (0 + 2) * s.pilotPeriod ≤ (s.island 0).clock) := by decide

/-- A plan record with one pose at rest. -/
def plan0 : PlanRecord := ⟨3, 0, 0, 0, 0, 0, 0, 0, 0, 0, 11, [pose]⟩

theorem test_supervision_premise :
    (let s := isleState (isle0 0) (withFlds [(.PWR_DOMAINS_ON, 0, 0, 2 ^ 30)])
     s.boot.hub = true ∧ s.domainOn 30 = true ∧ (s.island 0).alive = true ∧ s.islandLink 0 = true ∧ s.commanding = some 0) ∧
    (let s := isleState (isle0 (3 * 1000000))
     (s.island 0).hubLost = false ∧ (s.island 0).lastHubHb + s.hubHbTimeout ≤ (s.island 0).clock) ∧
    (let s : State := { isleState (isle0 0) with memSys := { State.reset.memSys with linkUp := List.replicate 14 false } }
     (s.island 0).hubLost = false ∧ s.islandLink 0 = false) ∧
    (let s := isleState { isle0 0 with vehicle := some ⟨0x42C80000, 0, 0, 0, false, 0⟩, relay := [plan0] }
     let s : State := { s with mode := .drive }
     (s.island 0).alive = true ∧ (s.island 0).relay = [plan0] ∧ s.boot.hub = true ∧ s.islandLink 0 = true ∧
       s.inDrive = true ∧ s.safety.restart.state ≠ 1 ∧ plan0.outcome ≠ 3 ∧
       s.dynamicsPass (s.island 0).vehicle plan0.poses = false ∧ s.safety.disagreed ≠ some 11) ∧
    (let s := isleState (isle0 0) { planState 1 with now := 41000000 }
     s.planning = true ∧ s.safety.restart.state ≠ 1 ∧
       (((s.now : Int) - 1000000 - (s.fld .PLAN_CYCLE_PHASE_PHASE : Nat)) / (s.planPeriod : Int) - 1).toNat = 0 ∧
       s.safety.planFrom ≤ 0 ∧ (s.island 0).lastRecord = none ∧ s.safety.missed = none ∧ s.cycleStart 1 + 1000000 ≤ s.now) := by
  decide

/-! ## Messages -/

theorem test_queued_premise :
    (let s := isleState (isle0 0)
     let s : State := { s with mode := .drive, safety := { s.safety with lastPlan := some plan0 } }
     s.safety.lastPlan = some plan0 ∧ s.boot.hub = true ∧ s.inDrive = true ∧ s.safety.trajSent ≠ some 11 ∧
       s.safety.canTx.length = 8 ∧ s.mode ≠ .park ∧ (s.island 0).alive = true ∧ ∀ k ∈ [0, 1, 2], s.statusDue k = true) ∧
    (let s := isleState { isle0 0 with statusAt := some 0 }
     let s : State := { s with safety := { s.safety with statusAt := some 0 } }
     s.statusDue 0 = false ∧ s.statusDue 1 = false) := by decide

/-- An intact message on bus 0 of island 0. -/
def can0 (crc : Bool) : CanRx := ⟨0, 0, crc, true, 1⟩

theorem test_taken_premise :
    (let s := isleState (isle0 0)
     (s.island 0).alive = true ∧ s.safety.canOff.getD 4 false = false ∧ (can0 true).crcOk = true ∧ (can0 true).lengthOk = true ∧
       (s.island 0).rxTaken.getD 0 [] = [] ∧ (s.island 0).rxTaken.getD 1 [] = [] ∧ s.mode ≠ .nightMarket ∧ s.transition = .none ∧
       (can0 false).crcOk = false ∧ (s.island 0).lastRxBad = none ∧ s.heeds (can0 true) false = true) ∧
    (let s := isleState { isle0 0 with pilot := { Pilot.zero with published := 3 } }
     let s := fun c => { s with safety := { s.safety with inCommand := c } }
     (s true).safety.inCommand = true ∧ (s false).safety.inCommand = false ∧ (s false).pilotReady = true ∧
       (s false).peerIdle true = true ∧ (s false).peerIdle false = false) ∧
    (State.reset.safety.canOff.length = 8 ∧ State.reset.safety.canOff.getD 3 false = false) := by decide

/-! ## Restarts and records -/

/-- The restart as given. -/
def restartState (g : Restart → Restart) (s : State := State.reset) : State :=
  { s with safety := { s.safety with restart := g s.safety.restart } }

theorem test_restart_premise :
    (let s : State := { restartState fun r => { r with requested := true } with mode := .drive }
     s.safety.restart.requested = true ∧ s.inDrive = true ∧ s.mainStarting = false) ∧
    (let s := restartState (fun r => { r with state := 1, reloaded := true, planned := true })
        (withFlds [(.HUB_CFG_GAUGE_STATUS_STATE, 0, 0, 3)])
     s.safety.restart.state = 1 ∧ s.safety.restart.reloaded = true ∧ s.safety.restart.planned = true ∧ s.safetyAgreed = true ∧
       s.gaugeState = 3) ∧
    (let s : State := { restartState fun r => { r with state := 1 } with now := 1500000000 }
     s.safety.restart.state = 1 ∧ s.safety.restart.startedAt + 1500000000 ≤ s.now) := by decide

/-- A record of a severity. -/
def rec0 (sev : Nat) : ErrRec := ⟨0x100, sev, false, false, 0, 0, 0, 0, 0, 0, 0, 0, none, false⟩

/-- The queue of records as given. -/
def queueState (g : ErrQueue → ErrQueue) (s : State := State.reset) : State :=
  { s with safety := { s.safety with errq := g s.safety.errq, commander := 1, authority := 1 } }

theorem test_records_premise :
    (let s := queueState fun q => { q with inFlight := [rec0 2] }
     s.safety.errq.inFlight = [rec0 2] ∧ s.inDrive = false ∧ s.safety.errq.queue = [] ∧ s.safety.errq.handling = [] ∧
       (rec0 2).counts = false) ∧
    (let u : ErrRec := { rec0 2 with unsequenced := true }
     let q := (queueState fun q => { q with inFlight := [rec0 1, u] }).safety.errq
     (q.inFlight.find? (·.unsequenced)).or q.inFlight.head? = some u) ∧
    (let s : State := { queueState fun q => { q with inFlight := [rec0 3] } with mode := .drive }
     (s.safety.errq.inFlight.find? (·.unsequenced)).or s.safety.errq.inFlight.head? = some (rec0 3) ∧ s.inDrive = true ∧
       (rec0 3).injected = false ∧ s.safety.errq.lastCounting = none ∧ s.safety.errq.queue = [] ∧ s.safety.errq.handling = [] ∧
       s.safety.authority = 1) ∧
    (let s := queueState fun q => { q with inFlight := [{ rec0 0 with injected := true }], queue := List.replicate 48 (rec0 1) }
     s.safety.errq.depth < 64 ∧ 48 ≤ s.safety.errq.depth) ∧
    (let s := queueState fun q => { q with inFlight := [rec0 2], handling := [rec0 1] }
     s.safety.errq.handling = [rec0 1] ∧ (rec0 1).sev < (rec0 2).sev ∧ s.safety.errq.preemptions < 65535) ∧
    (let s := queueState fun q => { q with inFlight := [rec0 2], handling := [rec0 2] }
     s.safety.errq.handling = [rec0 2] ∧ (rec0 2).sev ≤ (rec0 2).sev) ∧
    (let s := queueState fun q => { q with inFlight := [rec0 1], queue := List.replicate 48 (rec0 1) }
     (rec0 1).sev ≤ 1 ∧ (rec0 1).injected = false ∧ 48 ≤ s.safety.errq.depth ∧ s.safety.errq.notesBypassed < 65535) ∧
    (let s := queueState fun q => { q with inFlight := [rec0 2], queue := List.replicate 64 (rec0 1) }
     2 ≤ (rec0 2).sev ∧ (rec0 2).injected = false ∧ 64 ≤ s.safety.errq.depth) ∧
    (let s := linked (queueState (fun q => { q with handling := [rec0 2] }) (withFlds [(.HUB_CFG_ERRLOG_CFG_ENABLE, 0, 0, 1)]))
     s.safety.errq.handling = [rec0 2] ∧ s.safety.commander ≠ 0 ∧ s.safety.errq.queue = [] ∧ s.inDrive = false ∧
       s.fld .HUB_CFG_ERRLOG_CFG_ENABLE = 1 ∧ s.host.linkUp = true ∧ s.fld .HUB_CFG_ERRLOG_COUNT_COUNT < 2 ^ 31) ∧
    (let s : State := { queueState fun q => { q with handling := [rec0 3] } with mode := .drive }
     s.inDrive = true ∧ (rec0 3).injected = false ∧ (rec0 3).sev = 3 ∧ s.safety.authority = 1) ∧
    State.reset.fld .HUB_CFG_ERRLOG_CFG_ENABLE = 0 := by decide

/-! ## Swatches -/

/-- Slices in work. -/
def slicesState (l : List SliceRun) (g : Swatch → Swatch := id) : State :=
  { State.reset with swatch := g { State.reset.swatch with running := l } }

/-- A slice on a thermal sensor, and one on a tile. -/
def slice0 : SliceRef := ⟨.thermal, 320, 0⟩

theorem test_slices_premise :
    (∀ x ∈ [(slice0, true), ((⟨.tileFull, 0, 0⟩ : SliceRef), true), (⟨.tileLogic, 0, 0⟩, false), (⟨.tileLogic, 0, 24⟩, false)],
      let r := x.1
      let s := withFlds [(.HUB_CFG_SWATCH_CFG_ENABLE, 0, 0, 1)] (loadedAt prog0 0)
      let s : State := { s with boot := { s.boot with hub := true }, fabric := { s.fabric with slots := [] } }
      let s : State := { s with swatch := { s.swatch with fullPass := x.2, passed := (List.range 24).map fun i => ⟨.tileLogic, 0, i⟩ } }
      s.boot.hub = true ∧ s.swatch.injecting = none ∧ s.swatch.fullPass = x.2 ∧ s.fld .HUB_CFG_SWATCH_CFG_ENABLE = 1 ∧
        s.swatch.running = [] ∧ sliceNamed r = true ∧ s.sliceFits r 1000000 = true ∧
        s.sliceBudget r ≤ 500 ∧ s.gapFree r 1000000 = true ∧ s.sliceAllowed r 1000000 = true ∧ s.sliceOrder r 1000000 = true ∧
        s.sliceTurn r = true) ∧
    (let x : SliceRun := ⟨⟨.tileMem, 0, 0⟩, 0, 100, 50, false⟩
     let s : State := { slicesState [x] with now := 99 }
     s.swatch.running = [x] ∧ s.sliceTime x.ref < x.due ∧ s.sliceNow x.ref < x.guard ∧ ¬ (slicesState [{ x with due := 0 }]).sliceTime x.ref < 0) ∧
    (let x : SliceRun := ⟨slice0, 0, 100, 100, true⟩
     let s : State := { slicesState [x] with now := 100 }
     s.swatch.running = [x] ∧ x.ref = slice0 ∧ x.returned = true ∧ x.due ≤ s.sliceTime slice0 ∧
       s.fld .HUB_CFG_SWATCH_CNT_COUNT 0 < 65535 ∧ slice0 ∉ s.swatch.differed ∧ slice0 ∉ s.swatch.passed ∧
       coveredBy (s.swatch.passed ++ [slice0]) slice0.target = true) ∧
    (let s := slicesState [] fun q => { q with differed := [slice0], aborted := [slice0] }
     slice0 ∈ s.swatch.differed ∧ slice0 ∈ s.swatch.aborted ∧ s.fld .HUB_CFG_SWATCH_CNT_COUNT 1 < 65535) ∧
    (let x : SliceRun := ⟨slice0, 0, 100, 50, false⟩
     let s : State := { slicesState [x] with now := 99 }
     s.swatch.running = [x] ∧ x.returned = false ∧ s.sliceTime slice0 < x.due ∧ x.guard ≤ s.sliceNow slice0) ∧
    (let x : SliceRun := ⟨slice0, 0, 100, 50, false⟩
     let s : State := { slicesState [x] with now := 100 }
     x.due ≤ s.sliceTime slice0 ∧ slice0 ∉ s.swatch.aborted) := by decide

theorem test_coverage_premise :
    (let s : State := { loadedAt prog0 0 with mode := .drive, now := 30000000000 }
     s.inDrive = true ∧ s.targetUp 0 = true ∧ 0 ∉ s.swatch.late ∧ s.lastCover 0 + 30000000000 ≤ s.now ∧
       s.fld .HUB_CFG_SWATCH_CNT_COUNT 3 < 65535) ∧
    (let s := slicesState [] fun q => { q with fullPass := true, toCover := [0] }
     let s : State := { s with transition := .dayOpen 2 false true }
     s.swatch.fullPass = true ∧ s.swatch.running = [] ∧ (∀ n ∈ s.swatch.toCover, s.targetUp n = false) ∧
       s.transition = .dayOpen 2 false true) ∧
    State.reset.passComplete = false ∧
    (let s : State := { slicesState [] fun q => { q with injecting := some 0 } with now := 1000000 }
     s.swatch.injecting.isSome ∧ s.injectLate 1 0 = true ∧ s.injectLate 14 0 = true ∧ s.fld .HUB_CFG_INJECT_STATUS_FAILED < 255) ∧
    (isleState (isle0 1000000)).injectLate 15 0 = true := by decide

/-! ## Power, heat, wakes, wear -/

/-- The hub die in service, every compute die and both islands on. -/
def hubOn (s : State := loadedAt prog0 0) : State := powered (isleState (isle0 0) s)

/-- `hubOn` with this in its power. -/
def powerState (g : Power → Power) : State := { hubOn with power := g hubOn.power }

theorem test_power_premise :
    (hubOn.boot.hub = true ∧ hubOn.domainOn 37 = true ∧ (withFlds [(.PWR_DOMAINS_ON, 0, 0, 0)] hubOn).boot.hub = true ∧
      (withFlds [(.PWR_DOMAINS_ON, 0, 0, 0)] hubOn).domainOn 37 = false ∧ hubOn.answers 3 = true ∧ hubOn.answers 6 = true ∧ hubOn.power.replies.length = 8 ∧
      5 % 256 ≠ hubOn.power.seq ∧ 256 % 256 = hubOn.power.seq ∧ 1 < hubOn.stepFloor ∧
      hubOn.stepFloor ≤ hubOn.stepGoal) ∧
    (∀ flags ∈ [0, 4], let m : DieBudget := ⟨100, 4, 1, flags, 0⟩
      let s := powerState fun p => { p with messages := List.replicate 8 m }
      s.power.messages[3]? = some m ∧ s.answers 3 = true ∧ s.power.taken.length = 8 ∧ s.power.volts.length = 6 ∧
        bit m.flags 1 = false ∧ (bit m.flags 2 = true ↔ flags = 4) ∧ s.fabric.dieOn.length = 6) ∧
    (let s : State := { hubOn with boot := { hubOn.boot with config := List.replicate 51 0 ++ [0x80] } }
     (s.regulatorRail 0).isSome = true ∧ s.power.answeredAt.length = 8) ∧
    (∀ x ∈ [Shed.cluster 5, .step 4 5, .stall 3 5, .program 0 0 5],
      let s : State := { powerState fun p => { p with sheds := [x], coveredSince := some 0 } with now := 1000000000 }
      s.power.sheds = [x] ∧ s.undoDue = true ∧ s.undoWaits x = false ∧ s.stepGoal = s.stepFloor) ∧
    (powerState fun p => { p with ramp := some 3 }).power.ramp = some 3 := by decide

theorem test_shedProgram_premise : hubOn.program 0 0 = some prog0 := by decide

/-- `hubOn` with this in its thermal part, at a time. -/
def heatState (g : Thermal → Thermal) (now : Nat := 0) : State := { hubOn with thermal := g hubOn.thermal, now := now }

theorem test_heat_premise :
    (hubOn.thermal.excluded = [] ∧ 1920 ≤ ([1920] : List Int).getD (2 * 0) 0 ∧ hubOn.thermal.trip = false) ∧
    (let s := heatState (fun h => { h with trip := true, coolSince := some 0 }) 10000000000
     s.thermal.trip = true ∧ s.thermal.coolSince = some 0 ∧ 0 + 10000000000 ≤ s.now) ∧
    (let x : DiodePair := ⟨some 0, none, none, false⟩
     let s := heatState (fun h => { h with pairs := x :: List.replicate 59 ⟨none, none, none, false⟩ }) 10000001
     s.thermal.pairs.length = 60 ∧ s.thermal.pair 0 = x ∧ x.suspect = none ∧ x.apart = some 0 ∧ 0 + 10000001 ≤ s.now) ∧
    (let x : DiodePair := ⟨none, some 0, some 0, false⟩
     let s := heatState (fun h => { h with pairs := x :: List.replicate 59 ⟨none, none, none, false⟩ }) 1000000001
     s.thermal.pairs.length = 60 ∧ s.thermal.pair 0 = x ∧ x.suspect.isSome = true ∧ x.held = false ∧ x.together = some 0 ∧
       0 + 100000000 ≤ s.now ∧ 0 + 1000000001 ≤ s.now) := by decide

theorem test_covers_premise :
    (heatState (fun h => { h with trip := true, coolSince := some 0 }) 10000000000).covers400 = true := by decide

theorem test_coolant_premise :
    (hubOn.boot.hub = true ∧ hubOn.thermal.sent.length = 3 ∧
      (withFlds [(.PWR_SENT_CFG_GAIN, 2, 0, 0), (.PWR_SENT_CFG_OFFSET, 2, 0, 0)] hubOn).sentScaled 2 1000 1 = some 0) ∧
    (let s := heatState id 10000000
     (s.thermal.input 1).lost = false ∧ (s.thermal.input 1).last + 10000000 ≤ s.now) ∧
    (let s := heatState (fun h => { h with stop := true }) 2000000000
     s.thermal.stop = true ∧ s.thermal.returned = false ∧ s.thermal.shutdown = false ∧ s.thermal.noFlow + 2000000000 ≤ s.now ∧
       s.fabric.dieOn.length = 6 ∧ s.degrade.req.length = 11) ∧
    (let s := heatState (fun h => { h with stop := true, flowSince := some 0 }) 10000000000
     s.thermal.flowSince = some 0 ∧ 0 + 10000000000 ≤ s.now) ∧
    (let s := heatState (fun h => { h with degraded := true, projSince := some 0 }) 10000000000
     s.thermal.degraded = true ∧ s.thermal.projSince = some 0 ∧ 0 + 10000000000 ≤ s.now ∧ s.power.sheds = []) ∧
    hubOn.thermal.degraded = false := by decide

/-- In Park with PARK_ACK asserted. -/
def parkState (l : List (Fld × Nat × Nat × Nat) := []) (now : Nat := 0) : State :=
  { withFlds l with wake := { Wake.zero with ack := true }, now := now }

theorem test_wakes_premise :
    (∀ rising ∈ [true, false], let s := parkState [(.PWR_WAKE_CFG_ENABLE, 0, 0, 4), (.PWR_WAKE_CFG_POLARITY, 0, 0, if rising then 0 else 4)]
      bit (s.fld .PWR_WAKE_CFG_ENABLE) 2 = true ∧ bit (s.fld .PWR_WAKE_CFG_POLARITY) 2 = !rising ∧ s.mode = .park ∧
        s.wake.ack = true ∧ s.transition = .none ∧ s.wake.wakeN = none) ∧
    (let s : State := { State.reset with mode := .nightMarket }; s.mode = .nightMarket ∧ s.transition = .none) ∧
    (let s := parkState [(.PWR_WAKE_CFG_ALARM, 0, 0, 4)] 1024
     0 < s.fld .PWR_WAKE_CFG_ALARM * 256 ∧ s.fld .PWR_WAKE_CFG_ALARM * 256 ≤ s.now ∧ s.since ≤ s.fld .PWR_WAKE_CFG_ALARM * 256) ∧
    (let s : State := { State.reset with wake := { Wake.zero with wakeN := some 0 } }; s.wake.wakeN = some 0 ∧ 0 ≤ s.now) := by decide

theorem test_wear_premise :
    (hubOn.boot.hub = true ∧ hubOn.timeBase.state ≠ 2 ∧ ∀ m ∈ [WearReading.ring 0 0], (lifeOf m).2 ≤ hubOn.wear.consumed) ∧
    (let s := withFlds [(.SEC_BOOT_STATUS_IDENTITY_OK, 0, 0, 1)]
     let s : State := { s with mode := .drive, boot := { s.boot with seed := some [1] } }
     s.mode = .drive ∧ s.boot.seed = some [1] ∧ s.fld .SEC_BOOT_STATUS_IDENTITY_OK = 1) := by decide

/-! ## Resets, boot and secrets -/

/-- The boot as given. -/
def bootState (g : Boot → Boot) (s : State := State.reset) : State := { s with boot := g s.boot }

theorem test_resets_premise :
    ((State.reset.island 0).supplyOk = true ∧ State.reset.boot.released.length = 3 ∧ (State.reset.island 1).supplyOk = true ∧
      hubOn.boot.hub = true ∧ { hubOn with mode := .drive }.inDrive = true ∧ State.reset.wake.ack = false ∧
      State.reset.boot.rails.length = 4 ∧
      (let s := { hubOn with memSys := { hubOn.memSys with linkUp := List.replicate 14 true } }
       (s.island 1).supplyOk = true ∧ s.boot.hub = true ∧ s.islandLink 1 = true ∧ s.domainOn 37 = true ∧ s.boot.released.length = 3)) ∧
    (let s : State := { bootState fun b => { b with stage := 2 } with now := 1000000000 }
     s.boot.stage = 2 ∧ s.since + 1000000000 ≤ s.now) ∧
    (let s := bootState fun b => { b with stage := 3, evfin := some 0 }
     s.boot.stage = 3 ∧ s.boot.evfin = some 0 ∧ 0 + s.debugWindow ≤ s.now ∧ s.transition = .none ∧
       { s with transition := .boot false }.transition = .boot false) ∧
    (let s := bootState (fun b => { b with stage := 4, config := [0] }) (withFlds [(.HUB_CFG_INJECT_STATUS_DONE, 0, 0, 1)])
     let s : State := { s with transition := .boot true }
     s.transition = .boot true ∧ s.boot.stage = 4 ∧ s.swatch.fullPass = false ∧ s.fld .HUB_CFG_INJECT_STATUS_DONE = 1 ∧
       s.boot.config ≠ [] ∧ s.pilotsReady = true ∧ s.deferred = []) := by decide

theorem test_flash_premise :
    (let s := linked (bootState fun b => { b with stage := 1 }); s.boot.stage = 1 ∧ s.host.linkUp = true) ∧
    (let s := bootState (fun b => { b with hub := true }) parkedDrive; s.writeOpen false = true ∧ s.writeOpen true = true) ∧
    (State.reset.writeOpen false = false ∧ State.reset.writeOpen true = false) ∧
    (let s := bootState fun b => { b with writing := some (0x80000, [1]) }
     s.boot.writing = some (0x80000, [1]) ∧ [(1 : Byte)].length ≤ partitionSize 0x80000) := by decide

/-- A hub die that may be asked for a quote, with an identity or without, and space with it. -/
def quoteState (id : Nat) : State :=
  bootState (fun b => { b with hub := true, seed := some [1] })
    (withFlds [(.SEC_BOOT_STATUS_IDENTITY_OK, 0, 0, id), (.SEC_QUOTE_CTRL_SPACE, 0, 0, id * 2)])

theorem test_secrets_premise :
    (∀ id ∈ [0, 1], let s := quoteState id
      s.boot.hub = true ∧ s.boot.quoting = none ∧ s.fld .SEC_BOOT_STATUS_IDENTITY_OK = id ∧ s.boot.seed.isSome = true ∧
        (id = 0 → s.fld .SEC_QUOTE_CTRL_SPACE * 1024 < s.quoteEnd) ∧ (id = 1 → s.quoteEnd ≤ s.fld .SEC_QUOTE_CTRL_SPACE * 1024)) ∧
    (∀ f ∈ [(false, false), (true, false), (true, true)],
     let x : Quote := { State.reset.quoteAsked with devrec := f.1, withLog := f.2 }
     let s := bootState fun b => { b with quoting := some x, seed := some [1] }
     s.boot.quoting = some x ∧ s.boot.seed = some [1] ∧ x.devrec = f.1 ∧ x.withLog = f.2) ∧
    (let s := withFlds [(.SEC_DEBUG_CTRL_WINDOW, 0, 0, 1)]; s.fld .SEC_DEBUG_CTRL_WINDOW = 1 ∧ s.transition ≠ .clearing) ∧
    (let s : State := { State.reset with transition := .clearing, stalls := [(3, { Stall.zero with key := some 5 })] }
     s.transition = .clearing ∧ s.deferred = [] ∧ (s.stallOf 3).key = some 5) ∧
    (let s := bootState (fun b => { b with scope := 7 }) (withFlds [(.SEC_SCAN_STATUS_CLEARED, 0, 0, 1)])
     s.fld .SEC_SCAN_STATUS_CLEARED = 1 ∧ bit s.boot.scope 0 = true ∧ bit s.boot.scope 1 = true ∧ bit s.boot.scope 2 = true) ∧
    State.reset.fld .SEC_SCAN_STATUS_CLEARED = 0 := by decide

/-! ## Stalls -/

/-- In Night Market, stall 3 with a region of 64 MiB, a quarter, power and a RATE. -/
def nightState (watts : Nat) (l : List (Fld × Nat × Nat × Nat) := []) (s : State := State.reset) : State :=
  { withFlds ([(.HUB_CFG_STALL_CFG_QUARTERS, 3, 0, 1), (.HUB_CFG_STALL_REGION_SIZE, 3, 0, 1),
      (.HUB_CFG_STALL_REGION_POWER_W, 3, 0, watts), (.MEM_STALL_RATE_RATE, 3, 0, 100)] ++ l) s with mode := .nightMarket }

theorem test_stallOpen_premise :
    State.reset.mode ≠ .nightMarket ∧ (nightState 0).stallBad 3 = false ∧
    200 < (nightState 201).fld .HUB_CFG_STALL_REGION_POWER_W 3 + (nightState 201).declaredPower ∧
    (nightState 200).fld .HUB_CFG_STALL_REGION_POWER_W 3 + (nightState 200).declaredPower ≤ 200 ∧
    (nightState 200).fld .SEC_BOOT_STATUS_IDENTITY_OK = 0 ∧
    (let s := nightState 200 [(.SEC_BOOT_STATUS_IDENTITY_OK, 0, 0, 1)]
     s.stallBad 3 = false ∧ s.fld .PWR_WEAR_STATUS_WEAR_AHEAD = 0 ∧ s.fld .SEC_BOOT_STATUS_IDENTITY_OK = 1) ∧
    (State.reset.setStall 3 .opening).stall 3 = .opening := by decide

theorem test_stallAdmitted_premise : (nightState 200 [(.SEC_BOOT_STATUS_IDENTITY_OK, 0, 0, 1)]).admits = true := by decide

theorem test_stallOvercommit_premise :
    (let s := nightState 200 [(.SEC_BOOT_STATUS_IDENTITY_OK, 0, 0, 1), (.MEM_PART_CFG_ENABLE, 4, 0, 1), (.MEM_PART_RATE_MIN_RATE, 4, 0, 2 ^ 24 - 1)]
     s.stallBad 3 = false ∧ s.admits = false) := by decide

/-- Stall 3 in a phase. -/
def stallState (x : Stall) (s : State := State.reset) : State := { s with stalls := [(3, x)] }

theorem test_stallClose_premise :
    (stallState { Stall.zero with phase := .open_ }).stall 3 = .open_ ∧
    (let s := stallState { Stall.zero with phase := .draining, drainBy := some 0 }
     s.stall 3 = .draining ∧ s.drained 3 = true ∧ (s.stallOf 3).drainBy = some 0 ∧ 0 ≤ s.now) ∧
    (∀ l ∈ [[], [iter0]], let p := { prog0 with fn := 3, running := some { run0 with iters := l } }
     let s := stallState { Stall.zero with phase := .draining, drainBy := some 0 } (loadedAt p 0)
     s.stall 3 = .draining ∧ s.program 3 0 = some p ∧ (l = [] ∨ killable p s.fabric.beat ≠ [])) ∧
    (stallState { Stall.zero with phase := .draining } (started { prog0 with fn := 3 } run0 0)).drained 3 = false ∧
    (let s := stallState { Stall.zero with phase := .closing }; s.stall 3 = .closing ∧ s.host.waits = []) := by decide

/-- CHECKPOINT of stall 3, with flags, a place and its length. -/
def ckpt0 (flags bytes : Nat) : Desc :=
  desc0 [(0, [8]), (16, leBytes 1 flags), (17, [3]), (24, leBytes 8 0x1000), (32, leBytes 8 bytes)]

theorem test_checkpoint_premise :
    (∀ f ∈ [0, 1], startable (ringWith (ckpt0 f 0)) dref (ckpt0 f 0) ∧ (ckpt0 f 0).val 0 1 = 8 ∧ (ckpt0 f 0).val 17 1 = 3 ∧
      ((ringWith (ckpt0 f 0)).stallOf 3).ckpt = none ∧ (ringWith (ckpt0 f 0)).stall 3 ≠ .open_ ∧
      startable (stallState { Stall.zero with phase := .open_ } (ringWith (ckpt0 f 0))) dref (ckpt0 f 0)) := by
  unfold startable; decide

theorem test_checkpointBoundary_premise :
    (∀ b ∈ [0, 1, 4096], ∀ at_ ∈ [none, some (5, 6)], let x := { ckpt0 1 b with started := true }
      let c : Ckpt := ⟨ticketOf dref x, true, at_⟩
      let s := powered (stallState { Stall.zero with phase := .open_, ckpt := some c } (ringWith x))
      (s.stallOf 3).ckpt = some c ∧ s.ticketDesc c.desc = some x ∧ x.done = none ∧ s.drained 3 = true ∧
        s.betweenIterations 3 = true ∧ x.val 32 8 = b ∧ (s.ckptBytes 3 ≤ b ↔ b = 4096) ∧ (s.ckptTokens 3).isSome ∧
        (withFlds [(.PWR_DOMAINS_ON, 0, 0, 0)] s).ckptTokens 3 = none) := by decide

/-! ## Ethernet -/

/-- MAC 1 with what it needs to come up, and on or off. -/
def macOn (en : Nat) (l : List (Fld × Nat × Nat × Nat) := []) : State :=
  withFlds ([(.PWR_DOMAINS_ON, 0, 0, 2 ^ 33), (.NET_MAC_CFG_ENABLE, 1, 0, en), (.NET_MAC_CFG_MAX_FRAME, 1, 0, 1518),
    (.NET_MAC_CFG_SPEED, 1, 0, 2), (.NET_MAC_ADDR_ADDR, 1, 0, 5)] ++ l)

theorem test_macs_premise :
    ((macOn 0).fld .NET_MAC_CFG_ENABLE 1 = 0 ∧ 1518 ≤ (macOn 0).fld .NET_MAC_CFG_MAX_FRAME 1 ∧
      (macOn 0).fld .NET_MAC_CFG_MAX_FRAME 1 ≤ 9216 ∧ (macOn 0).fld .NET_MAC_ADDR_ADDR 1 ≠ 0 ∧
      bit ((macOn 0).fld .NET_MAC_ADDR_ADDR 1) 40 = false ∧ (macOn 0).fld .NET_MAC_CFG_SPEED 1 = 2) ∧
    State.reset.fld .NET_MAC_ADDR_ADDR 1 = 0 ∧
    (macState.fld .SENS_STREAM_CTX_ENABLE 6 = 1 ∧ macState.fld .SENS_STREAM_CTX_KIND 6 = 1 ∧
      macState.fld .SENS_STREAM_CTX_PORT 6 = 1) ∧
    (gptpState.fld .TIME_CFG_GPTP_EN = 1 ∧ bit (gptpState.fld .TIME_CFG_PORT_MASK) 1 = true) ∧
    ((∀ c : Fin 128, (macOn 1).fld .SENS_STREAM_CTX_ENABLE c ≠ 1) ∧ (macOn 1).fld .TIME_CFG_GPTP_EN = 0) := by
  refine ⟨by decide, by decide, by decide, by decide, ?_, by decide⟩
  intro c; revert c; decide

/-- MAC 1's gate list with this in it. -/
def gateState (g : MacTx → MacTx) (s : State := State.reset) : State :=
  { s with macTx := MacTx.zero :: g MacTx.zero :: List.replicate 4 MacTx.zero }

/-- An administrative list of two entries of MAC 1. -/
def adminFlds : List (Fld × Nat × Nat × Nat) :=
  [(.NET_QBV_CTRL_ADMIN_LEN, 1, 0, 2), (.NET_QBV_CYCLE_ADMIN_CYCLE, 1, 0, 1000), (.NET_QBV_GCL_INTERVAL, 1, 0, 32),
    (.NET_QBV_GCL_INTERVAL, 1, 1, 32)]

theorem test_gates_premise :
    (State.reset.macTx.length = 6 ∧ (withFlds [(.NET_QBV_CTRL_PENDING, 1, 0, 1)]).fld .NET_QBV_CTRL_PENDING 1 = 1 ∧
      State.reset.fld .NET_QBV_CTRL_PENDING 1 = 0 ∧ 256 < (withFlds [(.NET_QBV_CTRL_ADMIN_LEN, 1, 0, 257)]).fld .NET_QBV_CTRL_ADMIN_LEN 1) ∧
    (let s := withFlds adminFlds
     s.fld .NET_QBV_CTRL_PENDING 1 = 0 ∧ s.fld .NET_QBV_CTRL_ADMIN_LEN 1 = 2 ∧ s.fld .NET_QBV_CYCLE_ADMIN_CYCLE 1 = 1000 ∧
       ∀ e, e < 2 → 32 ≤ s.fld .NET_QBV_GCL_INTERVAL 1 e) ∧
    (let s : State := { gateState fun m => { m with change := some 1000 } with now := 1000 }
     (s.mac 1).change = some 1000 ∧ 1000 ≤ s.now ∧ { s with now := 999 }.now < 1000) ∧
    (let s := gateState fun m => { m with oper := [(255, 32), (1, 32)], cycle := 1000, cycleEnd := 1000 }
     (s.mac 1).oper ≠ [] ∧ (s.mac 1).entryEnd ≤ s.now ∧ (s.mac 1).entry + 1 < (s.mac 1).oper.length ∧
       (s.mac 1).entryEnd < (s.mac 1).cycleEnd) ∧
    (let s := gateState fun m => { m with oper := [(255, 32), (1, 32)], cycle := 1000, cycleEnd := 1000, entry := 1 }
     (s.mac 1).oper ≠ [] ∧ (s.mac 1).entryEnd ≤ s.now ∧ (s.mac 1).oper.length ≤ (s.mac 1).entry + 1) := by decide

theorem test_frames_premise :
    (let s := macOn 1
     s.fld .NET_MAC_CFG_ENABLE 1 = 1 ∧ s.domainOn 33 = true ∧ 64 ≤ s.fld .NET_MAC_CFG_MAX_FRAME 1 ∧ 0 ≤ s.now ∧
       (s.mac 1).hopeless 0 0 s.now ((64 + 20) * 8) = false ∧ (s.mac 1).busy ≤ s.now ∧
       (s.mac 1).fits 0 s.now ((64 + 20) * 8) = true ∧ s.fld .NET_QAV_EN 1 0 = 0 ∧ s.fld .NET_MAC_CNT_COUNT 1 3 < 2 ^ 48 - 1) ∧
    (let s := gateState (fun m => { m with oper := [(1, 32), (0, 968)], cycle := 1000, running := true }) (macOn 1)
     let s : State := { s with now := 1000 }
     (s.mac 1).hopeless 0 0 s.now ((64 + 20) * 8) = true ∧ s.fld .NET_MAC_CNT_COUNT 1 4 < 2 ^ 48 - 1) ∧
    (gateState (fun m => { m with busy := 1 }) (macOn 1)).now < ((gateState (fun m => { m with busy := 1 }) (macOn 1)).mac 1).busy ∧
    (let s := macOn 1 [(.NET_QAV_IDLE_SLOPE, 1, 3, 7500001)]
     rateOf (s.fld .NET_MAC_CFG_SPEED 1) * 3 < 4 * (s.slopesBut 1 3 + s.fld .NET_QAV_IDLE_SLOPE 1 3)) ∧
    (let s := macOn 1 [(.NET_QAV_IDLE_SLOPE, 1, 3, 7500000)]
     4 * (s.slopesBut 1 3 + s.fld .NET_QAV_IDLE_SLOPE 1 3) ≤ rateOf (s.fld .NET_MAC_CFG_SPEED 1) * 3) := by decide

theorem test_arriveRange_premise :
    (∀ v ∈ [0xFFFFFFFE, 0xFFFFFFFF], let x := mark0 5 2
     let s := (ringWith x).setMarker 3 v
     startable s dref x ∧ x.val 0 1 = 4 ∧ x.val 16 1 = 5 ∧
       0xFFFFFFFF < alignUp (s.marker (x.val 18 2) + 1) (x.val 20 4)) := by
  unfold startable; decide

end Sys2Proof.Tests
end

section
/-!
SUPPORT. Frames: the statements' `changesOnly` out of the laws' `Keeps`.
-/

namespace Sys2Proof.Machine

/-- The bit that stands for a component in the sets of `Sub` and `Keeps`. -/
def Component.bit (k : Component) : Nat := k.ctorIdx + 1

theorem Component.bit_inj {j k : Component} (h : j.bit = k.bit) : j = k := by
  have h := congrArg Component.ofNat (Nat.succ.inj h)
  rwa [Component.ofNat_ctorIdx, Component.ofNat_ctorIdx] at h

/-- A list of components as a set of bits. -/
def Component.mask (l : List Component) : Nat := l.foldr (fun k m => 2 ^ k.bit ||| m) 0

theorem Component.testBit_mask {l : List Component} {k : Component} (h : k ∉ l) : (mask l).testBit k.bit = false := by
  induction l with
  | nil => exact Nat.zero_testBit _
  | cons j l ih =>
    obtain ⟨hj, hl⟩ := not_or.1 (mt List.mem_cons.2 h)
    have hjk : j.bit ≠ k.bit := fun e => hj (bit_inj e).symm
    rw [mask, List.foldr_cons, Nat.testBit_or, Nat.testBit_two_pow_of_ne hjk, Bool.false_or]
    exact ih hl

theorem sameAt_of_keeps {w : Nat} {s t : State} (h : Keeps w s t) :
    ∀ k : Component, w.testBit k.bit = false → sameAt k s t
  | .now => keeps_now_eq h
  | .arbSeq => keeps_arbSeq_eq h
  | .freeCount => keeps_freeCount_eq h
  | .shown => keeps_shown_eq h
  | .readData => keeps_readData_eq h
  | .latches => keeps_latches_eq h
  | .regs => keeps_regs_eq h
  | .mem => keeps_mem_eq h
  | .hostMem => keeps_hostMem_eq h
  | .mode => keeps_mode_eq h
  | .transition => keeps_transition_eq h
  | .deferred => keeps_deferred_eq h
  | .degrade => keeps_degrade_eq h
  | .fabric => keeps_fabric_eq h
  | .sensing => keeps_sensing_eq h
  | .timeBase => keeps_timeBase_eq h
  | .memSys => keeps_memSys_eq h
  | .pair => keeps_pair_eq h
  | .host => keeps_host_eq h
  | .safety => keeps_safety_eq h
  | .stalls => keeps_stalls_eq h
  | .pools => keeps_pools_eq h
  | .flash => keeps_flash_eq h
  | .boot => keeps_boot_eq h
  | .gauge => keeps_gauge_eq h
  | .swatch => keeps_swatch_eq h
  | .devLog => keeps_devLog_eq h
  | .since => keeps_since_eq h
  | .planner => keeps_planner_eq h
  | .power => keeps_power_eq h
  | .thermal => keeps_thermal_eq h
  | .wake => keeps_wake_eq h
  | .wear => keeps_wear_eq h
  | .macTx => keeps_macTx_eq h

/-- What keeps everything outside a list of components changes only these. -/
theorem changesOnly_of_keeps {l : List Component} {s t : State} (h : Keeps (Component.mask l) s t) : changesOnly l s t :=
  ⟨keeps_pending_eq h, fun k hk => sameAt_of_keeps h k (Component.testBit_mask hk)⟩

end Sys2Proof.Machine
end

section
/-!
SUPPORT. Accesses of a width or an alignment that R12 does not allow.
-/

namespace Sys2Proof.Machine

@[simp] theorem badAccess_safety (s : State) (isWrite : Bool) : (s.badAccess isWrite).safety = (s.report 0x003 0).safety := by
  cases isWrite <;> rfl

theorem badAccess_recordMade (s : State) (isWrite : Bool) : recordMade 0x003 0 s (s.badAccess isWrite) := by
  obtain ⟨r, hr, hcode, hsev, -⟩ := reportWith_inFlight s 0x003 0 0 none none none false false
  exact ⟨r, by rw [badAccess_safety]; exact hr, hcode, hsev⟩

@[simp] theorem badAccess_false_readData (s : State) : (s.badAccess false).readData = 0 := rfl

theorem badAccess_changesOnly (s : State) (isWrite : Bool) :
    changesOnly (.readData :: recordParts) s (s.badAccess isWrite) :=
  changesOnly_of_keeps (keeps_badAccess s isWrite (keeps_refl _ s) rfl)

@[simp] theorem badAccess_regs (s : State) (isWrite : Bool) : (s.badAccess isWrite).regs = s.regs :=
  (badAccess_changesOnly s isWrite).2 .regs (by decide)

theorem exec_badAccessWidth_of_bad (fn : Fin 32) {offset width : Nat} (isWrite : Bool) (s : State)
    (h4 : ¬(width = 4 ∧ offset % 4 = 0)) (h8 : ¬(width = 8 ∧ offset % 8 = 0)) :
    exec (.badAccessWidth fn offset width isWrite) s = .next (s.badAccess isWrite) :=
  if_neg (not_or.2 ⟨h4, h8⟩)

theorem exec_registerWrite_of_unaligned (fn : Fin 32) {offset : Nat} {wide : Bool} (value : Nat) (s : State)
    (h : offset % (if wide then 8 else 4) ≠ 0) : exec (.registerWrite fn offset wide value) s = .next (s.badAccess true) :=
  if_pos h

theorem exec_latchedReadLow_of_unaligned (fn : Fin 32) {offset : Nat} {wide : Bool} (s : State)
    (h : offset % (if wide then 8 else 4) ≠ 0) : exec (.latchedReadLow fn offset wide) s = .next (s.badAccess false) :=
  if_pos h

/-- An unaligned access of 4 or 8 bytes is one that BAD_ACCESS_WIDTH records (R12). -/
theorem exec_badAccessWidth_of_unaligned (fn : Fin 32) {offset : Nat} {wide : Bool} (isWrite : Bool) (s : State)
    (h : offset % (if wide then 8 else 4) ≠ 0) :
    exec (.badAccessWidth fn offset (if wide then 8 else 4) isWrite) s = .next (s.badAccess isWrite) := by
  refine exec_badAccessWidth_of_bad fn isWrite s ?_ ?_
  all_goals
    rintro ⟨hwidth, haligned⟩
    rw [hwidth] at h
    exact h haligned

/-- Settles O9: both accesses end in `State.badAccess`, which makes the record and keeps all else but the read data. -/
theorem badAccessIsRecorded : Obligations.BadAccessIsRecorded := by
  unfold Obligations.BadAccessIsRecorded
  constructor
  · intro fn offset width isWrite s h4 h8
    obtain ⟨r, hr, hcode, hsev⟩ := badAccess_recordMade s isWrite
    refine ⟨s.badAccess isWrite, r, exec_badAccessWidth_of_bad fn isWrite s h4 h8, hr, hcode, hsev,
      badAccess_regs s isWrite, ?_, badAccess_changesOnly s isWrite⟩
    rintro rfl
    exact badAccess_false_readData s
  · intro fn offset value wide s h
    rw [exec_badAccessWidth_of_unaligned fn true s h, exec_badAccessWidth_of_unaligned fn false s h]
    exact ⟨exec_registerWrite_of_unaligned fn value s h, exec_latchedReadLow_of_unaligned fn s h⟩

end Sys2Proof.Machine
end

section
/-!
SUPPORT. The package beat counter: the operations of a beat that leave it alone, failures, kills and arrivals among them.
-/

namespace Sys2Proof.Machine

/-! ## Shared arguments -/

/-- Every component of the state but the fabric, as a set of bits. -/
def offFabric : Nat := 2 ^ 35 - 1 - 2 ^ 14

theorem beat_of_keeps {s t : State} (h : Keeps offFabric s t) : t.fabric.beat = s.fabric.beat :=
  congrArg Fabric.beat (keeps_fabric_eq h rfl)

theorem beat_foldl {α : Type} {f : State → α → State} (l : List α) (s : State)
    (hf : ∀ t a, (f t a).fabric.beat = t.fabric.beat) : (l.foldl f s).fabric.beat = s.fabric.beat := by
  induction l generalizing s with
  | nil => rfl
  | cons a l ih => exact (ih (f s a)).trans (hf s a)

theorem beat_ite {c : Prop} [Decidable c] {a b : State} {n : Nat} (ha : a.fabric.beat = n) (hb : b.fabric.beat = n) :
    (if c then a else b).fabric.beat = n := by
  split
  · exact ha
  · exact hb

/-! ## What keeps the whole fabric -/

@[simp] theorem report_beat (s : State) (code sev : Nat) (d0 d1 : Option Nat) (request : Option (Nat × Nat)) (origin : Nat) :
    (s.report code sev d0 d1 request origin).fabric.beat = s.fabric.beat :=
  beat_of_keeps (keeps_report s code sev d0 d1 request origin (keeps_refl _ s) rfl)

@[simp] theorem tally_beat (s : State) (c src : Nat) : (s.tally c src).fabric.beat = s.fabric.beat :=
  beat_of_keeps (keeps_tally s c src (keeps_refl _ s) rfl)

@[simp] theorem finish_beat (s : State) (t : Ticket) (status sev info : Nat) :
    (s.finish t status sev info).fabric.beat = s.fabric.beat :=
  beat_of_keeps (keeps_finish s t status sev info (keeps_refl _ s) rfl)

@[simp] theorem finishKill_beat (s : State) (r : Running) (status : Nat) : (s.finishKill r status).fabric.beat = s.fabric.beat :=
  beat_of_keeps (keeps_finishKill s r status (keeps_refl _ s) rfl)

@[simp] theorem killBarrier_beat (s : State) (r : Running) : (s.killBarrier r).fabric.beat = s.fabric.beat :=
  beat_of_keeps (keeps_killBarrier s r (keeps_refl _ s) rfl)

@[simp] theorem killTransfers_beat (s : State) (p : Program) : (s.killTransfers p).fabric.beat = s.fabric.beat :=
  beat_of_keeps (keeps_killTransfers s p (keeps_refl _ s) rfl)

@[simp] theorem unstarve_beat (s : State) (fn slot : Nat) : (s.unstarve fn slot).fabric.beat = s.fabric.beat := rfl

@[simp] theorem stallCode_beat (s : State) (k code : Nat) : (s.stallCode k code).fabric.beat = s.fabric.beat :=
  beat_of_keeps (keeps_stallCode s k code (keeps_refl _ s) rfl)

@[simp] theorem logStall_beat (s : State) (k event : Nat) (detail : List Byte) :
    (s.logStall k event detail).fabric.beat = s.fabric.beat :=
  beat_of_keeps (keeps_logStall s k event detail (keeps_refl _ s) rfl)

@[simp] theorem stallEvent_beat (s : State) (k b : Nat) : (s.stallEvent k b).fabric.beat = s.fabric.beat :=
  beat_of_keeps (keeps_stallEvent s k b (keeps_refl _ s) rfl)

@[simp] theorem failWaitingCopies_beat (s : State) (p : Program) : (s.failWaitingCopies p).fabric.beat = s.fabric.beat :=
  beat_of_keeps (keeps_failWaitingCopies s p (keeps_refl _ s) rfl)

@[simp] theorem settleChanges_beat (s : State) (fn slot : Nat) (p : Program) :
    (s.settleChanges fn slot p).fabric.beat = s.fabric.beat :=
  beat_of_keeps (keeps_settleChanges s fn slot p (keeps_refl _ s) rfl)

@[simp] theorem settleQuadrants_beat (s : State) : s.settleQuadrants.fabric.beat = s.fabric.beat := rfl

/-! ## What changes another part of the fabric -/

@[simp] theorem setSlot_beat (s : State) (fn slot : Nat) (x : Slot) : (s.setSlot fn slot x).fabric.beat = s.fabric.beat := rfl

@[simp] theorem setBuffer_beat (s : State) (id : Nat) (b : Option Buffer) : (s.setBuffer id b).fabric.beat = s.fabric.beat := rfl

@[simp] theorem setWatch_beat (s : State) (d w : Nat) (x : Watch) : (s.setWatch d w x).fabric.beat = s.fabric.beat := rfl

@[simp] theorem disarm_beat (s : State) (fn slot : Nat) (only : Nat → Nat → Bool) :
    (s.disarm fn slot only).fabric.beat = s.fabric.beat := rfl

@[simp] theorem forgetCopied_beat (s : State) (p : Program) : (s.forgetCopied p).fabric.beat = s.fabric.beat := rfl

@[simp] theorem dropBuffers_beat (s : State) (p : Program) : (s.dropBuffers p).fabric.beat = s.fabric.beat :=
  beat_foldl _ _ fun _ _ => rfl

@[simp] theorem modProgram_beat (s : State) (fn slot : Nat) (g : Program → Program) :
    (s.modProgram fn slot g).fabric.beat = s.fabric.beat := by
  unfold State.modProgram
  split <;> rfl

@[simp] theorem modRunning_beat (s : State) (fn slot : Nat) (g : Running → Running) :
    (s.modRunning fn slot g).fabric.beat = s.fabric.beat := modProgram_beat ..

@[simp] theorem modIteration_beat (s : State) (fn slot n : Nat) (g : Iteration → Iteration) :
    (s.modIteration fn slot n g).fabric.beat = s.fabric.beat := modProgram_beat ..

@[simp] theorem modRun_beat (s : State) (c : CmdRef) (g : CmdRun → CmdRun) : (s.modRun c g).fabric.beat = s.fabric.beat :=
  modIteration_beat ..

@[simp] theorem leaveRunning_beat (s : State) (fn slot : Nat) : (s.leaveRunning fn slot).fabric.beat = s.fabric.beat :=
  modProgram_beat ..

/-! ## Programs that end (R66 to R69, R307) -/

@[simp] theorem killIterations_beat (s : State) (fn slot : Nat) : (s.killIterations fn slot).fabric.beat = s.fabric.beat := by
  unfold State.killIterations
  split
  · rfl
  · rw [modRunning_beat, disarm_beat]
    exact beat_foldl _ _ fun _ _ => tally_beat ..

@[simp] theorem endStart_beat (s : State) (fn slot : Nat) (r : Running) (code sev info kill : Nat) :
    (s.endStart fn slot r code sev info kill).fabric.beat = s.fabric.beat := by
  unfold State.endStart
  cases r.desc <;> simp

@[simp] theorem killProgram_beat (s : State) (fn slot status sev : Nat) :
    (s.killProgram fn slot status sev).fabric.beat = s.fabric.beat := by
  unfold State.killProgram
  split
  case h_1 => rfl
  case h_2 p _ =>
    cases p.running with
    | none => rfl
    | some r => exact beat_ite (by simp) (beat_ite (endStart_beat ..) (by simp))

@[simp] theorem killFunction_beat (s : State) (fn status sev : Nat) : (s.killFunction fn status sev).fabric.beat = s.fabric.beat := by
  unfold State.killFunction
  exact beat_foldl _ _ fun _ _ => killProgram_beat ..

@[simp] theorem stallFault_beat (s : State) (k code : Nat) : (s.stallFault k code).fabric.beat = s.fabric.beat := by
  unfold State.stallFault
  exact beat_ite rfl (by simp)

@[simp] theorem unload_beat (s : State) (fn slot : Nat) (left : Slot) : (s.unload fn slot left).fabric.beat = s.fabric.beat := by
  unfold State.unload
  cases s.program fn slot with
  | none => rfl
  | some p => cases h : p.running <;> simp [h]

@[simp] theorem reap_beat (s : State) (fn slot : Nat) : (s.reap fn slot).fabric.beat = s.fabric.beat := by
  unfold State.reap
  cases s.program fn slot with
  | none => rfl
  | some p => exact beat_ite (unload_beat ..) rfl

/-! ## Commands that fail (R44, R51, R56, R61) -/

@[simp] theorem armFirst_beat (s : State) (p : Program) (it : Iteration) (d w : Nat) (l : List (Nat × Command)) :
    (s.armFirst p it d w l).fabric.beat = s.fabric.beat := by
  cases l <;> rfl

@[simp] theorem nextWatch_beat (s : State) (p : Program) (it : Iteration) (d w after : Nat) :
    (s.nextWatch p it d w after).fabric.beat = s.fabric.beat := armFirst_beat ..

@[simp] theorem passWatches_beat (s : State) (p : Program) (it : Iteration) (hit : Nat → Bool) :
    (s.passWatches p it hit).fabric.beat = s.fabric.beat := beat_foldl _ _ fun _ _ => nextWatch_beat ..

@[simp] theorem failRuns_beat (s : State) (p : Program) (it : Iteration) (sel : Nat → Bool) (code id sev : Nat) :
    (s.failRuns p it sel code id sev).fabric.beat = s.fabric.beat := by
  unfold State.failRuns
  exact beat_ite (by simp) (by simp)

@[simp] theorem failCommand_beat (s : State) (c : CmdRef) (code : Nat) : (s.failCommand c code).fabric.beat = s.fabric.beat := by
  unfold State.failCommand
  cases s.cmdRun c <;> simp

/-! ## What is due at a beat (R48 to R51, R118) -/

@[simp] theorem endJobs_beat (s : State) (c : CmdRef) : (s.endJobs c).fabric.beat = s.fabric.beat := by
  unfold State.endJobs
  cases s.cmdRun c <;> simp

@[simp] theorem arrive_beat (s : State) (c : CmdRef) : (s.arrive c).fabric.beat = s.fabric.beat := by
  unfold State.arrive
  cases s.cmdRun c with
  | none => rfl
  | some x => exact beat_ite rfl (beat_ite (modRun_beat ..) (failCommand_beat ..))

@[simp] theorem completeWrites_beat (s : State) : s.completeWrites.fabric.beat = s.fabric.beat := by
  refine beat_foldl _ s fun t x => ?_
  dsimp only
  split <;> rfl

end Sys2Proof.Machine
end

section
/-!
SUPPORT. FABRIC_BEAT in its parts (the bundles issued, the engines' steps, what is due at the new beat) and the package
beat counter that it advances (R41).
-/

namespace Sys2Proof.Machine

/-! ## The parts of a beat -/

/-- One bundle more of a beat: what it leaves, and whether a pattern has left what the manual describes. -/
def State.addBundle (x : State × Bool) (b : Bundle) : State × Bool := ((x.1.bundle b).1, x.2 || (x.1.bundle b).2)

/-- The same of all bundles `l` of a beat in `s`, which has issued them; `tooMuch` says that they go beyond what lanes and ring
links carry. -/
def State.runBundles (s : State) (l : List Bundle) (tooMuch : Bool) : State × Bool :=
  let s := s.runningRefs.foldl State.keepPast s
  let s := (s.clashing l).foldl (fun s c => s.failCommand c 0x105) s
  l.foldl State.addBundle (s, tooMuch)

/-- What the bundles of a beat leave, from the issue on: the state, and whether a pattern left what the manual describes. -/
def State.afterBundles (s : State) (bundles : List Bundle) : State × Bool :=
  (s.issueAll bundles).2.runBundles (s.issueAll bundles).1 (s.overfull (s.issueAll bundles).1)

/-- The engines' reads and steps of a beat, and the stalls' counters of busy beats. -/
def State.runEngines (s : State) (engines : List EngineRead) : State :=
  let s := s.runningRefs.foldl (fun s c => s.readJobs engines c) s
  (s.runningRefs.foldl State.runJobs s).countBusy

/-- What is due at the beat that has come. -/
def State.settleBeat (s : State) : State :=
  let s := (s.awaiting.foldl State.arrive (s.runningRefs.foldl State.endJobs s)).completeWrites
  s.programs.foldl (fun s p => s.reap p.fn p.slot) s

/-- The package beat counter set. -/
def State.setBeat (s : State) (n : Nat) : State := { s with fabric := { s.fabric with beat := n } }

theorem execFabricBeat_eq (bundles : List Bundle) (engines : List EngineRead) (s : State) :
    execFabricBeat bundles engines s =
      if (s.afterBundles bundles).2 then .fault .patternOutsideManual
      else .next (((s.afterBundles bundles).1.runEngines engines).setBeat ((s.fabric.beat + 1) % two64)).settleBeat := by
  unfold execFabricBeat State.afterBundles State.settleBeat State.setBeat State.runEngines
  rcases s.issueAll bundles with ⟨l, t⟩
  dsimp only
  generalize hrun : List.foldl _ _ l = x
  rw [show t.runBundles l (s.overfull l) = x from hrun]

@[simp] theorem setBeat_beat (s : State) (n : Nat) : (s.setBeat n).fabric.beat = n := rfl

@[simp] theorem settleBeat_beat (s : State) : s.settleBeat.fabric.beat = s.fabric.beat := by
  have hreap : ∀ (t : State) (p : Program), (t.reap p.fn p.slot).fabric.beat = t.fabric.beat := fun _ _ => reap_beat ..
  unfold State.settleBeat
  dsimp only
  exact (beat_foldl _ _ hreap).trans ((completeWrites_beat _).trans
    ((beat_foldl _ _ arrive_beat).trans (beat_foldl _ _ endJobs_beat)))

/-- Whatever the sequencers issue, a beat that the manual describes advances the counter by one (R41). -/
theorem beat_of_execFabricBeat_next {bundles : List Bundle} {engines : List EngineRead} {s t : State}
    (h : execFabricBeat bundles engines s = .next t) : t.fabric.beat = (s.fabric.beat + 1) % 2 ^ 64 := by
  rw [execFabricBeat_eq] at h
  split at h
  · cases h
  have ht := Host.Outcome.next.inj h
  subst ht
  exact settleBeat_beat _

/-! ## Operations inside what the manual describes in every state -/

theorem op_outside_of_plain (w : Work) (e : Site) {o : TileOp} (h : plainOp o = true) : (w.op e o).outside = w.outside := by
  cases o
  case loadWord | storeWord | scalarLoad | scalarStore | pull =>
    simp only [plainOp, Bool.and_eq_true, decide_eq_true_eq] at h
    simp [Work.op, inTile, h, Work.put, Work.store]
  case accRead | fma | bf16Add | bf16Mul | bf16Fma | int32Add | int32Mul | select => rfl
  case depthwise | readStatus | inputConvert | outputConvert | macElement | attendRow | finishKey | appendLatent | markAdd | markSet =>
    cases h

theorem steps_outside_of_plain (e : Site) {l : List TileOp} (h : ∀ o ∈ l, plainOp o = true) (w : Work) :
    (l.foldl (fun w o => w.step e o) w).outside = w.outside := by
  induction l generalizing w with
  | nil => rfl
  | cons o l ih =>
    rw [List.forall_mem_cons] at h
    exact (ih h.2 _).trans (op_outside_of_plain w e h.1)

theorem bundle_inside_of_plain (s : State) {b : Bundle} (h : ∀ o ∈ b.ops, plainOp o = true) : (s.bundle b).2 = false := by
  unfold State.bundle
  cases s.cmdRun b.ref with
  | none => rfl
  | some x =>
    dsimp only
    split
    · rfl
    · exact steps_outside_of_plain _ h _

theorem bundles_inside_of_plain {l : List Bundle} (h : ∀ b ∈ l, ∀ o ∈ b.ops, plainOp o = true) (s : State) :
    (l.foldl State.addBundle (s, false)).2 = false := by
  induction l generalizing s with
  | nil => rfl
  | cons b l ih =>
    rw [List.forall_mem_cons] at h
    rw [List.foldl_cons, State.addBundle, bundle_inside_of_plain s h.1]
    exact ih h.2 _

theorem afterBundles_inside_of_plain {bundles : List Bundle} {s : State}
    (hplain : ∀ b ∈ (s.issueAll bundles).1, ∀ o ∈ b.ops, plainOp o = true) (hfits : s.overfull (s.issueAll bundles).1 = false) :
    (s.afterBundles bundles).2 = false := by
  unfold State.afterBundles
  rw [hfits]
  exact bundles_inside_of_plain hplain _

/-! ## HUB_CFG_BEAT_COUNT -/

theorem onWide_beatCount : onWide 0 0x100 = some ⟨.HUB_CFG_BEAT_COUNT, 0, 0, false⟩ := by decide

theorem readReg_beatCount (s : State) : s.readReg .HUB_CFG_BEAT_COUNT 0 0 = s.fabric.beat % 2 ^ 64 := by
  show 0 + s.fabric.beat % 2 ^ 64 * 2 ^ 0 = _
  omega

theorem exec_read_beatCount (s : State) :
    exec (.latchedReadLow 0 0x100 true) s = .next { s with readData := s.fabric.beat % 2 ^ 64 } := by
  have hread : s.readWide 0 0x100 = (s.fabric.beat % 2 ^ 64, s) := by
    rw [State.readWide, onWide_beatCount]
    exact congrArg (·, s) (readReg_beatCount s)
  show Host.Outcome.next { (s.readWide 0 0x100).2 with readData := (s.readWide 0 0x100).1 } = _
  rw [hread]

/-- Settles O10: the counter is set once in a beat and nothing that is due then changes it; operations that are plain
leave no pattern outside the manual. -/
theorem fabricBeatAdvances : Obligations.FabricBeatAdvances := by
  unfold Obligations.FabricBeatAdvances
  constructor
  · intro s
    exact ⟨_, exec_read_beatCount s, rfl, changesOnly_of_keeps (keeps_set_readData (keeps_refl _ s) rfl)⟩
  · intro bundles engines s l hplain hfits
    have hnext := (execFabricBeat_eq bundles engines s).trans
      (if_neg (by rw [afterBundles_inside_of_plain hplain hfits]; exact Bool.false_ne_true))
    exact ⟨_, hnext, beat_of_execFabricBeat_next hnext⟩

end Sys2Proof.Machine
end

section
/-!
SUPPORT. A MARK whose target is out of range (R323): the end of a descriptor with a code outside the Night Market range.
-/

namespace Sys2Proof.Machine

/-- `t` differs from `s` in its rings and their descriptors alone: the markers and their waits stay. -/
def State.ringsOnly (s t : State) : Prop := t = { s with host := { s.host with rings := t.host.rings } }

theorem changesOnly_of_ringsOnly {s t : State} (h : s.ringsOnly t) : changesOnly [.host] s t := by
  rw [State.ringsOnly] at h
  rw [h]
  refine ⟨rfl, fun k hk => ?_⟩
  cases k
  case host => exact absurd (List.mem_singleton_self _) hk
  all_goals rfl

theorem markers_of_ringsOnly {s t : State} (h : s.ringsOnly t) : t.host.markers = s.host.markers := by
  rw [State.ringsOnly] at h
  rw [h]

theorem waits_of_ringsOnly {s t : State} (h : s.ringsOnly t) : t.host.waits = s.host.waits := by
  rw [State.ringsOnly] at h
  rw [h]

theorem marker_of_ringsOnly {s t : State} (h : s.ringsOnly t) (m : Nat) : t.marker m = s.marker m :=
  congrArg (fun l => Tbl.get 0 l m) (markers_of_ringsOnly h)

theorem ringsOnly_trans {s t u : State} (h : s.ringsOnly t) (k : t.ringsOnly u) : s.ringsOnly u := by
  rw [State.ringsOnly] at *
  rw [k, h]

/-- A code outside the Night Market range (0xC00 to 0xCFF) is no LAST_CODE of a stall: it changes the ring alone. -/
theorem finish_ringsOnly (s : State) (k : Ticket) {status : Nat} (sev info : Nat) (h : status / 256 ≠ 12) :
    s.ringsOnly (s.finish k status sev info) := by
  unfold State.finish
  rw [if_neg fun e => h e.1]
  rfl

/-- The effect of an ARRIVE whose target does not fit 32 bits (R323). -/
theorem exec_markArrive_of_outOfRange {d : DescRef} {s : State} {x : Desc} (h : startable s d x)
    (htype : x.val 0 1 = 4) (hop : x.val 16 1 = 5)
    (hrange : 0xFFFFFFFF < alignUp (s.marker (x.val 18 2) + 1) (x.val 20 4)) :
    ∃ u, exec (.markArrive d) s = .next (u.finish (ticketOf d x) 0x633 0 0) ∧ s.ringsOnly u ∧
      u.desc d = some { x with started := true } := by
  have hkind : isOp 4 5 x = true := by simp [isOp, htype, hop]
  obtain ⟨u, hu, hrings, hdesc⟩ := begin_of_startable s d x (isOp 4 5) _ h hkind
  refine ⟨u, (congrArg Host.Outcome.next hu).trans ?_, hrings, hdesc⟩
  rw [← marker_of_ringsOnly hrings] at hrange
  exact congrArg Host.Outcome.next (if_pos hrange)

/-- Settles O11: such an ARRIVE does no more than end its descriptor, which is a change of its ring. -/
theorem arrivesOutOfRangeAddNothing : Obligations.ArrivesOutOfRangeAddNothing := by
  unfold Obligations.ArrivesOutOfRangeAddNothing
  intro d s x hstart htype hop w hrange
  obtain ⟨u, hexec, hrings, hdesc⟩ := exec_markArrive_of_outOfRange hstart htype hop hrange
  obtain ⟨-, -, hnotDone, -⟩ := hstart
  have hend := ringsOnly_trans hrings (finish_ringsOnly u (ticketOf d x) 0 0 (status := 0x633) (by decide))
  refine ⟨u.finish (ticketOf d x) 0x633 0 0, 0, 0, hexec, ?_, markers_of_ringsOnly hend, waits_of_ringsOnly hend,
    changesOnly_of_ringsOnly hend⟩
  exact ⟨_, desc_finish u d { x with started := true } 0x633 0 0 hdesc hnotDone, rfl, rfl⟩

end Sys2Proof.Machine
end
